-- ==== Sys2Proof/Word.lean ====
section
/-! DEFINITION. Word types of the LUM9640 model (00 R4, R6): bytes, 32-bit register words, 64-bit
registers, and the plainest arithmetic on them. -/

namespace Sys2Proof

/-- One byte of device memory or of a message. -/
abbrev Byte := BitVec 8
/-- One register word (R4). -/
abbrev Word := BitVec 32
/-- A 64-bit register, an engine scalar, or a 64-bit quantity (R6). -/
abbrev DWord := BitVec 64
/-- A 512-bit engine vector (R323). -/
abbrev VWord := BitVec 512

end Sys2Proof
end

