-- ==== Sys2Proof/Machine/Payload.lean ====
section
/-! DEFINITION. The types of the commands' operands: requesters, triggers, and the messages that
partners send. -/

namespace Sys2Proof

/-- Who can reach BAR0 (R7): a PCIe function, a Cregar engine, the secure management domain, a DMA
channel, the FAB, or the management UART. -/
inductive Requester
  | pf (f : Fin 6)
  | eng (e : Fin 192)
  | secDom
  | dma (c : Fin 32)
  | fab
  | uart
  deriving DecidableEq, Repr

/-- How a block's action is triggered: by a register write of a requester, or at its task input by the
event fabric (R348). -/
inductive Trigger
  | reg (who : Requester)
  | task
  deriving DecidableEq, Repr


/-- The inputs of a quadrature decoder (R37). -/
inductive EncInput
  | a | b | z
  deriving DecidableEq, Repr

/-- Bits that a channel captured (R176): from which input DG_SDs_DAT, and the bits, oldest first. -/
structure SdBits where
  src : Fin 16
  bits : List Bool
  deriving DecidableEq, Repr

/-- What the SSI data line carried in one transfer (R54): the level checked before the first clock edge
and the level checked after the last, the position bits and status bits as received, the parity bit, and
the second word of a double read. -/
structure SsiFrame where
  ready : Bool
  mono : Bool
  word : BitVec 32
  status : BitVec 3
  parity : Bool
  second : BitVec 32
  deriving DecidableEq, Repr


/-- The form of a nozzle table window write (R25): one 64-bit access, or a half of a 32-bit pair (R6). -/
inductive WinWrite
  | full (d : BitVec 64)
  | low (w : Word)
  | high (w : Word)
  deriving DecidableEq, Repr

/-- The form of a nozzle table window read. -/
inductive WinRead
  | full
  | low
  | high
  deriving DecidableEq, Repr

/-- Why a head is taken to DISABLED (R163): a register write of EN = 0, or the loss of its link. -/
inductive HeadOff
  | reg (who : Requester)
  | link
  deriving DecidableEq, Repr

/-- A camera packet (R204): its header fields and payload. -/
structure CamPacket where
  dtype : BitVec 8
  vc : Fin 4
  last : Bool
  long : Bool
  ofs : BitVec 12
  trig : Word
  words : List DWord
  deriving DecidableEq, Repr

/-- A splice message of the partner (R313, R490). -/
inductive SpliceMsg
  | report (image : Word) (digest : List DWord) (wco : DWord) (mask : BitVec 10)
  | go
  | noGo
  deriving DecidableEq, Repr

/-- What host memory answers to a read of a 64-byte block (R376): its bytes, or the failure kinds 3 to 6, counted from 0. -/
inductive HostRead
  | data (bytes : List (BitVec 8))
  | fail (kind : Fin 4)
  deriving DecidableEq, Repr

/-- The answers to the program fetches from host memory that an instruction needs. -/
abbrev Fetches := List HostRead

/-- Bytes in address order. -/
abbrev Bytes := List (BitVec 8)

/-- A working setting that a training run found (R404, R421): read, write and command eye widths in delay steps. -/
structure TrainEyes where
  rd : BitVec 8
  wr : BitVec 8
  ca : BitVec 8
  deriving DecidableEq, Repr

/-- What else waits at a bank's channel queue when an access completes (R400, R401): a request to the row the access
used, and an older request to another row of the bank. -/
structure RowQueue where
  sameRow : Bool
  olderOther : Bool
  deriving DecidableEq, Repr

/-- The requests at a channel's ingress in a slot (R408, R411): the ports that request, whether the channel queue has a
free entry for a reserved and for an open slot, and whether the port that holds the grant passes a request on. -/
structure SlotInput where
  requests : BitVec 28
  reservedFree : Bool
  queueFree : Bool
  passes : Bool
  deriving DecidableEq, Repr

/-- Data of a block under byte enables: the bytes written are `some`. -/
abbrev BlockData := List (Option Byte)

/-- What boot training found, channel by channel (R404). -/
abbrev TrainResults := List (Option TrainEyes)

/-- A DATA frame as received (R436): whether its CRC matches, whether its head is well formed (FTYPE, reserved bits, LEN_M1),
its SEQ and its transaction's words. -/
structure RxFrame where
  crcOk : Bool
  wellFormed : Bool
  seq : BitVec 16
  words : List DWord
  deriving DecidableEq, Repr

/-- How an I²C transfer ends (R461, R462): without error, with a NACK (0 for the address, 1 + j for written byte j), with
arbitration lost, or with the bus stuck. -/
inductive I2cEnd
  | ok
  | nack (byte : Fin 17)
  | arbLost
  | busStuck
  deriving DecidableEq, Repr

/-- What host memory answers to the reads a block makes of it, by address. -/
abbrev HostMemory := List (DWord × HostRead)

/-- A heartbeat (R480, R490): the sender's state code and epoch, sequence number, latch pair (nm, Tempo, speed), and the last
committed line of each enabled pipe. -/
structure Heartbeat where
  role : BitVec 3
  epoch : Word
  seq : Word
  latchW : DWord
  latchT : DWord
  latchV : DWord
  lines : List (Option DWord)
  deriving DecidableEq, Repr

/-- An entry of a SIGNATURE message (R490). -/
structure SigEntry where
  head : BitVec 7
  group : Word
  mask : DWord
  crc : DWord
  deriving DecidableEq, Repr

/-- An entry of an NT_UPDATE message (R490). -/
structure NtEntry where
  idx : Fin 524288
  mask : DWord
  data : DWord
  deriving DecidableEq, Repr

/-- A CASTLE message (R487, R490). -/
inductive CastleMsg
  | plan (wco : DWord)
  | ack
  | release (head : Fin 128)
  deriving DecidableEq, Repr

/-- What the exchange of certificates, nonces, signatures and keys found (R478, R479): whether all of it verified, whether both
hold the same enrolled owner key set, the partner's requested role (true for STANDBY) and serial number, whether its WCO source is
in STILL, its WCO, and whether a standby partner accepts this device's WCO. -/
structure Pairing where
  auth : Bool
  ownerSame : Bool
  standby : Bool
  serial : DWord
  still : Bool
  wco : DWord
  accepts : Bool
  deriving DecidableEq, Repr

/-- What a calibration phase found (R515): each sensor's trim code and first reading after the trim, and each strobe's code. -/
structure CalPhase where
  trims : List (BitVec 8)
  temps : List (BitVec 16)
  codes : List (BitVec 8)
  deriving DecidableEq, Repr

/-- What the SEC's fuse hardware finds in a command that writes fuses (R505, R506): the fuse supply within its range, the
read-back good, and SECURE_BOOT's own check passed. -/
structure FuseOutcome where
  supply : Bool
  readBack : Bool
  bootCheck : Bool
  deriving DecidableEq, Repr

/-- The readings of the eight temperature sensors, in signed 1/16 °C (R513). -/
abbrev Temps := List (BitVec 16)

end Sys2Proof
end

