-- ==== Sys2Proof/Syntax.lean ====
section
/-! DEFINITION. The commands of the LUM9640: one constructor per row of the opcode table, with the row's
operands. `dt` is the Tempo that passes before the command happens (assumption 2); `who` is the
requester of a register access (R7). -/

namespace Sys2Proof

/-- What a read asks of a register word (R5): all of it, or the 16 bits or 8 bits at a place in it. -/
inductive ReadPart
  | word
  | half (i : Fin 2)
  | byte (i : Fin 4)
  deriving DecidableEq, Repr

/-- The addressed bytes of a word. -/
def ReadPart.of (p : ReadPart) (v : Nat) : Nat :=
  match p with
  | .word => v
  | .half i => v / 2 ^ (16 * i.val) % 2 ^ 16
  | .byte i => v / 2 ^ (8 * i.val) % 2 ^ 8

/-- What a read of BAR0 addresses: a word, by its number, or a part of one. -/
structure ReadAt where
  word : BitVec 24
  part : ReadPart := .word
  deriving DecidableEq, Repr

/-- The offset of the word. -/
def ReadAt.off (a : ReadAt) : Nat := 4 * a.word.toNat

/-- The offset of the addressed bytes. -/
def ReadAt.addr (a : ReadAt) : Nat :=
  match a.part with
  | .word => a.off
  | .half i => a.off + 2 * i.val
  | .byte i => a.off + i.val

/-- The commands, one per row of the opcode table. -/
inductive Instr where
  /-- REGISTER_WRITE, R8. A 32-bit write to a BAR0 register field that has no row of its own stores, ignores, sets or clears bits according to the field's access type. -/
  | registerWrite (dt : Nat) (who : Requester) (word : BitVec 24) (v : Word)
  /-- SUBWORD_WRITE, R5. An 8-bit or 16-bit write to BAR0 is discarded and logged by the HIF as a configuration error. -/
  | subwordWrite (dt : Nat) (who : Requester)
  /-- RC_READ, R8. A read of an RC field returns its value and then clears it, keeping any event that falls in the same cycle. -/
  | rcRead (dt : Nat) (who : Requester) (at_ : ReadAt)
  /-- LOW_WORD_READ, R6. A read of the low word of a 64-bit register latches the high word for the same requester. -/
  | lowWordRead (dt : Nat) (who : Requester) (at_ : ReadAt)
  /-- LOW_WORD_WRITE, R6. A write of the low word of a 64-bit register records it as the requester's pending low word. -/
  | lowWordWrite (dt : Nat) (who : Requester) (word : BitVec 24) (v : Word)
  /-- HIGH_WORD_WRITE, R6. A write of the high word of a 64-bit register updates the whole register, using the pending or the current low word. -/
  | highWordWrite (dt : Nat) (who : Requester) (word : BitVec 24) (v : Word)
  /-- LOG_ENTRY_READ, R545. A read of word 0 of LOG_ENTRY latches the selected slot for that requester. -/
  | logEntryRead (dt : Nat) (who : Requester) (ring : Fin 44)
  /-- MSIX_VECTOR_UNMASK, R33. Unmasking an MSI-X vector whose pending bit is set issues the held interrupt write. -/
  | msixVectorUnmask (dt : Nat) (who : Requester) (f : Fin 6) (v : Fin 32)
  /-- BUS_MASTER_ENABLE_SET, R33. Setting Bus Master Enable issues the held interrupts of the function whose vectors are unmasked. -/
  | busMasterEnableSet (dt : Nat) (f : Fin 6)
  /-- FUNCTION_LEVEL_RESET, R458. A Function Level Reset of one function returns the blocks that function owns to reset and leaves everything else unchanged. -/
  | functionLevelReset (dt : Nat) (f : Fin 6)
  /-- FLR_COMPLETE, R458. A Function Level Reset completes within 1 ms, and the HIF increments its count and raises its event. -/
  | flrComplete (dt : Nat) (f : Fin 6)
  /-- ENCODER_INPUT_EDGE, R37. An edge on an encoder input A, B or Z is sampled by the glitch filter and stamped to 0.25 ns. -/
  | encoderInputEdge (dt : Nat) (n : Fin 4) (line : EncInput)
  /-- ENCODER_TRANSITION_ACCEPTED, R38. A filtered transition is accepted, changes the raw count by plus or minus 1 and runs the tracking, motion state and speed updates. -/
  | encoderTransitionAccepted (dt : Nat) (n : Fin 4)
  /-- STANDSTILL_TIMEOUT, R41. No tracked edge for WTU_STILL_TIME returns the decoder to STILL. -/
  | standstillTimeout (dt : Nat) (n : Fin 4)
  /-- STUCK_LINE, R43. A line with no accepted transition for WTU_STILL_TIME, while the other line toggles, sets STUCK_A or STUCK_B and logs cause 0x021. -/
  | stuckLine (dt : Nat) (n : Fin 4) (lineB : Bool)
  /-- LEVEL_TIMEOUT, R43. An input held at 1 for longer than LEVEL × 2^16 cycles sets LEVEL_A or LEVEL_B and logs cause 0x022. -/
  | levelTimeout (dt : Nat) (n : Fin 4) (lineB : Bool)
  /-- WCO_LOAD, R47. A write of 1 to WCO_LOAD copies LOADVAL into WCO when the source decoder is in STILL, and is otherwise discarded. -/
  | wcoLoad (dt : Nat) (who : Requester)
  /-- WCO_SOURCE_WRITE, R48. A write to WCO_SRC switches the WCO source at the next TMP cycle, and WCO continues from its value. -/
  | wcoSourceWrite (dt : Nat) (who : Requester) (src : Fin 4)
  /-- SNAPSHOT_CAPTURE, R52. A CAPTURE write or snapshot task trigger captures WCO, Tempo and speed in one cycle, and sets VALID or OVERRUN. -/
  | snapshotCapture (dt : Nat) (trig : Trigger) (k : Fin 4)
  /-- SSI_REQUEST, R54. A write to WTU_SSIm_REQ or an SSI task trigger starts an SSI transfer, or sets REQ_LOST while BUSY. -/
  | ssiRequest (dt : Nat) (trig : Trigger) (m : Fin 2)
  /-- SSI_TRANSFER_DONE, R54. An SSI transfer ends with its frame, parity and double-read checks, writes POS on success, sets DONE and raises event 8 + m. -/
  | ssiTransferDone (dt : Nat) (m : Fin 2) (frame : SsiFrame)
  /-- LINE_LAUNCH, R57. At T_k minus LEAD, a line generator sends the launch of line k to its consumers. -/
  | lineLaunch (dt : Nat) (g : Fin 32)
  /-- LINE_COMMIT, R57. At T_k minus 256 units, and with P_k inside the clamp, a generator sends the commit of line k with its final T_k. -/
  | lineCommit (dt : Nat) (g : Fin 32)
  /-- GENERATOR_ENABLE, R58. Setting EN of a line generator starts it at the first line ahead of WCO, or holds it with CFG_ERR if PITCH is below 1,024 nm. -/
  | generatorEnable (dt : Nat) (who : Requester) (g : Fin 32)
  /-- GENERATOR_DISABLE, R60. Clearing EN of a generator withdraws its uncommitted lines with one missed-span notice. -/
  | generatorDisable (dt : Nat) (who : Requester) (g : Fin 32)
  /-- GENERATOR_RESTART, R60. A write of RESTART withdraws the uncommitted lines and restarts the generator as at enable. -/
  | generatorRestart (dt : Nat) (who : Requester) (g : Fin 32)
  /-- SLOT_ARM, R62. A write of ARM = 1 arms a launch slot, which is evaluated from the next TMP cycle. -/
  | slotArm (dt : Nat) (who : Requester) (slot : Fin 32)
  /-- SLOT_FIRE, R61. A launch slot reaches its Tempo or WCO target, clears ARM, sets FIRED, records FIRE_TEMPO and raises event 16 + s. -/
  | slotFire (dt : Nat) (slot : Fin 32)
  /-- CMP_RING_ENABLE, R75. Enabling an ingest ring checks BASE and SIZE_LOG2, and a bad ring stays off with cause 0x001. -/
  | cmpRingEnable (dt : Nat) (who : Requester) (r : Fin 4)
  /-- RING_PROD_WRITE, R75. A write to CMP_RINGr_PROD advances the producer count, or is discarded with cause 0x003 when it breaks the rule. -/
  | ringProdWrite (dt : Nat) (who : Requester) (r : Fin 4) (hi : Word)
  /-- RING_RESUME, R77. A write of RESUME = 1 restarts a halted ingest ring from its CONS. -/
  | ringResume (dt : Nat) (who : Requester) (r : Fin 4)
  /-- RING_CONS_WRITE, R77. A write to CONS of a halted ring moves it to the next good record, and is discarded while the ring is not halted. -/
  | ringConsWrite (dt : Nat) (who : Requester) (r : Fin 4) (hi : Word)
  /-- RECORD_DISPATCH, R78. A complete record below PROD is dispatched round-robin to the lowest idle inflate lane. -/
  | recordDispatch (dt : Nat)
  /-- INFLATE_STREAM_END, R79. An inflate lane ends its stream, with success or with a detected stream error. -/
  | inflateStreamEnd (dt : Nat) (lane : Fin 32)
  /-- PLANE_ENABLE, R90. Setting EN of a CMP plane is refused with cause 0x005 when an exponent is out of range. -/
  | planeEnable (dt : Nat) (who : Requester) (p : Fin 64)
  /-- DQ_PROD_WRITE, R83. A write to CMP_DQ_PROD submits deflate descriptors. -/
  | dqProdWrite (dt : Nat) (who : Requester) (v : Word)
  /-- DESCRIPTOR_DISPATCH, R84. An idle deflate lane takes the next descriptor in queue order and starts compressing. -/
  | descriptorDispatch (dt : Nat)
  /-- DEFLATE_COMPLETE, R85. A deflate lane finishes, writes the header, STATUS and OUTLEN, and advances DQ_CONS. -/
  | deflateComplete (dt : Nat) (lane : Fin 8)
  /-- LINE_RENDER_START, R94. A pipe starts rendering line k at the later of the end of line k − 1 and the first data of line k. -/
  | lineRenderStart (dt : Nat) (n : Fin 8)
  /-- LINE_RENDER_END, R93. A line's render ends after SEG + 24 cycles, and its packed dot data goes to the FTU. -/
  | lineRenderEnd (dt : Nat) (n : Fin 8)
  /-- SNAPSHOT_RETIRE, R101. A snapshot retires when its last tile read completes, which advances SNAP_RETIRED and may raise event 5. -/
  | snapshotRetire (dt : Nat) (n : Fin 8)
  /-- PIPE_ENABLE, R114. Setting EN of a render pipe checks the bank and nozzle table, and takes the pipe to IDLE or leaves it DISABLED with CFG_ERR. -/
  | pipeEnable (dt : Nat) (who : Requester) (n : Fin 8)
  /-- PIPE_DISABLE, R114. Clearing EN drops the uncommitted lines and takes a rendering pipe to DRAINING. -/
  | pipeDisable (dt : Nat) (who : Requester) (n : Fin 8)
  /-- THRESHOLD_STORE_WRITE, R108. A high-word write of RP_TS_DATA writes a threshold cell, unless it is in an active array, and advances ADDR. -/
  | thresholdStoreWrite (dt : Nat) (who : Requester) (hi : Word)
  /-- THRESHOLD_STORE_READ, R108. A read of RP_TS_DATA returns the cell, corrected or flagged UNCORR, and advances ADDR. -/
  | thresholdStoreRead (dt : Nat) (who : Requester)
  /-- SLACK_RST, R120. A write of SLACK_RST sets MIN_SLACK to 0xFFFF_FFFF. -/
  | slackRst (dt : Nat) (who : Requester) (n : Fin 8)
  /-- NT_INIT, R123. A write of INIT = 1 starts re-initialisation of the nozzle table, unless a pipe is enabled. -/
  | ntInit (dt : Nat) (who : Requester)
  /-- NT_INIT_DONE, R123. The initialisation pass ends, INIT_DONE is set and the held writes are applied. -/
  | ntInitDone (dt : Nat)
  /-- NT_WINDOW_WRITE, R25. A 64-bit write, or 32-bit pair, to the nozzle table window submits a write to the update port. -/
  | ntWindowWrite (dt : Nat) (who : Requester) (idx : Fin 524288) (w : WinWrite)
  /-- NT_WINDOW_READ, R126. A read of the nozzle table window returns the entry, or sets UNCORR and logs cause 0x016 for an uncorrectable entry. -/
  | ntWindowRead (dt : Nat) (who : Requester) (idx : Fin 524288) (w : WinRead)
  /-- NT_RMW_UPDATE, R125. A high-word write of RP_NT_RMWi DATA applies a masked update atomically and stores the old entry in RESULT. -/
  | ntRmwUpdate (dt : Nat) (who : Requester) (i : Fin 4) (hi : Word)
  /-- UPDATE_PORT_APPLY, R124. The nozzle table update port applies one queued write per PIX cycle in writer order. -/
  | updatePortApply (dt : Nat)
  /-- SCRUB_VISIT, R126. Every 256 PIX cycles the scrubber reads the next entry and corrects a single-bit error in place. -/
  | scrubVisit (dt : Nat)
  /-- OVERSPEED_RECORD, R139. Under policy 0, a run of skipped lines ends after 64 clean lines or at 4,096 lines and is issued as an OVERSPEED record. -/
  | overspeedRecord (dt : Nat) (bar : Fin 8)
  /-- INHIBIT_END, R140. WCO reaching RES_WCO ends the inhibit, issues the OVERSPEED record and raises event 50. -/
  | inhibitEnd (dt : Nat)
  /-- OVERSPEED_POLICY_WRITE, R141. A write to FTU_OVS_CTRL.POLICY ends or starts an inhibit at once, as the overspeed state requires. -/
  | overspeedPolicyWrite (dt : Nat) (who : Requester) (inhibit : Bool)
  /-- PACKED_DATA_ARRIVAL, R156. A head's packed data for a line arrives at the FTU and takes a line-store slot. -/
  | packedDataArrival (dt : Nat) (x : Fin 128)
  /-- HEAD_LINE_SEND, R155. Once earlier lines are resolved, the FTU sends a head's next line as DOT fragments. -/
  | headLineSend (dt : Nat) (x : Fin 128)
  /-- LATCH_ACK_RECEIVE, R154. A latch acknowledge from the bridge resolves or latches the head's outstanding line. -/
  | latchAckReceive (dt : Nat) (x : Fin 128) (status : Fin 8) (line : Word)
  /-- STROBE_DECISION, R160. At S minus 8 ns, the FTU checks the strobe conditions in order and decides whether the head fires line k. -/
  | strobeDecision (dt : Nat) (x : Fin 128)
  /-- STROBE_START, R160. The strobe of a head rises at S, and LAST_STROBE and LAST_LINE are stamped. -/
  | strobeStart (dt : Nat) (x : Fin 128)
  /-- STROBE_END, R163. After WIDTH units the strobe falls, and the head returns to IDLE. -/
  | strobeEnd (dt : Nat) (x : Fin 128)
  /-- ACK_TIMEOUT, R161. No acknowledge within 64 µs of the last fragment logs cause 0x024 and takes the head to IDLE. -/
  | ackTimeout (dt : Nat) (x : Fin 128)
  /-- FLAG_FALL, R165. A strobe pad that is high for WDG_LIMIT FLG cycles is cut to idle, and the head is fenced. -/
  | flagFall (dt : Nat) (x : Fin 128) (stuck : Bool)
  /-- FLG_STOPPED, R165. 256 TMP cycles without an FLG edge fence every head and clear FLG_OK. -/
  | flgStopped (dt : Nat)
  /-- FLG_RESUME, R165. A write of FLG_RESUME lifts the FLG fence once FLG edges are seen. -/
  | flgResume (dt : Nat) (who : Requester) (edges : Bool)
  /-- FLAG_FALL_CLEAR, R166. A W1C write to FLAG_FALL clears it, unless the watchdog still senses the pad high. -/
  | flagFallClear (dt : Nat) (who : Requester) (x : Fin 128) (high : Bool)
  /-- HEAD_ENABLE, R167. Enabling a head with its link up writes the bridge's HB_HEADh_CFG and takes the head to IDLE. -/
  | headEnable (dt : Nat) (who : Requester) (x : Fin 128)
  /-- HEAD_DISABLE, R163. Clearing EN of a head, or loss of its link, takes the head to DISABLED after any strobe in progress. -/
  | headDisable (dt : Nat) (why : HeadOff) (x : Fin 128)
  /-- CIC_OUTPUT, R177. At every R-th captured bit, a CIC channel forms, scales, stamps and keeps or discards an output. -/
  | cicOutput (dt : Nat) (c : Fin 16) (bits : SdBits)
  /-- CHANNEL_RESTART, R180. A restarting configuration write clears the CIC filter at the next capture edge and starts the settle. -/
  | channelRestart (dt : Nat) (c : Fin 16)
  /-- SCAN_ARM, R183. A write of ARM = 1 to a scan slot checks the fields, copies the nozzle list and enters ARMED, or refuses with cause 0x002. -/
  | scanArm (dt : Nat) (who : Requester) (slot : Fin 8)
  /-- SCAN_ABORT, R192. A write of ABORT returns the scan slot to IDLE at once and discards its pending windows. -/
  | scanAbort (dt : Nat) (who : Requester) (slot : Fin 8)
  /-- RESULT_RECORD_WRITE, R191. After the table update is applied, the DGU writes the result record and advances DGU_RES_PROD. -/
  | resultRecordWrite (dt : Nat)
  /-- HB_CHAIN_ENABLE, R197. Enabling a half-band chain checks the line-buffer size and input width. -/
  | hbChainEnable (dt : Nat) (who : Requester) (i : Fin 4)
  /-- CIN_PORT_ENABLE, R220. Enabling a CIN port checks its configuration and takes it to LINKING, or leaves it DISABLED with CFG_ERR. -/
  | cinPortEnable (dt : Nat) (who : Requester) (n : Fin 16)
  /-- CIN_PORT_DISABLE, R220. Clearing EN takes a running port to DRAINING. -/
  | cinPortDisable (dt : Nat) (who : Requester) (n : Fin 16)
  /-- CAMERA_PACKET_RECEIVE, R211. A camera packet arrives and is assembled into its line, or handled as META, EXP_ACK or TELEMETRY, or discarded. -/
  | cameraPacketReceive (dt : Nat) (n : Fin 16) (pkt : CamPacket)
  /-- EXP_COMMIT, R215. A write of EXP_COMMIT copies the shadow exposure into a pending set, picks its target strip and sends the EXPOSURE packet. -/
  | expCommit (dt : Nat) (who : Requester) (n : Fin 16)
  /-- TELEMETRY_SILENT, R219. 1 s without TELEMETRY in RUNNING sets TEL_ALARM and logs cause 0x023. -/
  | telemetrySilent (dt : Nat) (n : Fin 16)
  /-- IPL_ENABLE, R262. Enabling the IPL checks the slots, the delay store and the bank, and requires the RRU to be enabled. -/
  | iplEnable (dt : Nat) (who : Requester)
  /-- IPL_DISABLE, R262. Clearing EN of the IPL takes it to DRAINING. -/
  | iplDisable (dt : Nat) (who : Requester)
  /-- RRU_ENABLE, R262. Enabling the RRU checks its bank and takes it to RUNNING. -/
  | rruEnable (dt : Nat) (who : Requester)
  /-- RRU_DISABLE, R262. Clearing EN of the RRU drains it, unless the IPL is not DISABLED, in which case the write is discarded with CFG_ERR. -/
  | rruDisable (dt : Nat) (who : Requester)
  /-- STITCHED_LINE_FORM, R238. Once each slot holds or can no longer receive its port line, the IPL forms stitched line k and runs stages 4 to 9 on it. -/
  | stitchedLineForm (dt : Nat)
  /-- REFERENCE_LINE_START, R240. The RRU starts reference line k at the later of its launch and a free buffer place. -/
  | referenceLineStart (dt : Nat)
  /-- REFERENCE_LINE_COMPLETE, R240. The RRU completes a reference line and updates RRU_LINE. -/
  | referenceLineComplete (dt : Nat)
  /-- IPL_TABLE_ACCESS, R269. A read or write of IPL_TBL DATA accesses the selected table entry and advances ADDR. -/
  | iplTableAccess (dt : Nat) (who : Requester) (data : Option Word)
  /-- DFQ_ADMIT, R278. The DFQ admits a producer's packet, assigns DEFECT_ID, and evicts or loses a packet if needed. -/
  | dfqAdmit (dt : Nat)
  /-- DFQ_RECORD_TAKE, R281. A read of word 0 of DFQ_RD takes the next record into the requester's latch. -/
  | dfqRecordTake (dt : Nat) (who : Requester)
  /-- DROP_REST, R282. A write of DROP_REST discards the rest of the requester's current packet. -/
  | dropRest (dt : Nat) (who : Requester)
  /-- FLUSH, R292. A write of FLUSH discards every stored record that is not being taken. -/
  | flush (dt : Nat) (who : Requester)
  /-- PUSH_COMMIT, R283. A write of COMMIT adds the staged record to the requester's packet and offers it at the last commit, or refuses a bad order. -/
  | pushCommit (dt : Nat) (who : Requester)
  /-- DRAIN_PACKET_WRITE, R284. The drain takes a packet of at least MIN_SEV when the ring has room, writes it and advances PROD. -/
  | drainPacketWrite (dt : Nat)
  /-- FAB_GO, R303. A write of GO in IDLE starts a fabric image load, or refuses bad BASE or LEN. -/
  | fabGo (dt : Nat) (who : Requester)
  /-- VERIFY_PASS_END, R304. The verify pass ends with all records checked, or at the first failure. -/
  | verifyPassEnd (dt : Nat)
  /-- APPLY_PASS_END, R305. The apply pass ends once every memory write is acknowledged, and the FAB enters LOADED or IDLE. -/
  | applyPassEnd (dt : Nat)
  /-- FAB_ABORT, R316. A write of ABORT ends the FAB's current activity as its state table states. -/
  | fabAbort (dt : Nat) (who : Requester)
  /-- FAB_ARM, R308. A write of ARM in LOADED, or auto-arm, starts the arm checks of a splice. -/
  | fabArm (dt : Nat) (who : Requester)
  /-- ARM_CHECK_END, R308. The arm checks end and the FAB enters ARMED, or stays LOADED with cause 0x003. -/
  | armCheckEnd (dt : Nat)
  /-- SPLICE_WCO_WRITE, R308. A write of FAB_SPLICE_WCO makes it valid, or is discarded while locked. -/
  | spliceWcoWrite (dt : Nat) (who : Requester) (hi : Word)
  /-- STATION_SWITCH, R307. A station reaches its switching line or WCO, flips its bank and starts its commit-queue writes. -/
  | stationSwitch (dt : Nat) (st : Fin 10)
  /-- COMMIT_QUEUE_WRITE, R307. A station's queued register write lands after its switch. -/
  | commitQueueWrite (dt : Nat)
  /-- FAB_REARM, R311. A write of REARM in SPLICING arms the missed stations under the arm checks. -/
  | fabRearm (dt : Nat) (who : Requester)
  /-- TWIN_SPLICE_DECISION, R313. WCO reaching D makes the active twin send GO or NO_GO for the splice. -/
  | twinSpliceDecision (dt : Nat)
  /-- TWIN_SPLICE_MESSAGE, R313. A SPLICE REPORT, GO or NO_GO message from the partner is taken. -/
  | twinSpliceMessage (dt : Nat) (msg : SpliceMsg) (tagOk : Bool)
  /-- ADD, R335. Engine instruction ADD. -/
  | engAdd (dt : Nat) (e : Fin 192)
  /-- SUB, R335. Engine instruction SUB. -/
  | engSub (dt : Nat) (e : Fin 192)
  /-- AND, R335. Engine instruction AND. -/
  | engAnd (dt : Nat) (e : Fin 192)
  /-- OR, R335. Engine instruction OR. -/
  | engOr (dt : Nat) (e : Fin 192)
  /-- XOR, R335. Engine instruction XOR. -/
  | engXor (dt : Nat) (e : Fin 192)
  /-- SLL, R335. Engine instruction SLL, a logical left shift. -/
  | engSll (dt : Nat) (e : Fin 192)
  /-- SRL, R335. Engine instruction SRL, a logical right shift. -/
  | engSrl (dt : Nat) (e : Fin 192)
  /-- SRA, R335. Engine instruction SRA, an arithmetic right shift. -/
  | engSra (dt : Nat) (e : Fin 192)
  /-- SLT, R335. Engine instruction SLT, a signed set-less-than. -/
  | engSlt (dt : Nat) (e : Fin 192)
  /-- SLTU, R335. Engine instruction SLTU, an unsigned set-less-than. -/
  | engSltu (dt : Nat) (e : Fin 192)
  /-- MIN, R335. Engine instruction MIN, a signed minimum. -/
  | engMin (dt : Nat) (e : Fin 192)
  /-- MAX, R335. Engine instruction MAX, a signed maximum. -/
  | engMax (dt : Nat) (e : Fin 192)
  /-- POPC, R335. Engine instruction POPC, a population count. -/
  | engPopc (dt : Nat) (e : Fin 192)
  /-- MUL, R335. Engine instruction MUL, the low 64 bits of a product. -/
  | engMul (dt : Nat) (e : Fin 192)
  /-- DIV, R335. Engine instruction DIV, a signed division. -/
  | engDiv (dt : Nat) (e : Fin 192)
  /-- DIVU, R335. Engine instruction DIVU, an unsigned division. -/
  | engDivu (dt : Nat) (e : Fin 192)
  /-- REM, R335. Engine instruction REM, a signed remainder. -/
  | engRem (dt : Nat) (e : Fin 192)
  /-- REMU, R335. Engine instruction REMU, an unsigned remainder. -/
  | engRemu (dt : Nat) (e : Fin 192)
  /-- ADDI, R335. Engine instruction ADDI, an add with a sign-extended immediate. -/
  | engAddi (dt : Nat) (e : Fin 192)
  /-- ANDI, R335. Engine instruction ANDI, an AND with a zero-extended immediate. -/
  | engAndi (dt : Nat) (e : Fin 192)
  /-- ORI, R335. Engine instruction ORI, an OR with a zero-extended immediate. -/
  | engOri (dt : Nat) (e : Fin 192)
  /-- SLLI, R335. Engine instruction SLLI, an immediate left shift. -/
  | engSlli (dt : Nat) (e : Fin 192)
  /-- SRLI, R335. Engine instruction SRLI, an immediate logical right shift. -/
  | engSrli (dt : Nat) (e : Fin 192)
  /-- SRAI, R335. Engine instruction SRAI, an immediate arithmetic right shift. -/
  | engSrai (dt : Nat) (e : Fin 192)
  /-- INS16, R335. Engine instruction INS16, which inserts 16 immediate bits into a halfword of a register. -/
  | engIns16 (dt : Nat) (e : Fin 192)
  /-- EXT, R335. Engine instruction EXT, which extracts a bit field. -/
  | engExt (dt : Nat) (e : Fin 192)
  /-- LDB, R335. Engine instruction LDB, a byte load. -/
  | engLdb (dt : Nat) (e : Fin 192)
  /-- LDH, R335. Engine instruction LDH, a halfword load. -/
  | engLdh (dt : Nat) (e : Fin 192)
  /-- LDW, R335. Engine instruction LDW, a word load, including BAR0 reads. -/
  | engLdw (dt : Nat) (e : Fin 192)
  /-- LDD, R335. Engine instruction LDD, a doubleword load. -/
  | engLdd (dt : Nat) (e : Fin 192)
  /-- STB, R335. Engine instruction STB, a byte store. -/
  | engStb (dt : Nat) (e : Fin 192)
  /-- STH, R335. Engine instruction STH, a halfword store. -/
  | engSth (dt : Nat) (e : Fin 192)
  /-- STW, R335. Engine instruction STW, a word store, including BAR0 writes. -/
  | engStw (dt : Nat) (e : Fin 192)
  /-- STD, R335. Engine instruction STD, a doubleword store. -/
  | engStd (dt : Nat) (e : Fin 192)
  /-- AMOADD, R335. Engine instruction AMOADD, an atomic add. -/
  | engAmoadd (dt : Nat) (e : Fin 192)
  /-- CAS, R335. Engine instruction CAS, an atomic compare-and-swap. -/
  | engCas (dt : Nat) (e : Fin 192)
  /-- BEQ, R335. Engine instruction BEQ, a branch if equal. -/
  | engBeq (dt : Nat) (e : Fin 192)
  /-- BNE, R335. Engine instruction BNE, a branch if not equal. -/
  | engBne (dt : Nat) (e : Fin 192)
  /-- BLT, R335. Engine instruction BLT, a branch if less, signed. -/
  | engBlt (dt : Nat) (e : Fin 192)
  /-- BGE, R335. Engine instruction BGE, a branch if greater or equal, signed. -/
  | engBge (dt : Nat) (e : Fin 192)
  /-- BLTU, R335. Engine instruction BLTU, a branch if less, unsigned. -/
  | engBltu (dt : Nat) (e : Fin 192)
  /-- BGEU, R335. Engine instruction BGEU, a branch if greater or equal, unsigned. -/
  | engBgeu (dt : Nat) (e : Fin 192)
  /-- J, R335. Engine instruction J, a relative jump. -/
  | engJ (dt : Nat) (e : Fin 192)
  /-- JAL, R335. Engine instruction JAL, a jump that links in s30. -/
  | engJal (dt : Nat) (e : Fin 192)
  /-- JALR, R335. Engine instruction JALR, a register jump that links. -/
  | engJalr (dt : Nat) (e : Fin 192)
  /-- FENCE, R327. Engine instruction FENCE, which stalls until every earlier access is acknowledged. -/
  | engFence (dt : Nat) (e : Fin 192)
  /-- ISYNC, R335. Engine instruction ISYNC, which discards instructions already fetched behind it. -/
  | engIsync (dt : Nat) (e : Fin 192)
  /-- WAIT, R337. Engine instruction WAIT, which ends at once or enters WAITING for pending bits or a deadline. -/
  | engWait (dt : Nat) (e : Fin 192)
  /-- WAIT_END, R337. A waiting engine's condition holds, writes s[d], clears the pending bits and resumes RUNNING. -/
  | engWaitEnd (dt : Nat) (e : Fin 192)
  /-- SIGNAL, R337. Engine instruction SIGNAL, which raises ENG event imm8. -/
  | engSignal (dt : Nat) (e : Fin 192)
  /-- RDSYS, R335. Engine instruction RDSYS, which reads a system value by selector. -/
  | engRdsys (dt : Nat) (e : Fin 192)
  /-- HALT, R340. Engine instruction HALT, which enters HALTED with HALT_CODE and raises event 49. -/
  | engHalt (dt : Nat) (e : Fin 192)
  /-- DC_CLEAN, R328. Engine instruction DC.CLEAN, which starts write-back of a line's dirty bytes. -/
  | engDcClean (dt : Nat) (e : Fin 192)
  /-- DC_INV, R328. Engine instruction DC.INV, which discards a data cache line. -/
  | engDcInv (dt : Nat) (e : Fin 192)
  /-- DC_CINV, R328. Engine instruction DC.CINV, which cleans and then discards a line. -/
  | engDcCinv (dt : Nat) (e : Fin 192)
  /-- DC_CLEANALL, R328. Engine instruction DC.CLEANALL, which starts write-back of every dirty line. -/
  | engDcCleanall (dt : Nat) (e : Fin 192)
  /-- IC_INVALL, R328. Engine instruction IC.INVALL, which discards the instruction cache. -/
  | engIcInvall (dt : Nat) (e : Fin 192)
  /-- VADD, R335. Engine instruction VADD, an element-wise add. -/
  | engVadd (dt : Nat) (e : Fin 192)
  /-- VSUB, R335. Engine instruction VSUB, an element-wise subtract. -/
  | engVsub (dt : Nat) (e : Fin 192)
  /-- VMUL, R335. Engine instruction VMUL, an element-wise multiply. -/
  | engVmul (dt : Nat) (e : Fin 192)
  /-- VMIN, R335. Engine instruction VMIN, an element-wise minimum. -/
  | engVmin (dt : Nat) (e : Fin 192)
  /-- VMAX, R335. Engine instruction VMAX, an element-wise maximum. -/
  | engVmax (dt : Nat) (e : Fin 192)
  /-- VAND, R335. Engine instruction VAND, a bitwise AND of vectors. -/
  | engVand (dt : Nat) (e : Fin 192)
  /-- VOR, R335. Engine instruction VOR, a bitwise OR of vectors. -/
  | engVor (dt : Nat) (e : Fin 192)
  /-- VSHL, R335. Engine instruction VSHL, an element-wise left shift. -/
  | engVshl (dt : Nat) (e : Fin 192)
  /-- VSHR, R335. Engine instruction VSHR, an element-wise right shift. -/
  | engVshr (dt : Nat) (e : Fin 192)
  /-- VABSD, R335. Engine instruction VABSD, an element-wise absolute difference. -/
  | engVabsd (dt : Nat) (e : Fin 192)
  /-- VCMPEQ, R335. Engine instruction VCMPEQ, which writes an equality predicate. -/
  | engVcmpeq (dt : Nat) (e : Fin 192)
  /-- VCMPLT, R335. Engine instruction VCMPLT, which writes a less-than predicate. -/
  | engVcmplt (dt : Nat) (e : Fin 192)
  /-- VSEL, R335. Engine instruction VSEL, a predicated select. -/
  | engVsel (dt : Nat) (e : Fin 192)
  /-- VREDADD, R335. Engine instruction VREDADD, which sums active elements into a scalar. -/
  | engVredadd (dt : Nat) (e : Fin 192)
  /-- VBCAST, R335. Engine instruction VBCAST, which broadcasts a scalar to the active elements. -/
  | engVbcast (dt : Nat) (e : Fin 192)
  /-- VEXTR, R335. Engine instruction VEXTR, which extracts one element to a scalar. -/
  | engVextr (dt : Nat) (e : Fin 192)
  /-- PAND, R335. Engine instruction PAND, an AND of predicates. -/
  | engPand (dt : Nat) (e : Fin 192)
  /-- PNOT, R335. Engine instruction PNOT, a NOT of a predicate. -/
  | engPnot (dt : Nat) (e : Fin 192)
  /-- VLD, R335. Engine instruction VLD, a predicated 64-byte vector load. -/
  | engVld (dt : Nat) (e : Fin 192)
  /-- VST, R335. Engine instruction VST, a predicated 64-byte vector store. -/
  | engVst (dt : Nat) (e : Fin 192)
  /-- ILLEGAL, R334. An unlisted opcode, func, nonzero reserved field or invalid selector takes the ILLEGAL fault. -/
  | engIllegal (dt : Nat) (e : Fin 192)
  /-- ENG_START, R340. A write of 1 to ENG_STARTw starts each named engine at ENGe_PC, or is refused with cause 0x001. -/
  | engStart (dt : Nat) (who : Requester) (w : Fin 6) (v : Word)
  /-- ENG_STOP, R340. A write of 1 to ENG_STOPw asks each named engine to stop. -/
  | engStop (dt : Nat) (who : Requester) (w : Fin 6) (v : Word)
  /-- STOP_COMPLETE, R340. A stopping engine enters HALTED once its issued instructions have completed. -/
  | stopComplete (dt : Nat) (e : Fin 192)
  /-- ENG_OFF, R340. A write of 1 to ENG_OFFw starts turning each named engine off. -/
  | engOff (dt : Nat) (who : Requester) (w : Fin 6) (v : Word)
  /-- OFF_COMPLETE, R340. An engine enters OFF once its dirty lines are written back and its caches invalidated. -/
  | offComplete (dt : Nat) (e : Fin 192)
  /-- ENG_INIT_DONE, R341. The reset zeroing of local and cluster memory ends and INIT_DONE is set. -/
  | engInitDone (dt : Nat)
  /-- EVF_EVENT_DELIVERY, R355. An event presented at a source is delivered by every active channel that names it to all its tasks in one TMP cycle. -/
  | evfEventDelivery (dt : Nat)
  /-- EVF_TIMER_EXPIRE, R358. A timer's DELAY elapses, and the timer presents its source, clears RUNNING and counts FIRES. -/
  | evfTimerExpire (dt : Nat) (t : Fin 32)
  /-- EVF_PENDING_WRITE, R350. A write to a pending channel entry sets its permitted fields and the DIRTY bit. -/
  | evfPendingWrite (dt : Nat) (who : Requester) (n : Fin 512) (word : Fin 5) (value : Word)
  /-- EVF_COMMIT, R351. A write of EVF_COMMIT starts the commit check of the writer's DIRTY entries, or is refused while busy. -/
  | evfCommit (dt : Nat) (who : Requester)
  /-- COMMIT_CHECK_END, R351. The commit check ends, and either swaps the entries into the active set or rejects them. -/
  | commitCheckEnd (dt : Nat)
  /-- DMA_DOORBELL, R378. A DOORBELL write or doorbell task trigger starts an IDLE channel or sets DB_PEND. -/
  | dmaDoorbell (dt : Nat) (trig : Trigger) (c : Fin 32)
  /-- DMA_MOVE, R368. DMA instruction MOVE, which copies LEN bytes in 64-byte blocks. -/
  | dmaMove (dt : Nat) (c : Fin 32) (f : Fetches)
  /-- DMA_MOVE_COMPLETE, R374. All blocks of a MOVE are written, and each ring in use advances PTR by LEN. -/
  | dmaMoveComplete (dt : Nat) (c : Fin 32) (host : Bytes)
  /-- DMA_LOOP, R369. DMA instruction LOOP, which repeats the preceding words by its counter. -/
  | dmaLoop (dt : Nat) (c : Fin 32) (f : Fetches)
  /-- DMA_WAIT, R370. DMA instruction WAIT, which waits for an event or a Tempo deadline by MODE. -/
  | dmaWait (dt : Nat) (c : Fin 32) (f : Fetches)
  /-- DMA_WAIT_END, R370. A DMA WAIT ends on its event or deadline, or halts on a MODE 0 timeout. -/
  | dmaWaitEnd (dt : Nat) (c : Fin 32)
  /-- DMA_SIGNAL, R371. DMA instruction SIGNAL, which waits until earlier writes are acknowledged. -/
  | dmaSignal (dt : Nat) (c : Fin 32) (f : Fetches)
  /-- SIGNAL_PUBLISH, R371. Once earlier writes are acknowledged, the channel publishes the ring PTR and raises its event, or halts on a refused publish. -/
  | signalPublish (dt : Nat) (c : Fin 32)
  /-- DMA_JUMP, R372. DMA instruction JUMP, which continues at TARGET. -/
  | dmaJump (dt : Nat) (c : Fin 32) (f : Fetches)
  /-- DMA_END, R378. DMA instruction END, which fetches again if DB_PEND is set, and otherwise parks in END_WAIT. -/
  | dmaEnd (dt : Nat) (c : Fin 32) (f : Fetches)
  /-- DMA_ILLEGAL, R367. An illegal opcode or invalid field halts the channel with cause 0x002. -/
  | dmaIllegal (dt : Nat) (c : Fin 32) (f : Fetches)
  /-- DMA_BUS_ERROR, R376. A failed read or refused write halts the channel and latches ERR_ADDR, ERR_INFO and ERR_DONE. -/
  | dmaBusError (dt : Nat) (c : Fin 32) (blk : BitVec 26) (kind : Fin 4) (host : Bytes)
  /-- DMA_STOP, R385. A write of STOP takes the channel to STOPPING. -/
  | dmaStop (dt : Nat) (who : Requester) (c : Fin 32) (host : Bytes)
  /-- DMA_RESUME, R377. A write of RESUME in HALTED reruns the halted instruction. -/
  | dmaResume (dt : Nat) (who : Requester) (c : Fin 32)
  /-- DMA_SKIP, R377. A write of SKIP in HALTED treats the halted instruction as complete and continues. -/
  | dmaSkip (dt : Nat) (who : Requester) (c : Fin 32)
  /-- DMA_STOP_COMPLETE, R385. A STOPPING channel returns to IDLE once its requests are done, and raises event 33. -/
  | dmaStopComplete (dt : Nat) (c : Fin 32)
  /-- MEM_OPEN, R399. A write of OPEN opens memory to the ports, or is refused for a bad channel map. -/
  | memOpen (dt : Nat) (who : Requester)
  /-- SLOT_SWAP, R410. A write of SLOT_SWAP requests a swap of the slot table copies and sets SWAP_PEND. -/
  | slotSwap (dt : Nat) (who : Requester)
  /-- SLOT_TABLE_SWAP, R410. At the table wrap after a request, the active copy flips on every channel, and event 16 is raised. -/
  | slotTableSwap (dt : Nat)
  /-- ARBITRATION_SLOT, R411. At each slot, the channel ingress grants the slot owner, a running grant or the highest-priority requester. -/
  | arbitrationSlot (dt : Nat) (n : Fin 16) (inp : SlotInput)
  /-- GRANT_FLAG_FALL, R412. A grant idle for HOLD_LIMIT FLG cycles is cut, sets HOLD_CUT and logs cause 0x021. -/
  | grantFlagFall (dt : Nat) (n : Fin 16)
  /-- MEMORY_READ, R396. A read request is served from DRAM, with its ECC checked and corrected or poisoned. -/
  | memoryRead (dt : Nat) (port : Fin 28) (blk : BitVec 32) (q : RowQueue)
  /-- MEMORY_WRITE, R397. A write request stores data and check bits, with read-modify-write for partial blocks. -/
  | memoryWrite (dt : Nat) (port : Fin 28) (blk : BitVec 32) (data : BlockData) (poison : Bool) (q : RowQueue)
  /-- ROW_CLOSE, R400. A row kept open with no access for OPEN_MAX cycles is closed. -/
  | rowClose (dt : Nat) (n : Fin 16) (bank : Fin 32)
  /-- REFRESH, R402. The controller issues per-bank refresh to meet the refresh window. -/
  | refresh (dt : Nat) (n : Fin 16) (bank : Fin 32)
  /-- REFRESH_WINDOW_END, R403. At the end of each refresh window, every activate count clears. -/
  | refreshWindowEnd (dt : Nat) (n : Fin 16)
  /-- SELF_REFRESH_ENTRY, R402. A channel idle for MEM_SR.IDLE cycles enters self-refresh. -/
  | selfRefreshEntry (dt : Nat) (n : Fin 16)
  /-- TRACKING_WINDOW, R404. Every TRACK_PERIOD a READY channel measures its drift, adjusts its delays and may start a retrain. -/
  | trackingWindow (dt : Nat) (n : Fin 16) (drift : BitVec 8)
  /-- RETRAIN, R404. A write of MCn_CTRL.RETRAIN starts a retrain, or full training from FENCED. -/
  | retrain (dt : Nat) (who : Requester) (n : Fin 16)
  /-- RETRAIN_STEP, R404. One retrain step closes the channel for at most 250 ns, and the last step sets the new setting or fails. -/
  | retrainStep (dt : Nat) (n : Fin 16) (found : Option TrainEyes)
  /-- CHANNEL_FENCE, R407. A write of MCn_CTRL.FENCE fences the channel and logs cause 0x041. -/
  | channelFence (dt : Nat) (who : Requester) (n : Fin 16)
  /-- BOOT_TRAINING_END, R404. Boot training ends with every channel READY or FENCED, and INIT_DONE is set. -/
  | bootTrainingEnd (dt : Nat) (found : TrainResults)
  /-- MEMORY_ZEROING_END, R578. The boot zeroing of every channel of the map ends. -/
  | memoryZeroingEnd (dt : Nat)
  /-- FVL_PORT_ENABLE, R428. Setting EN of a Fuvor port starts bring-up at rate code 0. -/
  | fvlPortEnable (dt : Nat) (who : Requester) (p : Fin 53) (v : Word)
  /-- FVL_PORT_DISABLE, R428. Clearing EN takes the port to DOWN after 4 EIOS. -/
  | fvlPortDisable (dt : Nat) (who : Requester) (p : Fin 53) (v : Word)
  /-- FVL_CLOCK_DONE, R428. After 10 µs of clock or idle lanes, the port enters TRAIN. -/
  | fvlClockDone (dt : Nat) (p : Fin 53)
  /-- TS1_RECEIVE, R429. A received TS1 advances lane lock, polarity, order and width training. -/
  | ts1Receive (dt : Nat) (p : Fin 53) (lane : Fin 8) (head : BitVec 2) (os : List Byte)
  /-- TS2_RECEIVE, R431. A received TS2 advances configuration, endpoint learning and the rate negotiation. -/
  | ts2Receive (dt : Nat) (p : Fin 53) (os : List Byte)
  /-- FVL_TRAIN_TIMEOUT, R428. 1 ms in TRAIN without lane 0 locked takes the port DOWN with cause 0x040. -/
  | fvlTrainTimeout (dt : Nat) (p : Fin 53)
  /-- FVL_CONFIG_TIMEOUT, R428. 100 µs in CONFIG without completion takes the port DOWN. -/
  | fvlConfigTimeout (dt : Nat) (p : Fin 53)
  /-- FVL_RATE_ROUND_TIMEOUT, R430. A rate step not completed within 200 µs returns to the previous rate and drops the failed rate. -/
  | fvlRateRoundTimeout (dt : Nat) (p : Fin 53)
  /-- FVL_RETRAIN, R433. A write of RETRAIN, or a retrain trigger, takes an ACTIVE port to RETRAIN. -/
  | fvlRetrain (dt : Nat) (who : Requester) (p : Fin 53)
  /-- FVL_RETRAIN_TIMEOUT, R433. A retrain that fails within 200 µs steps down one rate, or takes the port DOWN at rate code 0. -/
  | fvlRetrainTimeout (dt : Nat) (p : Fin 53)
  /-- FVL_UPSHIFT, R433. A write of UPSHIFT in ACTIVE runs the rate rounds from the current rate. -/
  | fvlUpshift (dt : Nat) (who : Requester) (p : Fin 53)
  /-- FVL_SLEEP_ENTRY, R434. A transmitter idle for SLEEP_IDLE µs sends EIOS and sleeps. -/
  | fvlSleepEntry (dt : Nat) (p : Fin 53)
  /-- FVL_WAKE, R434. Something to send wakes a sleeping transmitter, which sends WAKE, TS1, TS2 and SDS. -/
  | fvlWake (dt : Nat) (p : Fin 53)
  /-- DATA_FRAME_RECEIVE, R437. A DATA frame is accepted, or discarded with a NAK or ACK, by SEQ and CRC. -/
  | dataFrameReceive (dt : Nat) (p : Fin 53) (frame : RxFrame)
  /-- ACK_RECEIVE, R437. An ACK releases the covered frames from the replay buffer. -/
  | ackReceive (dt : Nat) (p : Fin 53) (seq : BitVec 16)
  /-- NAK_RECEIVE, R437. A NAK releases the covered frames and resends every later frame. -/
  | nakReceive (dt : Nat) (p : Fin 53) (seq : BitVec 16)
  /-- CREDIT_RECEIVE, R438. A CREDIT frame raises the transmitter's limit for its class. -/
  | creditReceive (dt : Nat) (p : Fin 53) (cls : Fin 3) (freed : BitVec 16)
  /-- ACK_DUE, R437. An unacknowledged frame 500 ns old, or 8 accepted frames, makes the receiver send an ACK. -/
  | ackDue (dt : Nat) (p : Fin 53)
  /-- CREDIT_RETURN, R438. Freed credit of 1/8 of the initial credit, or 1 µs after a free, makes the receiver send a CREDIT frame. -/
  | creditReturn (dt : Nat) (p : Fin 53) (cls : Fin 3)
  /-- REPLAY_TIMEOUT, R437. No ACK progress for REPLAY_TIME resends the held frames, or retrains after REPLAY_NUM tries. -/
  | replayTimeout (dt : Nat) (p : Fin 53)
  /-- POSTED_WRITE_RECEIVE, R440. A received POSTED_WRITE is discarded, since partners cannot write device registers. -/
  | postedWriteReceive (dt : Nat) (p : Fin 53) (addr : Word) (vals : List Word)
  /-- READ_RECEIVE, R440. A received READ to endpoint 0 is answered with STATUS 1. -/
  | readReceive (dt : Nat) (p : Fin 53) (src : BitVec 10) (tag : BitVec 8)
  /-- COMPLETION_RECEIVE, R443. A COMPLETION is routed by TAG, and a mailbox READ completes with its data and STATUS. -/
  | completionReceive (dt : Nat) (p : Fin 53) (tag : BitVec 8) (status : Fin 3) (vals : List Word)
  /-- EVENT_RECEIVE, R444. A received EVENT is written to the event ring, or dropped when the ring is full. -/
  | eventReceive (dt : Nat) (p : Fin 53) (src : BitVec 10) (code : BitVec 16)
  /-- TIME_EXCHANGE, R442. At entry to ACTIVE, after a wake and every TIME_PERIOD, the device sends a PING to start a TIME exchange. -/
  | timeExchange (dt : Nat) (p : Fin 53)
  /-- TIME_PONG_RECEIVE, R442. A PONG updates DELAY, and the device sends SET with the corrected Tempo. -/
  | timePongReceive (dt : Nat) (p : Fin 53) (tag : BitVec 8) (turnaround : DWord)
  /-- PONG_TIMEOUT, R442. No PONG within 10 µs leaves DELAY unchanged and logs cause 0x020. -/
  | pongTimeout (dt : Nat) (p : Fin 53)
  /-- MAILBOX_GO, R443. A write of GO sends the mailbox transaction and sets BUSY. -/
  | mailboxGo (dt : Nat) (who : Requester) (v : Word)
  /-- MAILBOX_TIMEOUT, R443. A mailbox READ with no completion in 100 µs completes with STATUS 3. -/
  | mailboxTimeout (dt : Nat)
  /-- PCIE_LINK_UP, R493. The PCIe link enters L0, and the HIF raises event 1. -/
  | pcieLinkUp (dt : Nat) (rate : Fin 5) (width : Fin 9)
  /-- PCIE_LINK_DOWN, R494. The PCIe link is lost in L0, and the HIF logs cause 0x040. -/
  | pcieLinkDown (dt : Nat)
  /-- PCIE_PERST, R533. PCIE_PERST_N resets the PCIe side of the HIF only, and printing continues. -/
  | pciePerst (dt : Nat)
  /-- BAR2_READ, R456. A BAR2 read returns device memory after earlier BAR2 writes, or a poisoned or UR completion. -/
  | bar2Read (dt : Nat) (f : Fin 6) (off : DWord) (len : Fin 4097)
  /-- BAR2_WRITE, R455. A BAR2 write reaches device memory at BAR2_BASE plus its offset, or is discarded beyond DEVMEM_TOP. -/
  | bar2Write (dt : Nat) (f : Fin 6) (off : DWord) (bytes : Bytes)
  /-- GPIO_EDGE, R460. A filtered GPIO level change updates GPIO_IN and, if selected, sets EDGE_STAT and raises event 16 + i. -/
  | gpioEdge (dt : Nat) (i : Fin 32) (level : Bool)
  /-- GPIO_OUT_SET, R460. A write to GPIO_OUT_SET sets bits of GPIO_OUT. -/
  | gpioOutSet (dt : Nat) (who : Requester) (v : Word)
  /-- GPIO_OUT_CLR, R460. A write to GPIO_OUT_CLR clears bits of GPIO_OUT. -/
  | gpioOutClr (dt : Nat) (who : Requester) (v : Word)
  /-- I2C_GO, R462. A write of GO starts an I2C transfer, unless BUSY. -/
  | i2cGo (dt : Nat) (who : Requester)
  /-- I2C_TRANSFER_END, R462. An I2C transfer ends with DONE, or with ERROR on NACK, ARB_LOST or BUS_STUCK. -/
  | i2cTransferEnd (dt : Nat) (outcome : I2cEnd) (rdata : Bytes)
  /-- I2C_STRETCH_TIMEOUT, R461. SCL held low by another device for 25 ms ends the transfer with TIMEOUT. -/
  | i2cStretchTimeout (dt : Nat) (rdata : Bytes)
  /-- ETH_LINK_CHANGE, R493. An Ethernet port's link goes up or down, and event 0 or 1 is raised. -/
  | ethLinkChange (dt : Nat) (n : Fin 2) (up : Bool) (anDone : Bool)
  /-- ETH_FRAME_RECEIVE, R466. A received frame with a good FCS is filtered and sorted to PTP, tile, heartbeat or host ring. -/
  | ethFrameReceive (dt : Nat) (n : Fin 2) (fcsOk : Bool) (bytes : Bytes)
  /-- TX_PROD_WRITE, R469. A write to TXq_PROD submits transmit descriptors. -/
  | txProdWrite (dt : Nat) (who : Requester) (n : Fin 2) (q : Fin 8) (v : Word)
  /-- FRAME_TRANSMIT, R470. An eligible head descriptor is sent, late-handled or dropped, and its STATUS is written. -/
  | frameTransmit (dt : Nat) (n : Fin 2) (q : Fin 8) (host : HostMemory)
  /-- TSQ_TAKE, R472. A read of word 0 of NET_TSQ takes the oldest transmit stamp into the reader's latch. -/
  | tsqTake (dt : Nat) (who : Requester)
  /-- PTP_STEP, R471. A high-word write of NET_PTP_STEP offsets the PTP clock, unless in holdover. -/
  | ptpStep (dt : Nat) (who : Requester) (hi : Word)
  /-- PTP_RATE_WRITE, R471. A write of NET_PTP_RATE sets the clock rate, unless in holdover. -/
  | ptpRateWrite (dt : Nat) (who : Requester) (v : Word)
  /-- SYNC_LOSS_TIMEOUT, R474. No Sync from the master for NET_PTP_LOSS µs enters holdover. -/
  | syncLossTimeout (dt : Nat)
  /-- HOLDOVER_CLEAR, R474. A W1C write to HOLDOVER ends holdover and raises event 5. -/
  | holdoverClear (dt : Nat) (who : Requester)
  /-- MAP_PAIR, R475. Every PERIOD µs the NET publishes a PTP and Tempo pair with RATE and raises event 24. -/
  | mapPair (dt : Nat)
  /-- MAP_SNAP, R496. A write of SNAP latches the mapping pair and RATE for the reader. -/
  | mapSnap (dt : Nat) (who : Requester)
  /-- TWN_ENABLE, R476. Setting EN with port 52 ACTIVE starts pairing. -/
  | twnEnable (dt : Nat) (who : Requester)
  /-- TWN_DISABLE, R476. Clearing EN returns the TWN to SOLO. -/
  | twnDisable (dt : Nat) (who : Requester)
  /-- PAIRING_END, R478. Authentication and role agreement end with ACTIVE or STANDBY, or with SOLO and cause 0x040. -/
  | pairingEnd (dt : Nat) (r : Pairing)
  /-- HEARTBEAT_SEND, R480. Every HB_PERIOD or HB_ETH_PERIOD, the twin sends a heartbeat on that path. -/
  | heartbeatSend (dt : Nat) (eth : Bool)
  /-- HEARTBEAT_RECEIVE, R480. A valid heartbeat refreshes the partner state and the WCO comparison. -/
  | heartbeatReceive (dt : Nat) (eth : Bool) (tagOk : Bool) (hb : Heartbeat)
  /-- HEARTBEAT_PATH_LOST, R480. Loss of one heartbeat path sets HB_LINK_LOST or HB_ETH_LOST. -/
  | heartbeatPathLost (dt : Nat) (eth : Bool)
  /-- PARTNER_LOST, R480. No valid heartbeat on either path for HB_LOSS µs loses the partner, and the standby starts forced castling. -/
  | partnerLost (dt : Nat)
  /-- CASTLING_CLAIMS_DONE, R488. All link claims are acknowledged, the survivor fires, reports DATA_PATH records and enters ACTIVE. -/
  | castlingClaimsDone (dt : Nat)
  /-- SIGNATURE_SEND, R484. The standby sends a head group's signature within 10 µs of the group's last render. -/
  | signatureSend (dt : Nat)
  /-- SIGNATURE_RECEIVE, R484. The active twin compares a standby signature with its own and counts or reports the outcome. -/
  | signatureReceive (dt : Nat) (entries : List SigEntry)
  /-- SIGNATURE_WAIT_TIMEOUT, R484. No standby signature within SIG_WAIT counts SIG_MISSING. -/
  | signatureWaitTimeout (dt : Nat)
  /-- NT_UPDATE_RECEIVE, R481. The standby applies a mirrored nozzle table update through its own port. -/
  | ntUpdateReceive (dt : Nat) (entries : List NtEntry)
  /-- RING_DATA_RECEIVE, R481. The standby writes a mirrored tile record into its own CMP ring and advances PROD. -/
  | ringDataReceive (dt : Nat) (r : Fin 4) (bytes : Bytes)
  /-- DEFECT_MESSAGE_RECEIVE, R482. The active twin offers a forwarded defect packet for admission. -/
  | defectMessageReceive (dt : Nat) (words : List DWord)
  /-- CASTLE, R487. A write of CASTLE on the active twin sends PLAN for a planned castling at W_C. -/
  | castle (dt : Nat) (who : Requester)
  /-- CASTLE_MESSAGE_RECEIVE, R487. A PLAN, ACK or RELEASE message advances the planned castling. -/
  | castleMessageReceive (dt : Nat) (msg : CastleMsg) (tagOk : Bool)
  /-- CASTLE_ACK_TIMEOUT, R487. No ACK within 100 µs refuses the castling with cause 0x030. -/
  | castleAckTimeout (dt : Nat)
  /-- SEC_ENROL, R503. SEC command ENROL fuses an owner key into an empty slot. -/
  | secEnrol (dt : Nat) (who : Requester)
  /-- SEC_REVOKE, R503. SEC command REVOKE withdraws an enrolled key slot. -/
  | secRevoke (dt : Nat) (who : Requester)
  /-- SEC_SECURE_BOOT, R508. SEC command SECURE_BOOT fuses secure boot on. -/
  | secSecureBoot (dt : Nat) (who : Requester)
  /-- SEC_SET_DOMAIN, R511. SEC command SET_DOMAIN loads and checks code and starts a secure management cluster. -/
  | secSetDomain (dt : Nat) (who : Requester)
  /-- SEC_ATTEST, R501. SEC command ATTEST signs the challenge and device state with the identity key. -/
  | secAttest (dt : Nat) (who : Requester)
  /-- SEC_COMMAND_END, R505. A SEC command ends with DONE, or with REFUSED and its cause. -/
  | secCommandEnd (dt : Nat) (fuses : FuseOutcome)
  /-- DOMAIN_LOCK, R510. A write of LOCK = 1 freezes SEC_DOMAIN until a device reset. -/
  | domainLock (dt : Nat) (who : Requester) (v : Word)
  /-- SENSOR_CONVERSION, R513. Every 100 µs each temperature sensor converts, is judged valid and may start a calibration run. -/
  | sensorConversion (dt : Nat) (temps : Temps)
  /-- CAL_RUN, R514. A write of RUN starts a calibration run, or sets PENDING. -/
  | calRun (dt : Nat) (who : Requester)
  /-- CAL_PHASE_END, R515. A calibration phase ends, and the last one applies the strobe codes and requests retrains. -/
  | calPhaseEnd (dt : Nat) (r : CalPhase)
  /-- THERMAL_TRIP, R518. A sensor at 120 °C idles every strobe, drives THERM_TRIP_N low and holds the device in reset. -/
  | thermalTrip (dt : Nat)
  /-- PMU_FREEZE, R521. A write of FREEZE stops or restarts every PMU counter. -/
  | pmuFreeze (dt : Nat) (who : Requester) (on : Bool)
  /-- PMU_CLEAR, R521. A write of CLEAR sets every counter VALUE to 0. -/
  | pmuClear (dt : Nat) (who : Requester)
  /-- BANDWIDTH_WINDOW_END, R524. Each window end copies the byte counts into the results, increments BW_SEQ and raises event 32. -/
  | bandwidthWindowEnd (dt : Nat)
  /-- PWR_GOOD_FALL, R532. PWR_GOOD low holds the device in power-on reset. -/
  | pwrGoodFall (dt : Nat)
  /-- POWER_ON_RESET_END, R532. The power-on reset ends 100 µs after PWR_GOOD is high with REFCLK running. -/
  | powerOnResetEnd (dt : Nat) (powerLost : Bool)
  /-- SYS_RST_N_ASSERT, R532. SYS_RST_N held low for at least 1 µs causes a device reset. -/
  | sysRstNAssert (dt : Nat)
  /-- DEVICE_RESET_END, R532. The device reset ends when SYS_RST_N rises, BOOT_SEL is sampled and the boot sequence starts. -/
  | deviceResetEnd (dt : Nat) (bootSel : Bool)
  /-- BOOT_STEP_END, R534. A boot step ends, and the boot controller starts the next step or ends FAILED. -/
  | bootStepEnd (dt : Nat) (failed : BitVec 32)
  /-- FLASH_IMAGE_READ_END, R538. The copy of an opening image from flash ends, and the FAB starts on it, or the next copy is tried. -/
  | flashImageReadEnd (dt : Nat) (dir : Bytes) (image : Bytes)
  /-- BOOT_GO, R539. A write of SEC_BOOT_CTRL.GO at stage 4 starts the FAB on the host's opening image. -/
  | bootGo (dt : Nat) (who : Requester)
  /-- UART_REQUEST, R540. A complete management UART request is checked, carried out as a BAR0 read or write, and answered. -/
  | uartRequest (dt : Nat) (bytes : Bytes)
  /-- UART_GAP_TIMEOUT, R540. A gap of more than 10 ms between request bytes discards the partial request. -/
  | uartGapTimeout (dt : Nat)
  /-- FVL_DOWN_HOLDOFF_END, R428. A port in DOWN with EN at 1 leaves for CLOCK at rate code 0 once 1 ms has passed since it last left ACTIVE or failed. -/
  | fvlDownHoldoffEnd (dt : Nat) (p : Fin 53)
  /-- RATE_CHANGE_PAUSE_END, R430. After the 1 µs silence of a rate step, the device runs its forwarded clock at the new rate and starts TRAIN and CONFIG again. -/
  | rateChangePauseEnd (dt : Nat) (p : Fin 53)
  /-- SYNC_HEADER_ERROR, R433. A receiving lane that shows an invalid sync header counts it in SYNC_ERRS, and 4 within 64 blocks send an ACTIVE port into RETRAIN. -/
  | syncHeaderError (dt : Nat) (p : Fin 53) (lane : Fin 8)
  /-- ALIGN_RECEIVE, R433. A received ALIGN ordered set keeps the deskew, and one that arrives out of its row sends the port into RETRAIN. -/
  | alignReceive (dt : Nat) (p : Fin 53) (inRow : Bool)
  /-- SDS_RECEIVE, R425. A received SDS seeds the receiver's descrambler per lane and marks the deskew and the start of the data stream. -/
  | sdsReceive (dt : Nat) (p : Fin 53)
  /-- EIOS_RECEIVE, R434. Received EIOS put the receiving direction to sleep and set RX_SLEEP. -/
  | eiosReceive (dt : Nat) (p : Fin 53)
  /-- WAKE_RECEIVE, R434. A received WAKE makes the receiver relock and clear RX_SLEEP, and a direction that cannot relock sends the port into RETRAIN. -/
  | wakeReceive (dt : Nat) (p : Fin 53) (relocks : Bool)
  /-- FENCED_TRAINING_END, R407. Full training run from FENCED ends, and the channel goes to READY with LAST_GOOD set or back to FENCED. -/
  | fencedTrainingEnd (dt : Nat) (n : Fin 16) (found : Option TrainEyes)
  /-- FLASH_READ_TIMEOUT, R538. A flash read of an image copy that does not complete within 10 s fails that copy, and the boot ROM tries copy B or ends FAILED with cause 0x013. -/
  | flashReadTimeout (dt : Nat) (dir : Bytes)
  /-- PMU_COUNTER_WRAP, R521. A PMU counter that wraps at 2^48 sets its bit in PMU_OVF and raises PMU event c. -/
  | pmuCounterWrap (dt : Nat) (c : Fin 32)
  /-- DRAM_HIGH_TEMPERATURE, R402. A die that reports a temperature above 85 °C halves the refresh window to 16 ms, and the window returns to 32 ms when it falls back. -/
  | dramHighTemperature (dt : Nat) (n : Fin 16) (hot : Bool)
  deriving DecidableEq, Repr

end Sys2Proof
end

