-- ==== Sys2Proof/WellFormed.lean ====
section
/-! DEFINITION. Which commands are well formed: the operands whose types are wider than what the manual's messages and
interfaces can carry. Every other operand is bounded by its type. -/

namespace Sys2Proof

/-- A camera packet carries at most 64 words (R204). -/
def camOk (p : CamPacket) : Bool := decide (p.words.length ≤ 64)

/-- A splice report carries a digest of six words (R490). -/
def spliceOk : SpliceMsg → Bool
  | .report _ digest _ _ => digest.length == 6
  | _ => true

/-- A read of host memory answers with a whole block of 64 bytes (R376). -/
def hostOk : HostRead → Bool
  | .data bytes => bytes.length == 64
  | .fail _ => true

def fetchesOk (f : Fetches) : Bool := f.all hostOk

/-- A DATA frame carries 1 to 66 words (R436). -/
def frameOk (f : RxFrame) : Bool := f.words.length != 0 && decide (f.words.length ≤ 66)

/-- A POSTED_WRITE carries 1 to 128 values (R439). -/
def wordsOk (vals : List Word) : Bool := vals.length != 0 && decide (vals.length ≤ 128)

/-- A frame has 64 to 9,600 bytes with its FCS of four (R465). -/
def ethOk (bytes : Bytes) : Bool := decide (60 ≤ bytes.length) && decide (bytes.length ≤ 9596)

/-- A calibration phase reads eight sensors and 128 strobes (R515). -/
def calOk (r : CalPhase) : Bool := r.trims.length == 8 && r.temps.length == 8 && r.codes.length == 128

/-- Whether a command's operands are of a size that the hardware's interfaces can carry. -/
def Instr.wf : Instr → Bool
  | .registerWrite .. => true
  | .subwordWrite .. => true
  | .rcRead .. => true
  | .lowWordRead .. => true
  | .lowWordWrite .. => true
  | .highWordWrite .. => true
  | .logEntryRead .. => true
  | .msixVectorUnmask .. => true
  | .busMasterEnableSet .. => true
  | .functionLevelReset .. => true
  | .flrComplete .. => true
  | .encoderInputEdge .. => true
  | .encoderTransitionAccepted .. => true
  | .standstillTimeout .. => true
  | .stuckLine .. => true
  | .levelTimeout .. => true
  | .wcoLoad .. => true
  | .wcoSourceWrite .. => true
  | .snapshotCapture .. => true
  | .ssiRequest .. => true
  | .ssiTransferDone .. => true
  | .lineLaunch .. => true
  | .lineCommit .. => true
  | .generatorEnable .. => true
  | .generatorDisable .. => true
  | .generatorRestart .. => true
  | .slotArm .. => true
  | .slotFire .. => true
  | .cmpRingEnable .. => true
  | .ringProdWrite .. => true
  | .ringResume .. => true
  | .ringConsWrite .. => true
  | .recordDispatch .. => true
  | .inflateStreamEnd .. => true
  | .planeEnable .. => true
  | .dqProdWrite .. => true
  | .descriptorDispatch .. => true
  | .deflateComplete .. => true
  | .lineRenderStart .. => true
  | .lineRenderEnd .. => true
  | .snapshotRetire .. => true
  | .pipeEnable .. => true
  | .pipeDisable .. => true
  | .thresholdStoreWrite .. => true
  | .thresholdStoreRead .. => true
  | .slackRst .. => true
  | .ntInit .. => true
  | .ntInitDone .. => true
  | .ntWindowWrite .. => true
  | .ntWindowRead .. => true
  | .ntRmwUpdate .. => true
  | .updatePortApply .. => true
  | .scrubVisit .. => true
  | .overspeedRecord .. => true
  | .inhibitEnd .. => true
  | .overspeedPolicyWrite .. => true
  | .packedDataArrival .. => true
  | .headLineSend .. => true
  | .latchAckReceive .. => true
  | .strobeDecision .. => true
  | .strobeStart .. => true
  | .strobeEnd .. => true
  | .ackTimeout .. => true
  | .flagFall .. => true
  | .flgStopped .. => true
  | .flgResume .. => true
  | .flagFallClear .. => true
  | .headEnable .. => true
  | .headDisable .. => true
  | .cicOutput .. => true
  | .channelRestart .. => true
  | .scanArm .. => true
  | .scanAbort .. => true
  | .resultRecordWrite .. => true
  | .hbChainEnable .. => true
  | .cinPortEnable .. => true
  | .cinPortDisable .. => true
  | .cameraPacketReceive _ _ pkt => camOk pkt
  | .expCommit .. => true
  | .telemetrySilent .. => true
  | .iplEnable .. => true
  | .iplDisable .. => true
  | .rruEnable .. => true
  | .rruDisable .. => true
  | .stitchedLineForm .. => true
  | .referenceLineStart .. => true
  | .referenceLineComplete .. => true
  | .iplTableAccess .. => true
  | .dfqAdmit .. => true
  | .dfqRecordTake .. => true
  | .dropRest .. => true
  | .flush .. => true
  | .pushCommit .. => true
  | .drainPacketWrite .. => true
  | .fabGo .. => true
  | .verifyPassEnd .. => true
  | .applyPassEnd .. => true
  | .fabAbort .. => true
  | .fabArm .. => true
  | .armCheckEnd .. => true
  | .spliceWcoWrite .. => true
  | .stationSwitch .. => true
  | .commitQueueWrite .. => true
  | .fabRearm .. => true
  | .twinSpliceDecision .. => true
  | .twinSpliceMessage _ msg _ => spliceOk msg
  | .engAdd .. => true
  | .engSub .. => true
  | .engAnd .. => true
  | .engOr .. => true
  | .engXor .. => true
  | .engSll .. => true
  | .engSrl .. => true
  | .engSra .. => true
  | .engSlt .. => true
  | .engSltu .. => true
  | .engMin .. => true
  | .engMax .. => true
  | .engPopc .. => true
  | .engMul .. => true
  | .engDiv .. => true
  | .engDivu .. => true
  | .engRem .. => true
  | .engRemu .. => true
  | .engAddi .. => true
  | .engAndi .. => true
  | .engOri .. => true
  | .engSlli .. => true
  | .engSrli .. => true
  | .engSrai .. => true
  | .engIns16 .. => true
  | .engExt .. => true
  | .engLdb .. => true
  | .engLdh .. => true
  | .engLdw .. => true
  | .engLdd .. => true
  | .engStb .. => true
  | .engSth .. => true
  | .engStw .. => true
  | .engStd .. => true
  | .engAmoadd .. => true
  | .engCas .. => true
  | .engBeq .. => true
  | .engBne .. => true
  | .engBlt .. => true
  | .engBge .. => true
  | .engBltu .. => true
  | .engBgeu .. => true
  | .engJ .. => true
  | .engJal .. => true
  | .engJalr .. => true
  | .engFence .. => true
  | .engIsync .. => true
  | .engWait .. => true
  | .engWaitEnd .. => true
  | .engSignal .. => true
  | .engRdsys .. => true
  | .engHalt .. => true
  | .engDcClean .. => true
  | .engDcInv .. => true
  | .engDcCinv .. => true
  | .engDcCleanall .. => true
  | .engIcInvall .. => true
  | .engVadd .. => true
  | .engVsub .. => true
  | .engVmul .. => true
  | .engVmin .. => true
  | .engVmax .. => true
  | .engVand .. => true
  | .engVor .. => true
  | .engVshl .. => true
  | .engVshr .. => true
  | .engVabsd .. => true
  | .engVcmpeq .. => true
  | .engVcmplt .. => true
  | .engVsel .. => true
  | .engVredadd .. => true
  | .engVbcast .. => true
  | .engVextr .. => true
  | .engPand .. => true
  | .engPnot .. => true
  | .engVld .. => true
  | .engVst .. => true
  | .engIllegal .. => true
  | .engStart .. => true
  | .engStop .. => true
  | .stopComplete .. => true
  | .engOff .. => true
  | .offComplete .. => true
  | .engInitDone .. => true
  | .evfEventDelivery .. => true
  | .evfTimerExpire .. => true
  | .evfPendingWrite .. => true
  | .evfCommit .. => true
  | .commitCheckEnd .. => true
  | .dmaDoorbell .. => true
  | .dmaMove _ _ f => fetchesOk f
  | .dmaMoveComplete .. => true
  | .dmaLoop _ _ f => fetchesOk f
  | .dmaWait _ _ f => fetchesOk f
  | .dmaWaitEnd .. => true
  | .dmaSignal _ _ f => fetchesOk f
  | .signalPublish .. => true
  | .dmaJump _ _ f => fetchesOk f
  | .dmaEnd _ _ f => fetchesOk f
  | .dmaIllegal _ _ f => fetchesOk f
  | .dmaBusError .. => true
  | .dmaStop .. => true
  | .dmaResume .. => true
  | .dmaSkip .. => true
  | .dmaStopComplete .. => true
  | .memOpen .. => true
  | .slotSwap .. => true
  | .slotTableSwap .. => true
  | .arbitrationSlot .. => true
  | .grantFlagFall .. => true
  | .memoryRead .. => true
  | .memoryWrite _ _ _ data _ _ => data.length == 64
  | .rowClose .. => true
  | .refresh .. => true
  | .refreshWindowEnd .. => true
  | .selfRefreshEntry .. => true
  | .trackingWindow .. => true
  | .retrain .. => true
  | .retrainStep .. => true
  | .channelFence .. => true
  | .bootTrainingEnd _ found => found.length == 16
  | .memoryZeroingEnd .. => true
  | .fvlPortEnable .. => true
  | .fvlPortDisable .. => true
  | .fvlClockDone .. => true
  | .ts1Receive _ _ _ _ os => os.length == 16
  | .ts2Receive _ _ os => os.length == 16
  | .fvlTrainTimeout .. => true
  | .fvlConfigTimeout .. => true
  | .fvlRateRoundTimeout .. => true
  | .fvlRetrain .. => true
  | .fvlRetrainTimeout .. => true
  | .fvlUpshift .. => true
  | .fvlSleepEntry .. => true
  | .fvlWake .. => true
  | .dataFrameReceive _ _ frame => frameOk frame
  | .ackReceive .. => true
  | .nakReceive .. => true
  | .creditReceive .. => true
  | .ackDue .. => true
  | .creditReturn .. => true
  | .replayTimeout .. => true
  | .postedWriteReceive _ _ _ vals => wordsOk vals
  | .readReceive .. => true
  | .completionReceive _ _ _ _ vals => decide (vals.length ≤ 128)
  | .eventReceive .. => true
  | .timeExchange .. => true
  | .timePongReceive .. => true
  | .pongTimeout .. => true
  | .mailboxGo .. => true
  | .mailboxTimeout .. => true
  | .pcieLinkUp .. => true
  | .pcieLinkDown .. => true
  | .pciePerst .. => true
  | .bar2Read .. => true
  | .bar2Write _ _ _ bytes => bytes.length != 0 && decide (bytes.length ≤ 4096)
  | .gpioEdge .. => true
  | .gpioOutSet .. => true
  | .gpioOutClr .. => true
  | .i2cGo .. => true
  | .i2cTransferEnd _ _ rdata => decide (rdata.length ≤ 16)
  | .i2cStretchTimeout _ rdata => decide (rdata.length ≤ 16)
  | .ethLinkChange .. => true
  | .ethFrameReceive _ _ _ bytes => ethOk bytes
  | .txProdWrite .. => true
  | .frameTransmit _ _ _ host => host.all fun p => hostOk p.2
  | .tsqTake .. => true
  | .ptpStep .. => true
  | .ptpRateWrite .. => true
  | .syncLossTimeout .. => true
  | .holdoverClear .. => true
  | .mapPair .. => true
  | .mapSnap .. => true
  | .twnEnable .. => true
  | .twnDisable .. => true
  | .pairingEnd .. => true
  | .heartbeatSend .. => true
  | .heartbeatReceive _ _ _ hb => hb.lines.length == 8
  | .heartbeatPathLost .. => true
  | .partnerLost .. => true
  | .castlingClaimsDone .. => true
  | .signatureSend .. => true
  | .signatureReceive _ entries => entries.length != 0 && decide (entries.length ≤ 16)
  | .signatureWaitTimeout .. => true
  | .ntUpdateReceive _ entries => entries.length != 0 && decide (entries.length ≤ 16)
  | .ringDataReceive _ _ bytes => decide (bytes.length ≤ 496)
  | .defectMessageReceive _ words => words.length != 0 && words.length % 8 == 0
  | .castle .. => true
  | .castleMessageReceive .. => true
  | .castleAckTimeout .. => true
  | .secEnrol .. => true
  | .secRevoke .. => true
  | .secSecureBoot .. => true
  | .secSetDomain .. => true
  | .secAttest .. => true
  | .secCommandEnd .. => true
  | .domainLock .. => true
  | .sensorConversion _ temps => temps.length == 8
  | .calRun .. => true
  | .calPhaseEnd _ r => calOk r
  | .thermalTrip .. => true
  | .pmuFreeze .. => true
  | .pmuClear .. => true
  | .bandwidthWindowEnd .. => true
  | .pwrGoodFall .. => true
  | .powerOnResetEnd .. => true
  | .sysRstNAssert .. => true
  | .deviceResetEnd .. => true
  | .bootStepEnd .. => true
  | .flashImageReadEnd _ dir image => dir.length == 64 && decide (image.length ≤ 2 ^ 32 - 1)
  | .bootGo .. => true
  | .uartRequest .. => true
  | .uartGapTimeout .. => true
  | .fvlDownHoldoffEnd .. => true
  | .rateChangePauseEnd .. => true
  | .syncHeaderError .. => true
  | .alignReceive .. => true
  | .sdsReceive .. => true
  | .eiosReceive .. => true
  | .wakeReceive .. => true
  | .fencedTrainingEnd .. => true
  | .flashReadTimeout _ dir => dir.length == 64
  | .pmuCounterWrap .. => true
  | .dramHighTemperature .. => true

end Sys2Proof
end

