-- ==== Sys2Proof/Decode.lean ====
section
/-! DEFINITION. The decoder of the command table. The table gives no row any bits (its field lists are empty), so no word spells
a command. The block has no program, and so no encoder of one; the words of the Cregar engines are decoded in
Machine/Cregar.lean, those of the DMA channels in Machine/Dma.lean, the records of fabric images in Machine/FabLoad.lean. -/

namespace Sys2Proof

/-- The command that a word of `nbits` bits spells by the table's bits: none, since no row has any. -/
def decodeTableWord (_nbits _w : Nat) : Option Instr := none

end Sys2Proof
end

