-- ==== Sys2Proof/Machine/Operands.lean ====
section
/-! DEFINITION. The operand forms of the commands: the register fields the meanings read and write,
each by the manual's own name, with its offset (from the register maps) and its bits. `F.X` is a field,
`O.X` a register's offset; instance numbers are arguments, in the order of the map's line. -/

namespace Sys2Proof.Machine

/-- A field of BAR0: the offset of its register's (low) word and the bits [hi:lo]; `hi` above 31 is a
field of a 64-bit register. -/
structure Fld where
  off : Nat
  hi : Nat
  lo : Nat
  deriving DecidableEq, Repr

/-! R66 -/
def F.WTU_CLAMP_COUNT : Fld := ⟨0x00100050, 31, 0⟩
def F.WTU_CTRL_WCO_SRC : Fld := ⟨0x00100000, 1, 0⟩
def F.WTU_CTRL_XCHK_EN : Fld := ⟨0x00100000, 4, 4⟩
def F.WTU_CTRL_XCHK_SRC : Fld := ⟨0x00100000, 3, 2⟩
def F.WTU_ENC_CFG_BACKLASH (n : Nat) : Fld := ⟨0x00100200 + 0x40 * n, 9, 7⟩
def F.WTU_ENC_CFG_EN (n : Nat) : Fld := ⟨0x00100200 + 0x40 * n, 0, 0⟩
def F.WTU_ENC_CFG_FILT (n : Nat) : Fld := ⟨0x00100200 + 0x40 * n, 6, 3⟩
def F.WTU_ENC_CFG_INVERT (n : Nat) : Fld := ⟨0x00100200 + 0x40 * n, 1, 1⟩
def F.WTU_ENC_CFG_MINIVL (n : Nat) : Fld := ⟨0x00100200 + 0x40 * n, 23, 16⟩
def F.WTU_ENC_CFG_Z_EN (n : Nat) : Fld := ⟨0x00100200 + 0x40 * n, 2, 2⟩
def F.WTU_ENC_GLITCH_COUNT (n : Nat) : Fld := ⟨0x00100220 + 0x40 * n, 31, 0⟩
def F.WTU_ENC_ILLEGAL_COUNT (n : Nat) : Fld := ⟨0x0010021C + 0x40 * n, 31, 0⟩
def F.WTU_ENC_LEVEL (n : Nat) : Fld := ⟨0x00100230 + 0x40 * n, 15, 0⟩
def F.WTU_ENC_RAW (n : Nat) : Fld := ⟨0x00100210 + 0x40 * n, 31, 0⟩
def F.WTU_ENC_SCALE (n : Nat) : Fld := ⟨0x00100208 + 0x40 * n, 47, 0⟩
def F.WTU_ENC_SPEED_UMPS (n : Nat) : Fld := ⟨0x00100218 + 0x40 * n, 31, 0⟩
def F.WTU_ENC_STAT_A (n : Nat) : Fld := ⟨0x00100204 + 0x40 * n, 3, 3⟩
def F.WTU_ENC_STAT_B (n : Nat) : Fld := ⟨0x00100204 + 0x40 * n, 4, 4⟩
def F.WTU_ENC_STAT_CFG_ERR (n : Nat) : Fld := ⟨0x00100204 + 0x40 * n, 15, 15⟩
def F.WTU_ENC_STAT_ILLEGAL (n : Nat) : Fld := ⟨0x00100204 + 0x40 * n, 8, 8⟩
def F.WTU_ENC_STAT_LEVEL_A (n : Nat) : Fld := ⟨0x00100204 + 0x40 * n, 12, 12⟩
def F.WTU_ENC_STAT_LEVEL_B (n : Nat) : Fld := ⟨0x00100204 + 0x40 * n, 13, 13⟩
def F.WTU_ENC_STAT_OVER_RATE (n : Nat) : Fld := ⟨0x00100204 + 0x40 * n, 9, 9⟩
def F.WTU_ENC_STAT_REVERSED (n : Nat) : Fld := ⟨0x00100204 + 0x40 * n, 14, 14⟩
def F.WTU_ENC_STAT_STATE (n : Nat) : Fld := ⟨0x00100204 + 0x40 * n, 2, 0⟩
def F.WTU_ENC_STAT_STUCK_A (n : Nat) : Fld := ⟨0x00100204 + 0x40 * n, 10, 10⟩
def F.WTU_ENC_STAT_STUCK_B (n : Nat) : Fld := ⟨0x00100204 + 0x40 * n, 11, 11⟩
def F.WTU_ENC_STAT_Z (n : Nat) : Fld := ⟨0x00100204 + 0x40 * n, 5, 5⟩
def F.WTU_ENC_TRACK (n : Nat) : Fld := ⟨0x00100214 + 0x40 * n, 31, 0⟩
def F.WTU_ENC_ZRAW (n : Nat) : Fld := ⟨0x00100224 + 0x40 * n, 31, 0⟩
def F.WTU_ENC_ZTEMPO (n : Nat) : Fld := ⟨0x00100228 + 0x40 * n, 63, 0⟩
def F.WTU_ERR : Fld := ⟨0x0010003C, 31, 0⟩
def F.WTU_EXTRAP_AVG_LOG2 : Fld := ⟨0x00100034, 10, 8⟩
def F.WTU_EXTRAP_CLAMP : Fld := ⟨0x00100034, 7, 0⟩
def F.WTU_LATCH_TEMPO : Fld := ⟨0x00100048, 63, 0⟩
def F.WTU_LATCH_WCO : Fld := ⟨0x00100040, 63, 0⟩
def F.WTU_LATE_COUNT : Fld := ⟨0x00100054, 31, 0⟩
def F.WTU_LG_COMMIT_TEMPO (g : Nat) : Fld := ⟨0x00101038 + 0x40 * g, 63, 0⟩
def F.WTU_LG_CTRL_CFG_ERR (g : Nat) : Fld := ⟨0x00101000 + 0x40 * g, 5, 5⟩
def F.WTU_LG_CTRL_EN (g : Nat) : Fld := ⟨0x00101000 + 0x40 * g, 0, 0⟩
def F.WTU_LG_CTRL_HOLD (g : Nat) : Fld := ⟨0x00101000 + 0x40 * g, 2, 2⟩
def F.WTU_LG_CTRL_LATE (g : Nat) : Fld := ⟨0x00101000 + 0x40 * g, 4, 4⟩
def F.WTU_LG_CTRL_MISSED (g : Nat) : Fld := ⟨0x00101000 + 0x40 * g, 3, 3⟩
def F.WTU_LG_CTRL_OUTSTANDING (g : Nat) : Fld := ⟨0x00101000 + 0x40 * g, 12, 8⟩
def F.WTU_LG_LATE_COUNT (g : Nat) : Fld := ⟨0x0010101C + 0x40 * g, 31, 0⟩
def F.WTU_LG_LEAD (g : Nat) : Fld := ⟨0x00101018 + 0x40 * g, 31, 0⟩
def F.WTU_LG_LINE (g : Nat) : Fld := ⟨0x00101020 + 0x40 * g, 63, 0⟩
def F.WTU_LG_MISS_END (g : Nat) : Fld := ⟨0x00101030 + 0x40 * g, 63, 0⟩
def F.WTU_LG_MISS_START (g : Nat) : Fld := ⟨0x00101028 + 0x40 * g, 63, 0⟩
def F.WTU_LG_PITCH (g : Nat) : Fld := ⟨0x00101010 + 0x40 * g, 47, 0⟩
def F.WTU_LG_START (g : Nat) : Fld := ⟨0x00101008 + 0x40 * g, 63, 0⟩
def F.WTU_REP_CFG_EN (r : Nat) : Fld := ⟨0x00100500 + 0x10 * r, 0, 0⟩
def F.WTU_REP_CFG_MODE (r : Nat) : Fld := ⟨0x00100500 + 0x10 * r, 3, 3⟩
def F.WTU_REP_CFG_SRC (r : Nat) : Fld := ⟨0x00100500 + 0x10 * r, 2, 1⟩
def F.WTU_REP_CFG_SWAP_AB (r : Nat) : Fld := ⟨0x00100500 + 0x10 * r, 4, 4⟩
def F.WTU_SLOT_CTRL_ARM (s : Nat) : Fld := ⟨0x00102000 + 0x20 * s, 0, 0⟩
def F.WTU_SLOT_CTRL_FIRED (s : Nat) : Fld := ⟨0x00102000 + 0x20 * s, 2, 2⟩
def F.WTU_SLOT_CTRL_LATE (s : Nat) : Fld := ⟨0x00102000 + 0x20 * s, 3, 3⟩
def F.WTU_SLOT_CTRL_MODE (s : Nat) : Fld := ⟨0x00102000 + 0x20 * s, 1, 1⟩
def F.WTU_SLOT_FIRE_TEMPO (s : Nat) : Fld := ⟨0x00102010 + 0x20 * s, 63, 0⟩
def F.WTU_SLOT_TARGET (s : Nat) : Fld := ⟨0x00102008 + 0x20 * s, 63, 0⟩
def F.WTU_SNAP_CTRL_OVERRUN (k : Nat) : Fld := ⟨0x00100100 + 0x20 * k, 2, 2⟩
def F.WTU_SNAP_CTRL_VALID (k : Nat) : Fld := ⟨0x00100100 + 0x20 * k, 1, 1⟩
def F.WTU_SNAP_SPEED (k : Nat) : Fld := ⟨0x00100118 + 0x20 * k, 63, 0⟩
def F.WTU_SNAP_TEMPO (k : Nat) : Fld := ⟨0x00100110 + 0x20 * k, 63, 0⟩
def F.WTU_SNAP_WCO (k : Nat) : Fld := ⟨0x00100108 + 0x20 * k, 63, 0⟩
def F.WTU_SPEED : Fld := ⟨0x00100020, 63, 0⟩
def F.WTU_SPEED_LIMIT : Fld := ⟨0x0010002C, 31, 0⟩
def F.WTU_SPEED_UMPS : Fld := ⟨0x00100028, 31, 0⟩
def F.WTU_SSI_CFG_BITS (m : Nat) : Fld := ⟨0x00100400 + 0x40 * m, 13, 8⟩
def F.WTU_SSI_CFG_DOUBLE (m : Nat) : Fld := ⟨0x00100400 + 0x40 * m, 2, 2⟩
def F.WTU_SSI_CFG_EN (m : Nat) : Fld := ⟨0x00100400 + 0x40 * m, 0, 0⟩
def F.WTU_SSI_CFG_GRAY (m : Nat) : Fld := ⟨0x00100400 + 0x40 * m, 1, 1⟩
def F.WTU_SSI_CFG_HALFPER (m : Nat) : Fld := ⟨0x00100400 + 0x40 * m, 27, 16⟩
def F.WTU_SSI_CFG_PARITY (m : Nat) : Fld := ⟨0x00100400 + 0x40 * m, 4, 3⟩
def F.WTU_SSI_CFG_STATUS_BITS (m : Nat) : Fld := ⟨0x00100400 + 0x40 * m, 6, 5⟩
def F.WTU_SSI_MONO (m : Nat) : Fld := ⟨0x00100404 + 0x40 * m, 15, 0⟩
def F.WTU_SSI_POS (m : Nat) : Fld := ⟨0x00100410 + 0x40 * m, 31, 0⟩
def F.WTU_SSI_STAT_BUSY (m : Nat) : Fld := ⟨0x0010040C + 0x40 * m, 0, 0⟩
def F.WTU_SSI_STAT_DONE (m : Nat) : Fld := ⟨0x0010040C + 0x40 * m, 1, 1⟩
def F.WTU_SSI_STAT_FRAME_ERR (m : Nat) : Fld := ⟨0x0010040C + 0x40 * m, 2, 2⟩
def F.WTU_SSI_STAT_MISMATCH (m : Nat) : Fld := ⟨0x0010040C + 0x40 * m, 4, 4⟩
def F.WTU_SSI_STAT_PARITY_ERR (m : Nat) : Fld := ⟨0x0010040C + 0x40 * m, 3, 3⟩
def F.WTU_SSI_STAT_REQ_LOST (m : Nat) : Fld := ⟨0x0010040C + 0x40 * m, 5, 5⟩
def F.WTU_SSI_STAT_STATUS (m : Nat) : Fld := ⟨0x0010040C + 0x40 * m, 10, 8⟩
def F.WTU_SSI_TEMPO (m : Nat) : Fld := ⟨0x00100418 + 0x40 * m, 63, 0⟩
def F.WTU_STATUS_OVER_LIMIT : Fld := ⟨0x00100004, 3, 3⟩
def F.WTU_STATUS_OVER_LIMIT_SEEN : Fld := ⟨0x00100004, 4, 4⟩
def F.WTU_STATUS_STATE : Fld := ⟨0x00100004, 2, 0⟩
def F.WTU_STATUS_UNDERFLOW : Fld := ⟨0x00100004, 6, 6⟩
def F.WTU_STATUS_XCHK_FAIL : Fld := ⟨0x00100004, 5, 5⟩
def F.WTU_STILL_TIME : Fld := ⟨0x00100030, 31, 0⟩
def F.WTU_WCO_LOADVAL : Fld := ⟨0x00100008, 63, 0⟩
def F.WTU_XCHK_LIMIT : Fld := ⟨0x00100038, 31, 0⟩
/-! R90 -/
def F.CMP_CTRL_DEF_LANES : Fld := ⟨0x00200000, 11, 8⟩
def F.CMP_CTRL_INF_LANES : Fld := ⟨0x00200000, 5, 0⟩
def F.CMP_DQ_BASE : Fld := ⟨0x00200800, 63, 0⟩
def F.CMP_DQ_CFG_EN : Fld := ⟨0x00200808, 8, 8⟩
def F.CMP_DQ_CFG_SIZE_LOG2 : Fld := ⟨0x00200808, 3, 0⟩
def F.CMP_DQ_CONS : Fld := ⟨0x00200810, 31, 0⟩
def F.CMP_DQ_PROD : Fld := ⟨0x0020080C, 31, 0⟩
def F.CMP_DQ_STAT_ERR_SEEN : Fld := ⟨0x00200814, 0, 0⟩
def F.CMP_ERR : Fld := ⟨0x00200008, 31, 0⟩
def F.CMP_IL_STAT_BUSY (l : Nat) : Fld := ⟨0x00200A00 + 0x4 * l, 0, 0⟩
def F.CMP_IL_STAT_RING (l : Nat) : Fld := ⟨0x00200A00 + 0x4 * l, 2, 1⟩
def F.CMP_IL_STAT_SEQ (l : Nat) : Fld := ⟨0x00200A00 + 0x4 * l, 23, 8⟩
def F.CMP_IN_BYTES : Fld := ⟨0x00200010, 63, 0⟩
def F.CMP_OUT_BYTES : Fld := ⟨0x00200018, 63, 0⟩
def F.CMP_PLANE_GEOM2_EN (p : Nat) : Fld := ⟨0x0020040C + 0x10 * p, 31, 31⟩
def F.CMP_PLANE_GEOM2_ROWS_M1 (p : Nat) : Fld := ⟨0x0020040C + 0x10 * p, 15, 0⟩
def F.CMP_PLANE_GEOM_COLS_M1 (p : Nat) : Fld := ⟨0x00200408 + 0x10 * p, 17, 8⟩
def F.CMP_PLANE_GEOM_TH_LOG2 (p : Nat) : Fld := ⟨0x00200408 + 0x10 * p, 7, 4⟩
def F.CMP_PLANE_GEOM_TW_LOG2 (p : Nat) : Fld := ⟨0x00200408 + 0x10 * p, 3, 0⟩
def F.CMP_PLANE_MAP_BASE (p : Nat) : Fld := ⟨0x00200400 + 0x10 * p, 63, 0⟩
def F.CMP_RING_BASE (r : Nat) : Fld := ⟨0x00200100 + 0x40 * r, 63, 0⟩
def F.CMP_RING_CFG_EN (r : Nat) : Fld := ⟨0x00200108 + 0x40 * r, 8, 8⟩
def F.CMP_RING_CFG_SIZE_LOG2 (r : Nat) : Fld := ⟨0x00200108 + 0x40 * r, 5, 0⟩
def F.CMP_RING_CONS (r : Nat) : Fld := ⟨0x00200118 + 0x40 * r, 63, 0⟩
def F.CMP_RING_LAST_ERR_CODE (r : Nat) : Fld := ⟨0x00200124 + 0x40 * r, 31, 0⟩
def F.CMP_RING_LAST_ERR_SEQ (r : Nat) : Fld := ⟨0x00200120 + 0x40 * r, 31, 0⟩
def F.CMP_RING_PROD (r : Nat) : Fld := ⟨0x00200110 + 0x40 * r, 63, 0⟩
def F.CMP_RING_STAT_EMPTY (r : Nat) : Fld := ⟨0x0020010C + 0x40 * r, 1, 1⟩
def F.CMP_RING_STAT_HALTED (r : Nat) : Fld := ⟨0x0020010C + 0x40 * r, 0, 0⟩
def F.CMP_RING_STAT_HALT_SEEN (r : Nat) : Fld := ⟨0x0020010C + 0x40 * r, 2, 2⟩
def F.CMP_STATUS_DEF_BUSY : Fld := ⟨0x00200004, 11, 8⟩
def F.CMP_STATUS_HALTED : Fld := ⟨0x00200004, 15, 12⟩
def F.CMP_STATUS_INF_BUSY : Fld := ⟨0x00200004, 5, 0⟩
def F.CMP_STREAM_ERRS : Fld := ⟨0x0020000C, 31, 0⟩
def F.CMP_TILES : Fld := ⟨0x00200020, 63, 0⟩
/-! R120 -/
def F.RP_BANK_BIND_ALPHA_BASE (n b j : Nat) : Fld := ⟨0x00301050 + 0x10000 * n + 0x800 * b + 0x20 * j, 63, 0⟩
def F.RP_BANK_BIND_CFG_EN (n b j : Nat) : Fld := ⟨0x00301040 + 0x10000 * n + 0x800 * b + 0x20 * j, 0, 0⟩
def F.RP_BANK_BIND_CFG_FILL (n b j : Nat) : Fld := ⟨0x00301040 + 0x10000 * n + 0x800 * b + 0x20 * j, 23, 16⟩
def F.RP_BANK_BIND_CFG_INVALID_POLICY (n b j : Nat) : Fld := ⟨0x00301040 + 0x10000 * n + 0x800 * b + 0x20 * j, 1, 1⟩
def F.RP_BANK_BIND_CFG_KEY (n b j : Nat) : Fld := ⟨0x00301040 + 0x10000 * n + 0x800 * b + 0x20 * j, 15, 8⟩
def F.RP_BANK_BIND_CFG_KEY_EN (n b j : Nat) : Fld := ⟨0x00301040 + 0x10000 * n + 0x800 * b + 0x20 * j, 2, 2⟩
def F.RP_BANK_BIND_CFG_PLANE (n b j : Nat) : Fld := ⟨0x00301040 + 0x10000 * n + 0x800 * b + 0x20 * j, 29, 24⟩
def F.RP_BANK_BIND_REPEAT_LINES (n b j : Nat) : Fld := ⟨0x00301048 + 0x10000 * n + 0x800 * b + 0x20 * j, 31, 0⟩
def F.RP_BANK_BIND_XOFF (n b j : Nat) : Fld := ⟨0x00301044 + 0x10000 * n + 0x800 * b + 0x20 * j, 31, 0⟩
def F.RP_BANK_CFG_WIDTH_M1 (n b : Nat) : Fld := ⟨0x00301000 + 0x10000 * n + 0x800 * b, 15, 0⟩
def F.RP_BANK_JOB_ID (n b : Nat) : Fld := ⟨0x00301004 + 0x10000 * n + 0x800 * b, 31, 0⟩
def F.RP_BANK_LINE0 (n b : Nat) : Fld := ⟨0x00301008 + 0x10000 * n + 0x800 * b, 63, 0⟩
def F.RP_BANK_SCR_BASE (n b : Nat) : Fld := ⟨0x00301010 + 0x10000 * n + 0x800 * b, 31, 14⟩
def F.RP_BANK_SCR_H_LOG2 (n b : Nat) : Fld := ⟨0x00301010 + 0x10000 * n + 0x800 * b, 7, 4⟩
def F.RP_BANK_SCR_OFF_XOFF (n b : Nat) : Fld := ⟨0x00301014 + 0x10000 * n + 0x800 * b, 8, 0⟩
def F.RP_BANK_SCR_OFF_YOFF (n b : Nat) : Fld := ⟨0x00301014 + 0x10000 * n + 0x800 * b, 24, 16⟩
def F.RP_BANK_SCR_W_LOG2 (n b : Nat) : Fld := ⟨0x00301010 + 0x10000 * n + 0x800 * b, 3, 0⟩
def F.RP_BANK_TONE (n b i : Nat) : Fld := ⟨0x00301100 + 0x10000 * n + 0x800 * b + 0x4 * i, 31, 0⟩
def F.RP_CTRL_BANK_SEL (n : Nat) : Fld := ⟨0x00300000 + 0x10000 * n, 1, 1⟩
def F.RP_CTRL_EN (n : Nat) : Fld := ⟨0x00300000 + 0x10000 * n, 0, 0⟩
def F.RP_CTRL_LG (n : Nat) : Fld := ⟨0x00300000 + 0x10000 * n, 12, 8⟩
def F.RP_DROPPED (n : Nat) : Fld := ⟨0x0030002C + 0x10000 * n, 31, 0⟩
def F.RP_ECC_CORR (n : Nat) : Fld := ⟨0x00300028 + 0x10000 * n, 31, 0⟩
def F.RP_ERR (n : Nat) : Fld := ⟨0x00300008 + 0x10000 * n, 31, 0⟩
def F.RP_INVALID_FILLS (n : Nat) : Fld := ⟨0x00300050 + 0x10000 * n, 31, 0⟩
def F.RP_LINE (n : Nat) : Fld := ⟨0x00300010 + 0x10000 * n, 63, 0⟩
def F.RP_LINES_DONE (n : Nat) : Fld := ⟨0x00300018 + 0x10000 * n, 63, 0⟩
def F.RP_MARK_LINE (n : Nat) : Fld := ⟨0x00300030 + 0x10000 * n, 63, 0⟩
def F.RP_MIN_SLACK (n : Nat) : Fld := ⟨0x0030000C + 0x10000 * n, 31, 0⟩
def F.RP_SKIPPED (n : Nat) : Fld := ⟨0x00300020 + 0x10000 * n, 31, 0⟩
def F.RP_SNAP_RETIRED (n : Nat) : Fld := ⟨0x00300040 + 0x10000 * n, 63, 0⟩
def F.RP_SNAP_TAKEN (n : Nat) : Fld := ⟨0x00300038 + 0x10000 * n, 63, 0⟩
def F.RP_SNAP_WATCH (n : Nat) : Fld := ⟨0x00300048 + 0x10000 * n, 63, 0⟩
def F.RP_STAT_ACTIVE_BANK (n : Nat) : Fld := ⟨0x00300004 + 0x10000 * n, 2, 2⟩
def F.RP_STAT_CFG_ERR (n : Nat) : Fld := ⟨0x00300004 + 0x10000 * n, 3, 3⟩
def F.RP_STAT_QUEUED (n : Nat) : Fld := ⟨0x00300004 + 0x10000 * n, 12, 8⟩
def F.RP_STAT_STATE (n : Nat) : Fld := ⟨0x00300004 + 0x10000 * n, 1, 0⟩
def F.RP_STAT_WR_ACTIVE (n : Nat) : Fld := ⟨0x00300004 + 0x10000 * n, 4, 4⟩
def F.RP_SUPPRESSED (n : Nat) : Fld := ⟨0x00300024 + 0x10000 * n, 31, 0⟩
def F.RP_TS_ADDR : Fld := ⟨0x00308000, 17, 0⟩
def F.RP_TS_ECC_CORR : Fld := ⟨0x00308014, 31, 0⟩
def F.RP_TS_STAT_ACTIVE_WRITE : Fld := ⟨0x00308010, 0, 0⟩
def F.RP_TS_STAT_UNCORR : Fld := ⟨0x00308010, 1, 1⟩
/-! R144 -/
def F.RP_BANK_COMP_ALT (n b : Nat) : Fld := ⟨0x0030101C + 0x10000 * n + 0x800 * b, 1, 1⟩
def F.RP_BANK_COMP_EN (n b : Nat) : Fld := ⟨0x0030101C + 0x10000 * n + 0x800 * b, 0, 0⟩
def F.RP_BANK_MASK (n b i : Nat) : Fld := ⟨0x00301200 + 0x10000 * n + 0x800 * b + 0x4 * i, 31, 0⟩
def F.RP_BANK_MASK_CFG_MH_LOG2 (n b : Nat) : Fld := ⟨0x00301018 + 0x10000 * n + 0x800 * b, 6, 4⟩
def F.RP_BANK_MASK_CFG_MW_LOG2 (n b : Nat) : Fld := ⟨0x00301018 + 0x10000 * n + 0x800 * b, 2, 0⟩
def F.RP_BANK_MASK_CFG_MXOFF (n b : Nat) : Fld := ⟨0x00301018 + 0x10000 * n + 0x800 * b, 13, 8⟩
def F.RP_BANK_MASK_CFG_MYOFF (n b : Nat) : Fld := ⟨0x00301018 + 0x10000 * n + 0x800 * b, 21, 16⟩
def F.RP_BANK_ROW_CFG_EN (n b f : Nat) : Fld := ⟨0x00301600 + 0x10000 * n + 0x800 * b + 0x10 * f, 0, 0⟩
def F.RP_BANK_ROW_CFG_PERIOD_M1 (n b f : Nat) : Fld := ⟨0x00301600 + 0x10000 * n + 0x800 * b + 0x10 * f, 2, 1⟩
def F.RP_BANK_ROW_CFG_PHASE (n b f : Nat) : Fld := ⟨0x00301600 + 0x10000 * n + 0x800 * b + 0x10 * f, 5, 4⟩
def F.RP_BANK_ROW_OFFSET (n b f : Nat) : Fld := ⟨0x00301608 + 0x10000 * n + 0x800 * b + 0x10 * f, 47, 0⟩
def F.RP_BANK_ROW_SECT (n b f : Nat) : Fld := ⟨0x00301604 + 0x10000 * n + 0x800 * b + 0x10 * f, 31, 0⟩
def F.RP_COMP_CLIPPED (n : Nat) : Fld := ⟨0x00300060 + 0x10000 * n, 31, 0⟩
def F.RP_COMP_LOST (n : Nat) : Fld := ⟨0x0030005C + 0x10000 * n, 31, 0⟩
def F.RP_COMP_NEIGH (n : Nat) : Fld := ⟨0x00300054 + 0x10000 * n, 31, 0⟩
def F.RP_COMP_REDUND (n : Nat) : Fld := ⟨0x00300058 + 0x10000 * n, 31, 0⟩
/-! R145 -/
def F.RP_NT_CTRL_SCRUB_EN : Fld := ⟨0x00309000, 1, 1⟩
def F.RP_NT_ECC_CORR : Fld := ⟨0x0030900C, 31, 0⟩
def F.RP_NT_LAST_UNCORR : Fld := ⟨0x00309014, 18, 0⟩
def F.RP_NT_RMW_DATA (i : Nat) : Fld := ⟨0x00309110 + 0x20 * i, 63, 0⟩
def F.RP_NT_RMW_INDEX (i : Nat) : Fld := ⟨0x00309100 + 0x20 * i, 19, 0⟩
def F.RP_NT_RMW_MASK (i : Nat) : Fld := ⟨0x00309108 + 0x20 * i, 63, 0⟩
def F.RP_NT_RMW_RESULT (i : Nat) : Fld := ⟨0x00309118 + 0x20 * i, 63, 0⟩
def F.RP_NT_SCRUB_PASSES : Fld := ⟨0x00309010, 31, 0⟩
def F.RP_NT_STAT_INIT_DONE : Fld := ⟨0x00309004, 0, 0⟩
def F.RP_NT_STAT_RMW_RANGE : Fld := ⟨0x00309004, 2, 2⟩
def F.RP_NT_STAT_UNCORR : Fld := ⟨0x00309004, 1, 1⟩
/-! R146 -/
def F.FTU_OVS_CTRL_INH_ACTIVE : Fld := ⟨0x0050E000, 1, 1⟩
def F.FTU_OVS_CTRL_INH_SEEN : Fld := ⟨0x0050E000, 2, 2⟩
def F.FTU_OVS_CTRL_POLICY : Fld := ⟨0x0050E000, 0, 0⟩
def F.FTU_OVS_CTRL_SEVERITY : Fld := ⟨0x0050E000, 11, 8⟩
def F.FTU_OVS_CTRL_SKIP_SEEN : Fld := ⟨0x0050E000, 3, 3⟩
def F.FTU_OVS_HOLD : Fld := ⟨0x0050E004, 31, 0⟩
def F.FTU_OVS_INH_WCO : Fld := ⟨0x0050E008, 63, 0⟩
def F.FTU_OVS_RECORDS : Fld := ⟨0x0050E01C, 31, 0⟩
def F.FTU_OVS_RES_WCO : Fld := ⟨0x0050E010, 63, 0⟩
def F.FTU_OVS_SKIP_LINES : Fld := ⟨0x0050E018, 31, 0⟩
/-! R174 -/
def F.FTU_ACK_ERRS : Fld := ⟨0x00500014, 31, 0⟩
def F.FTU_CTRL_DP_SEVERITY : Fld := ⟨0x00500000, 11, 8⟩
def F.FTU_CTRL_EN : Fld := ⟨0x00500000, 0, 0⟩
def F.FTU_ERR : Fld := ⟨0x00500008, 31, 0⟩
def F.FTU_HEAD_CFG_DIR (x : Nat) : Fld := ⟨0x00502000 + 0x40 * x, 15, 12⟩
def F.FTU_HEAD_CFG_EN (x : Nat) : Fld := ⟨0x00502000 + 0x40 * x, 0, 0⟩
def F.FTU_HEAD_CFG_NOZ64 (x : Nat) : Fld := ⟨0x00502000 + 0x40 * x, 7, 1⟩
def F.FTU_HEAD_CFG_SEG_LOG2 (x : Nat) : Fld := ⟨0x00502000 + 0x40 * x, 9, 8⟩
def F.FTU_HEAD_CFG_SEG_MODE (x : Nat) : Fld := ⟨0x00502000 + 0x40 * x, 10, 10⟩
def F.FTU_HEAD_CFG_WDG_LIMIT (x : Nat) : Fld := ⟨0x00502000 + 0x40 * x, 25, 16⟩
def F.FTU_HEAD_DIST_TRIM (x : Nat) : Fld := ⟨0x0050200C + 0x40 * x, 15, 0⟩
def F.FTU_HEAD_LAST_LINE (x : Nat) : Fld := ⟨0x00502014 + 0x40 * x, 31, 0⟩
def F.FTU_HEAD_LAST_STROBE (x : Nat) : Fld := ⟨0x00502018 + 0x40 * x, 63, 0⟩
def F.FTU_HEAD_LATE_COUNT (x : Nat) : Fld := ⟨0x00502020 + 0x40 * x, 31, 0⟩
def F.FTU_HEAD_MIN_IVL (x : Nat) : Fld := ⟨0x00502008 + 0x40 * x, 31, 0⟩
def F.FTU_HEAD_STAT_ACK_ERR (x : Nat) : Fld := ⟨0x00502010 + 0x40 * x, 5, 5⟩
def F.FTU_HEAD_STAT_CAL_CODE (x : Nat) : Fld := ⟨0x00502010 + 0x40 * x, 15, 8⟩
def F.FTU_HEAD_STAT_CFG_ERR (x : Nat) : Fld := ⟨0x00502010 + 0x40 * x, 6, 6⟩
def F.FTU_HEAD_STAT_FLAG_FALL (x : Nat) : Fld := ⟨0x00502010 + 0x40 * x, 3, 3⟩
def F.FTU_HEAD_STAT_LATE (x : Nat) : Fld := ⟨0x00502010 + 0x40 * x, 4, 4⟩
def F.FTU_HEAD_STAT_STATE (x : Nat) : Fld := ⟨0x00502010 + 0x40 * x, 2, 0⟩
def F.FTU_HEAD_STROBE_TIME_TRIM (x : Nat) : Fld := ⟨0x00502004 + 0x40 * x, 31, 16⟩
def F.FTU_HEAD_STROBE_WIDTH (x : Nat) : Fld := ⟨0x00502004 + 0x40 * x, 15, 0⟩
def F.FTU_LATE_COUNT : Fld := ⟨0x0050000C, 31, 0⟩
def F.FTU_LINK_ACKS (l : Nat) : Fld := ⟨0x00501008 + 0x40 * l, 31, 0⟩
def F.FTU_LINK_CFG_EN (l : Nat) : Fld := ⟨0x00501000 + 0x40 * l, 0, 0⟩
def F.FTU_LINK_CFG_HEADS_M1 (l : Nat) : Fld := ⟨0x00501000 + 0x40 * l, 2, 1⟩
def F.FTU_LINK_CFG_ENDPOINT (l : Nat) : Fld := ⟨0x00501000 + 0x40 * l, 25, 16⟩
def F.FTU_LINK_STAT_DOWN_SEEN (l : Nat) : Fld := ⟨0x00501004 + 0x40 * l, 1, 1⟩
def F.FTU_LINK_STAT_STORE_FULL (l : Nat) : Fld := ⟨0x00501004 + 0x40 * l, 2, 2⟩
def F.FTU_LINK_STAT_UP (l : Nat) : Fld := ⟨0x00501004 + 0x40 * l, 0, 0⟩
def F.FTU_STAT_FLG_OK : Fld := ⟨0x00500004, 0, 0⟩
def F.FTU_STORE_ECC_CORR : Fld := ⟨0x0050002C, 31, 0⟩
def F.FTU_STORE_PEAK : Fld := ⟨0x00500028, 11, 0⟩
def F.FTU_STORE_USED : Fld := ⟨0x00500024, 11, 0⟩
def F.FTU_STROBES : Fld := ⟨0x00500018, 63, 0⟩
def F.FTU_SUPPRESSED : Fld := ⟨0x00500010, 31, 0⟩
/-! R202 -/
def F.DGU_CH_ARR_MAX (c : Nat) : Fld := ⟨0x00600120 + 0x40 * c, 23, 0⟩
def F.DGU_CH_ARR_MIN (c : Nat) : Fld := ⟨0x0060011C + 0x40 * c, 23, 0⟩
def F.DGU_CH_BASE_LEN (c : Nat) : Fld := ⟨0x00600118 + 0x40 * c, 19, 0⟩
def F.DGU_CH_CFG_EN (c : Nat) : Fld := ⟨0x00600100 + 0x40 * c, 0, 0⟩
def F.DGU_CH_CFG_SRC (c : Nat) : Fld := ⟨0x00600100 + 0x40 * c, 7, 4⟩
def F.DGU_CH_CFG_GAIN_SEL (c : Nat) : Fld := ⟨0x00600100 + 0x40 * c, 8, 8⟩
def F.DGU_CH_CFG_ORDER (c : Nat) : Fld := ⟨0x00600100 + 0x40 * c, 14, 12⟩
def F.DGU_CH_CFG_POL (c : Nat) : Fld := ⟨0x00600100 + 0x40 * c, 15, 15⟩
def F.DGU_CH_CFG_R_M1 (c : Nat) : Fld := ⟨0x00600100 + 0x40 * c, 23, 16⟩
def F.DGU_CH_CFG_SETTLE_EXTRA (c : Nat) : Fld := ⟨0x00600100 + 0x40 * c, 31, 24⟩
def F.DGU_CH_COVER_POS_HI (c : Nat) : Fld := ⟨0x00600130 + 0x40 * c, 29, 16⟩
def F.DGU_CH_COVER_POS_LO (c : Nat) : Fld := ⟨0x00600130 + 0x40 * c, 13, 0⟩
def F.DGU_CH_COVER_SECT (c : Nat) : Fld := ⟨0x0060012C + 0x40 * c, 31, 0⟩
def F.DGU_CH_DELAY (c : Nat) : Fld := ⟨0x00600108 + 0x40 * c, 9, 0⟩
def F.DGU_CH_GAIN_SCALE (c : Nat) : Fld := ⟨0x00600104 + 0x40 * c, 15, 0⟩
def F.DGU_CH_GAIN_SH (c : Nat) : Fld := ⟨0x00600104 + 0x40 * c, 21, 16⟩
def F.DGU_CH_MISS_THR (c : Nat) : Fld := ⟨0x00600124 + 0x40 * c, 23, 0⟩
def F.DGU_CH_SAMPLE (c : Nat) : Fld := ⟨0x00600134 + 0x40 * c, 31, 0⟩
def F.DGU_CH_STAT_OVERLOAD (c : Nat) : Fld := ⟨0x0060010C + 0x40 * c, 1, 1⟩
def F.DGU_CH_STAT_SETTLING (c : Nat) : Fld := ⟨0x0060010C + 0x40 * c, 0, 0⟩
def F.DGU_CH_UNSETTLED (c : Nat) : Fld := ⟨0x0060013C + 0x40 * c, 31, 0⟩
def F.DGU_CH_WEAK_THR (c : Nat) : Fld := ⟨0x00600128 + 0x40 * c, 31, 0⟩
def F.DGU_CH_WIN_LEN (c : Nat) : Fld := ⟨0x00600114 + 0x40 * c, 19, 0⟩
def F.DGU_CH_WIN_PEND (c : Nat) : Fld := ⟨0x00600138 + 0x40 * c, 6, 0⟩
def F.DGU_CH_WIN_START (c : Nat) : Fld := ⟨0x00600110 + 0x40 * c, 23, 0⟩
def F.DGU_CLK_EDGE (g : Nat) : Fld := ⟨0x00600040 + 0x4 * g, 9, 9⟩
def F.DGU_CLK_EN (g : Nat) : Fld := ⟨0x00600040 + 0x4 * g, 8, 8⟩
def F.DGU_CLK_HDIV (g : Nat) : Fld := ⟨0x00600040 + 0x4 * g, 6, 0⟩
def F.DGU_COLLIDE : Fld := ⟨0x00600004, 31, 0⟩
def F.DGU_ERR : Fld := ⟨0x00600000, 31, 0⟩
def F.DGU_RES_BASE : Fld := ⟨0x00600C00, 63, 0⟩
def F.DGU_RES_CFG_EN : Fld := ⟨0x00600C08, 8, 8⟩
def F.DGU_RES_CFG_EVENT : Fld := ⟨0x00600C08, 9, 9⟩
def F.DGU_RES_CFG_SIZE_LOG2 : Fld := ⟨0x00600C08, 4, 0⟩
def F.DGU_RES_CONS : Fld := ⟨0x00600C10, 31, 0⟩
def F.DGU_RES_LOST : Fld := ⟨0x00600008, 31, 0⟩
def F.DGU_RES_PROD : Fld := ⟨0x00600C0C, 31, 0⟩
def F.DGU_SCAN_COUNT_COUNT (s : Nat) : Fld := ⟨0x00600820 + 0x40 * s, 12, 0⟩
def F.DGU_SCAN_COUNT_STRIDE (s : Nat) : Fld := ⟨0x00600820 + 0x40 * s, 31, 16⟩
def F.DGU_SCAN_CTRL_ARM (s : Nat) : Fld := ⟨0x00600800 + 0x40 * s, 0, 0⟩
def F.DGU_SCAN_CTRL_DOSE (s : Nat) : Fld := ⟨0x00600800 + 0x40 * s, 10, 8⟩
def F.DGU_SCAN_CTRL_RANGE (s : Nat) : Fld := ⟨0x00600800 + 0x40 * s, 6, 6⟩
def F.DGU_SCAN_CTRL_REPEAT_M1 (s : Nat) : Fld := ⟨0x00600800 + 0x40 * s, 17, 12⟩
def F.DGU_SCAN_CTRL_RP (s : Nat) : Fld := ⟨0x00600800 + 0x40 * s, 26, 24⟩
def F.DGU_SCAN_CTRL_SPACING (s : Nat) : Fld := ⟨0x00600800 + 0x40 * s, 31, 27⟩
def F.DGU_SCAN_CTRL_STATE (s : Nat) : Fld := ⟨0x00600800 + 0x40 * s, 3, 2⟩
def F.DGU_SCAN_CTRL_UPD (s : Nat) : Fld := ⟨0x00600800 + 0x40 * s, 5, 4⟩
def F.DGU_SCAN_CTRL_VOTE_M1 (s : Nat) : Fld := ⟨0x00600800 + 0x40 * s, 23, 18⟩
def F.DGU_SCAN_DONE_COUNT (s : Nat) : Fld := ⟨0x00600824 + 0x40 * s, 12, 0⟩
def F.DGU_SCAN_END_WCO (s : Nat) : Fld := ⟨0x00600810 + 0x40 * s, 63, 0⟩
def F.DGU_SCAN_LIST_BASE (s : Nat) : Fld := ⟨0x00600818 + 0x40 * s, 63, 0⟩
def F.DGU_SCAN_START_WCO (s : Nat) : Fld := ⟨0x00600808 + 0x40 * s, 63, 0⟩
def F.DGU_SCAN_STAT_CFG_ERR (s : Nat) : Fld := ⟨0x00600828 + 0x40 * s, 1, 1⟩
def F.DGU_SCAN_STAT_INCOMPLETE (s : Nat) : Fld := ⟨0x00600828 + 0x40 * s, 0, 0⟩
def F.DGU_WINDOWS : Fld := ⟨0x00600010, 63, 0⟩
/-! R203 -/
def F.DGU_HB_CFG_COMP (i : Nat) : Fld := ⟨0x00608000 + 0x40 * i, 13, 12⟩
def F.DGU_HB_CFG_EN (i : Nat) : Fld := ⟨0x00608000 + 0x40 * i, 0, 0⟩
def F.DGU_HB_CFG_HSTAGES (i : Nat) : Fld := ⟨0x00608000 + 0x40 * i, 6, 4⟩
def F.DGU_HB_CFG_IN_BITS (i : Nat) : Fld := ⟨0x00608000 + 0x40 * i, 14, 14⟩
def F.DGU_HB_CFG_SRC (i : Nat) : Fld := ⟨0x00608000 + 0x40 * i, 3, 1⟩
def F.DGU_HB_CFG_VSTAGES (i : Nat) : Fld := ⟨0x00608000 + 0x40 * i, 10, 8⟩
def F.DGU_HB_ERR : Fld := ⟨0x00608100, 31, 0⟩
def F.DGU_HB_ECC_CORR (i : Nat) : Fld := ⟨0x0060800C + 0x40 * i, 31, 0⟩
def F.DGU_HB_LINES_OUT (i : Nat) : Fld := ⟨0x00608008 + 0x40 * i, 31, 0⟩
def F.DGU_HB_STAT_BAD_LINE (i : Nat) : Fld := ⟨0x00608004 + 0x40 * i, 1, 1⟩
def F.DGU_HB_STAT_CFG_ERR (i : Nat) : Fld := ⟨0x00608004 + 0x40 * i, 0, 0⟩
/-! R227 -/
def F.CIN_PORT_CFG_BITS (n : Nat) : Fld := ⟨0x0070000C + 0x1000 * n, 1, 0⟩
def F.CIN_PORT_CFG_DUAL (n : Nat) : Fld := ⟨0x0070000C + 0x1000 * n, 2, 2⟩
def F.CIN_PORT_CFG_IMG_VC (n : Nat) : Fld := ⟨0x0070000C + 0x1000 * n, 4, 3⟩
def F.CIN_PORT_CTRL_EN (n : Nat) : Fld := ⟨0x00700000 + 0x1000 * n, 0, 0⟩
def F.CIN_PORT_CTRL_LG (n : Nat) : Fld := ⟨0x00700000 + 0x1000 * n, 12, 8⟩
def F.CIN_PORT_CTRL_ENDPOINT (n : Nat) : Fld := ⟨0x00700000 + 0x1000 * n, 25, 16⟩
def F.CIN_PORT_ECC_CORR (n : Nat) : Fld := ⟨0x00700074 + 0x1000 * n, 31, 0⟩
def F.CIN_PORT_ERR (n : Nat) : Fld := ⟨0x00700008 + 0x1000 * n, 31, 0⟩
def F.CIN_PORT_EXP_GAIN_GAIN (n : Nat) : Fld := ⟨0x00700034 + 0x1000 * n, 15, 0⟩
def F.CIN_PORT_EXP_GAIN_RATIO (n : Nat) : Fld := ⟨0x00700034 + 0x1000 * n, 31, 16⟩
def F.CIN_PORT_EXP_ID_OFFSET (n : Nat) : Fld := ⟨0x00700038 + 0x1000 * n, 11, 0⟩
def F.CIN_PORT_EXP_ID_SET_ID (n : Nat) : Fld := ⟨0x00700038 + 0x1000 * n, 31, 16⟩
def F.CIN_PORT_EXP_MISMATCH (n : Nat) : Fld := ⟨0x0070006C + 0x1000 * n, 31, 0⟩
def F.CIN_PORT_EXP_STATE_IN_FORCE (n : Nat) : Fld := ⟨0x0070003C + 0x1000 * n, 15, 0⟩
def F.CIN_PORT_EXP_STATE_REPORTED (n : Nat) : Fld := ⟨0x0070003C + 0x1000 * n, 31, 16⟩
def F.CIN_PORT_EXP_TARGET (n : Nat) : Fld := ⟨0x00700040 + 0x1000 * n, 31, 0⟩
def F.CIN_PORT_EXP_TIME (n : Nat) : Fld := ⟨0x00700030 + 0x1000 * n, 19, 0⟩
def F.CIN_PORT_LINES (n : Nat) : Fld := ⟨0x00700050 + 0x1000 * n, 63, 0⟩
def F.CIN_PORT_LONG (n : Nat) : Fld := ⟨0x0070005C + 0x1000 * n, 31, 0⟩
def F.CIN_PORT_MISSING (n : Nat) : Fld := ⟨0x00700060 + 0x1000 * n, 31, 0⟩
def F.CIN_PORT_MISS_SPANS (n : Nat) : Fld := ⟨0x00700048 + 0x1000 * n, 31, 0⟩
def F.CIN_PORT_PAD (n : Nat) : Fld := ⟨0x00700014 + 0x1000 * n, 11, 0⟩
def F.CIN_PORT_SHORT (n : Nat) : Fld := ⟨0x00700058 + 0x1000 * n, 31, 0⟩
def F.CIN_PORT_STAT_CFG_ERR (n : Nat) : Fld := ⟨0x00700004 + 0x1000 * n, 4, 4⟩
def F.CIN_PORT_STAT_DOWN_SEEN (n : Nat) : Fld := ⟨0x00700004 + 0x1000 * n, 3, 3⟩
def F.CIN_PORT_STAT_LINK_UP (n : Nat) : Fld := ⟨0x00700004 + 0x1000 * n, 2, 2⟩
def F.CIN_PORT_STAT_PENDING (n : Nat) : Fld := ⟨0x00700004 + 0x1000 * n, 6, 5⟩
def F.CIN_PORT_STAT_STATE (n : Nat) : Fld := ⟨0x00700004 + 0x1000 * n, 1, 0⟩
def F.CIN_PORT_STAT_TEL_ALARM (n : Nat) : Fld := ⟨0x00700004 + 0x1000 * n, 7, 7⟩
def F.CIN_PORT_STRIP_DONE (n : Nat) : Fld := ⟨0x00700044 + 0x1000 * n, 31, 0⟩
def F.CIN_PORT_STRIP_EXP_LEAD (n : Nat) : Fld := ⟨0x00700018 + 0x1000 * n, 31, 16⟩
def F.CIN_PORT_STRIP_ORIGIN (n : Nat) : Fld := ⟨0x00700020 + 0x1000 * n, 63, 0⟩
def F.CIN_PORT_STRIP_STRIP_LINES_M1 (n : Nat) : Fld := ⟨0x00700018 + 0x1000 * n, 15, 0⟩
def F.CIN_PORT_TEL_ALARM_MASK (n : Nat) : Fld := ⟨0x00700098 + 0x1000 * n, 31, 0⟩
def F.CIN_PORT_TEL_BASE (n : Nat) : Fld := ⟨0x00700080 + 0x1000 * n, 63, 0⟩
def F.CIN_PORT_TEL_CFG_EN (n : Nat) : Fld := ⟨0x00700088 + 0x1000 * n, 8, 8⟩
def F.CIN_PORT_TEL_CFG_SIZE_LOG2 (n : Nat) : Fld := ⟨0x00700088 + 0x1000 * n, 4, 0⟩
def F.CIN_PORT_TEL_CONS (n : Nat) : Fld := ⟨0x00700090 + 0x1000 * n, 31, 0⟩
def F.CIN_PORT_TEL_LAST (n i : Nat) : Fld := ⟨0x007000A0 + 0x1000 * n + 0x8 * i, 63, 0⟩
def F.CIN_PORT_TEL_LOST (n : Nat) : Fld := ⟨0x00700094 + 0x1000 * n, 31, 0⟩
def F.CIN_PORT_TEL_PROD (n : Nat) : Fld := ⟨0x0070008C + 0x1000 * n, 31, 0⟩
def F.CIN_PORT_TEL_TEMP_LIMIT (n : Nat) : Fld := ⟨0x0070009C + 0x1000 * n, 15, 0⟩
def F.CIN_PORT_TRIG_LATE (n : Nat) : Fld := ⟨0x00700070 + 0x1000 * n, 31, 0⟩
def F.CIN_PORT_TRIG_LINE_WAIT (n : Nat) : Fld := ⟨0x00700028 + 0x1000 * n, 19, 16⟩
def F.CIN_PORT_TRIG_TRIG_DELAY (n : Nat) : Fld := ⟨0x00700028 + 0x1000 * n, 15, 0⟩
def F.CIN_PORT_UNSOLICITED (n : Nat) : Fld := ⟨0x00700064 + 0x1000 * n, 31, 0⟩
def F.CIN_PORT_VC_DROPPED (n : Nat) : Fld := ⟨0x00700068 + 0x1000 * n, 31, 0⟩
def F.CIN_PORT_WIDTH (n : Nat) : Fld := ⟨0x00700010 + 0x1000 * n, 14, 0⟩
/-! R268 -/
def F.IPL_BANK_TOL_BASE (b : Nat) : Fld := ⟨0x00800800 + 0x20 * b, 63, 0⟩
def F.IPL_BANK_TOL_GEOM_COLS_M1 (b : Nat) : Fld := ⟨0x00800808 + 0x20 * b, 12, 0⟩
def F.IPL_BANK_TOL_GEOM_ROWS_M1 (b : Nat) : Fld := ⟨0x00800808 + 0x20 * b, 31, 16⟩
def F.IPL_BANK_TOL_LINE0 (b : Nat) : Fld := ⟨0x00800810 + 0x20 * b, 63, 0⟩
def F.IPL_BLOBS : Fld := ⟨0x00800024, 31, 0⟩
def F.IPL_BLOBS_SMALL : Fld := ⟨0x00800028, 31, 0⟩
def F.IPL_CROP_EN : Fld := ⟨0x0080004C, 0, 0⟩
def F.IPL_CROP_MARGIN : Fld := ⟨0x0080004C, 15, 8⟩
def F.IPL_CTRL_BANK_SEL : Fld := ⟨0x00800000, 1, 1⟩
def F.IPL_CTRL_CH_M1 : Fld := ⟨0x00800000, 18, 16⟩
def F.IPL_CTRL_COMP : Fld := ⟨0x00800000, 2, 2⟩
def F.IPL_CTRL_EN : Fld := ⟨0x00800000, 0, 0⟩
def F.IPL_CTRL_LG : Fld := ⟨0x00800000, 12, 8⟩
def F.IPL_DEF_MC_SEV : Fld := ⟨0x00800048, 7, 4⟩
def F.IPL_DEF_STREAK_SEV : Fld := ⟨0x00800048, 3, 0⟩
def F.IPL_ECC_CORR : Fld := ⟨0x00800034, 31, 0⟩
def F.IPL_ERR : Fld := ⟨0x00800008, 31, 0⟩
def F.IPL_LINE : Fld := ⟨0x00800010, 63, 0⟩
def F.IPL_LINES : Fld := ⟨0x00800018, 63, 0⟩
def F.IPL_MERGE_KNEE : Fld := ⟨0x00800050, 15, 0⟩
def F.IPL_MERGE_SAT : Fld := ⟨0x00800050, 31, 16⟩
def F.IPL_MV_BASE : Fld := ⟨0x008000C0, 63, 0⟩
def F.IPL_MV_CFG_EN : Fld := ⟨0x008000C8, 8, 8⟩
def F.IPL_MV_CFG_LINES_LOG2 : Fld := ⟨0x008000C8, 4, 0⟩
def F.IPL_MV_PROD : Fld := ⟨0x008000D0, 63, 0⟩
def F.IPL_MV_STRIDE : Fld := ⟨0x008000CC, 23, 0⟩
def F.IPL_OUT_BASE (i : Nat) : Fld := ⟨0x00800100 + 0x20 * i, 63, 0⟩
def F.IPL_OUT_CFG_EN (i : Nat) : Fld := ⟨0x00800108 + 0x20 * i, 8, 8⟩
def F.IPL_OUT_CFG_MODE (i : Nat) : Fld := ⟨0x00800108 + 0x20 * i, 9, 9⟩
def F.IPL_OUT_CFG_SIZE_LOG2 (i : Nat) : Fld := ⟨0x00800108 + 0x20 * i, 3, 0⟩
def F.IPL_OUT_CONS (i : Nat) : Fld := ⟨0x00800110 + 0x20 * i, 31, 0⟩
def F.IPL_OUT_ENTRY_SIZE (i : Nat) : Fld := ⟨0x00800118 + 0x20 * i, 23, 0⟩
def F.IPL_OUT_LOST (i : Nat) : Fld := ⟨0x00800114 + 0x20 * i, 31, 0⟩
def F.IPL_OUT_PROD (i : Nat) : Fld := ⟨0x0080010C + 0x20 * i, 31, 0⟩
def F.IPL_SEG_LOST : Fld := ⟨0x0080002C, 31, 0⟩
def F.IPL_SEG_MERGE_X : Fld := ⟨0x00800040, 5, 0⟩
def F.IPL_SEG_MERGE_Y : Fld := ⟨0x00800040, 13, 8⟩
def F.IPL_SLOT_CFG_DELAY (s : Nat) : Fld := ⟨0x00800400 + 0x10 * s, 13, 8⟩
def F.IPL_SLOT_CFG_EN (s : Nat) : Fld := ⟨0x00800400 + 0x10 * s, 0, 0⟩
def F.IPL_SLOT_CFG_PORT (s : Nat) : Fld := ⟨0x00800400 + 0x10 * s, 7, 4⟩
def F.IPL_SLOT_U_END (s : Nat) : Fld := ⟨0x00800408 + 0x10 * s, 16, 0⟩
def F.IPL_SLOT_U_START (s : Nat) : Fld := ⟨0x00800404 + 0x10 * s, 16, 0⟩
def F.IPL_SLOT_VOID_LINES (s : Nat) : Fld := ⟨0x0080040C + 0x10 * s, 31, 0⟩
def F.IPL_STATS_BASE : Fld := ⟨0x00800080, 63, 0⟩
def F.IPL_STATS_CFG_EN : Fld := ⟨0x00800088, 8, 8⟩
def F.IPL_STATS_CFG_EVENT : Fld := ⟨0x00800088, 9, 9⟩
def F.IPL_STATS_CFG_SIZE_LOG2 : Fld := ⟨0x00800088, 3, 0⟩
def F.IPL_STATS_CFG_ZONES : Fld := ⟨0x00800088, 21, 16⟩
def F.IPL_STATS_CONS : Fld := ⟨0x00800090, 31, 0⟩
def F.IPL_STATS_LOST : Fld := ⟨0x00800094, 31, 0⟩
def F.IPL_STATS_PROD : Fld := ⟨0x0080008C, 31, 0⟩
def F.IPL_STAT_ACTIVE_BANK : Fld := ⟨0x00800004, 2, 2⟩
def F.IPL_STAT_CFG_ERR : Fld := ⟨0x00800004, 3, 3⟩
def F.IPL_STAT_STATE : Fld := ⟨0x00800004, 1, 0⟩
def F.IPL_STAT_WR_ACTIVE : Fld := ⟨0x00800004, 4, 4⟩
def F.IPL_STREAKS : Fld := ⟨0x00800030, 31, 0⟩
def F.IPL_STREAK_GAP : Fld := ⟨0x00800044, 23, 16⟩
def F.IPL_STREAK_LEN : Fld := ⟨0x00800044, 15, 0⟩
def F.IPL_VOID_LINES : Fld := ⟨0x00800020, 31, 0⟩
def F.IPL_WIDTH_SW_M1 : Fld := ⟨0x0080000C, 16, 0⟩
/-! R269 -/
def F.IPL_TBL_ADDR : Fld := ⟨0x00801004, 19, 0⟩
def F.IPL_TBL_ECC_UNCORR_ADDR : Fld := ⟨0x0080100C, 19, 0⟩
def F.IPL_TBL_ECC_UNCORR_SEL : Fld := ⟨0x0080100C, 22, 20⟩
def F.IPL_TBL_SEL : Fld := ⟨0x00801000, 2, 0⟩
/-! R270 -/
def F.RRU_BANK_CH_CFG_EN (b c : Nat) : Fld := ⟨0x00401000 + 0x400 * b + 0x40 * c, 0, 0⟩
def F.RRU_BANK_CH_CFG_PBANK (b c : Nat) : Fld := ⟨0x00401000 + 0x400 * b + 0x40 * c, 8, 8⟩
def F.RRU_BANK_CH_CFG_PIPE (b c : Nat) : Fld := ⟨0x00401000 + 0x400 * b + 0x40 * c, 6, 4⟩
def F.RRU_BANK_CH_DIST (b c : Nat) : Fld := ⟨0x00401008 + 0x400 * b + 0x40 * c, 63, 0⟩
def F.RRU_BANK_CH_ORIGIN (b c : Nat) : Fld := ⟨0x00401010 + 0x400 * b + 0x40 * c, 63, 0⟩
def F.RRU_BANK_CH_PITCH (b c : Nat) : Fld := ⟨0x00401018 + 0x400 * b + 0x40 * c, 47, 0⟩
def F.RRU_BANK_CH_XORG (b c : Nat) : Fld := ⟨0x00401004 + 0x400 * b + 0x40 * c, 31, 0⟩
def F.RRU_BANK_CH_XSTEP (b c : Nat) : Fld := ⟨0x00401020 + 0x400 * b + 0x40 * c, 31, 0⟩
def F.RRU_CTRL_BANK_SEL : Fld := ⟨0x00400000, 1, 1⟩
def F.RRU_CTRL_EN : Fld := ⟨0x00400000, 0, 0⟩
def F.RRU_ECC_CORR : Fld := ⟨0x00400034, 31, 0⟩
def F.RRU_ERR : Fld := ⟨0x00400008, 31, 0⟩
def F.RRU_INVALID_FILLS : Fld := ⟨0x00400038, 31, 0⟩
def F.RRU_LATE : Fld := ⟨0x00400030, 31, 0⟩
def F.RRU_LINE : Fld := ⟨0x00400010, 63, 0⟩
def F.RRU_SNAP_RETIRED : Fld := ⟨0x00400020, 63, 0⟩
def F.RRU_SNAP_TAKEN : Fld := ⟨0x00400018, 63, 0⟩
def F.RRU_SNAP_WATCH : Fld := ⟨0x00400028, 63, 0⟩
def F.RRU_STAT_ACTIVE_BANK : Fld := ⟨0x00400004, 2, 2⟩
def F.RRU_STAT_CFG_ERR : Fld := ⟨0x00400004, 3, 3⟩
def F.RRU_STAT_STATE : Fld := ⟨0x00400004, 1, 0⟩
def F.RRU_STAT_WR_ACTIVE : Fld := ⟨0x00400004, 4, 4⟩
/-! R292 -/
def F.DFQ_ADMITTED : Fld := ⟨0x00900028, 63, 0⟩
def F.DFQ_CTRL_ALERT_SEV : Fld := ⟨0x00900000, 11, 8⟩
def F.DFQ_CTRL_EN : Fld := ⟨0x00900000, 0, 0⟩
def F.DFQ_DRAIN_BASE : Fld := ⟨0x00900300, 63, 0⟩
def F.DFQ_DRAIN_CFG_EN : Fld := ⟨0x00900308, 8, 8⟩
def F.DFQ_DRAIN_CFG_EVENT : Fld := ⟨0x00900308, 9, 9⟩
def F.DFQ_DRAIN_CFG_MIN_SEV : Fld := ⟨0x00900308, 15, 12⟩
def F.DFQ_DRAIN_CFG_SIZE_LOG2 : Fld := ⟨0x00900308, 4, 0⟩
def F.DFQ_DRAIN_CONS : Fld := ⟨0x00900310, 31, 0⟩
def F.DFQ_DRAIN_PROD : Fld := ⟨0x0090030C, 31, 0⟩
def F.DFQ_DROPPED : Fld := ⟨0x00900018, 31, 0⟩
def F.DFQ_ERR : Fld := ⟨0x00900008, 31, 0⟩
def F.DFQ_FILL_WATCH : Fld := ⟨0x00900020, 12, 0⟩
def F.DFQ_FLR_LOST : Fld := ⟨0x00900034, 31, 0⟩
def F.DFQ_FLUSHED : Fld := ⟨0x0090001C, 31, 0⟩
def F.DFQ_LOST : Fld := ⟨0x00900010, 31, 0⟩
def F.DFQ_LOST_RECORDS : Fld := ⟨0x00900014, 31, 0⟩
def F.DFQ_NEXT_ID : Fld := ⟨0x0090000C, 31, 0⟩
def F.DFQ_PEAK : Fld := ⟨0x00900024, 12, 0⟩
def F.DFQ_SEV_RP_DP : Fld := ⟨0x00900030, 3, 0⟩
def F.DFQ_SEV_SIG : Fld := ⟨0x00900030, 7, 4⟩
def F.DFQ_STAT_EMPTY : Fld := ⟨0x00900004, 13, 13⟩
def F.DFQ_STAT_FILL : Fld := ⟨0x00900004, 12, 0⟩
def F.DFQ_STAT_LOST_SEV : Fld := ⟨0x00900004, 31, 16⟩
/-! R321 -/
def F.FAB_CTRL_AUTO_ARM : Fld := ⟨0x00A00000, 3, 3⟩
def F.FAB_CTRL_TWIN : Fld := ⟨0x00A00000, 4, 4⟩
def F.FAB_DIGEST (i : Nat) : Fld := ⟨0x00A00080 + 0x4 * i, 31, 0⟩
def F.FAB_ERR : Fld := ⟨0x00A00008, 31, 0⟩
def F.FAB_ERR_INDEX : Fld := ⟨0x00A0000C, 31, 0⟩
def F.FAB_IMAGE_ID : Fld := ⟨0x00A00028, 31, 0⟩
def F.FAB_JOB_ID : Fld := ⟨0x00A0002C, 31, 0⟩
def F.FAB_LOAD_BASE : Fld := ⟨0x00A00010, 63, 0⟩
def F.FAB_LOAD_LEN : Fld := ⟨0x00A00018, 31, 0⟩
def F.FAB_MASK : Fld := ⟨0x00A00030, 9, 0⟩
def F.FAB_MISS_WCO : Fld := ⟨0x00A00038, 63, 0⟩
def F.FAB_POS : Fld := ⟨0x00A0001C, 31, 0⟩
def F.FAB_QUEUED : Fld := ⟨0x00A00040, 10, 0⟩
def F.FAB_SPLICE_WCO : Fld := ⟨0x00A00020, 63, 0⟩
def F.FAB_STAT_FAILED_SEEN : Fld := ⟨0x00A00004, 4, 4⟩
def F.FAB_STAT_LOCKED : Fld := ⟨0x00A00004, 5, 5⟩
def F.FAB_STAT_MISSED : Fld := ⟨0x00A00004, 27, 18⟩
def F.FAB_STAT_SPLICE_MISSED : Fld := ⟨0x00A00004, 3, 3⟩
def F.FAB_STAT_SPLICE_VALID : Fld := ⟨0x00A00004, 6, 6⟩
def F.FAB_STAT_STATE : Fld := ⟨0x00A00004, 2, 0⟩
def F.FAB_STAT_SWITCHED : Fld := ⟨0x00A00004, 17, 8⟩
def F.FAB_STAT_TWIN_GO : Fld := ⟨0x00A00004, 7, 7⟩
def F.FAB_ST_OFFSET (s : Nat) : Fld := ⟨0x00A00100 + 0x8 * s, 63, 0⟩
def F.FAB_ST_SWLINE (s : Nat) : Fld := ⟨0x00A00200 + 0x8 * s, 63, 0⟩
def F.FAB_TWIN_MARGIN : Fld := ⟨0x00A00034, 31, 0⟩
/-! R346 -/
def F.ENGINE_ARG (e : Nat) : Fld := ⟨0x00B01010 + 0x40 * e, 63, 0⟩
def F.ENGINE_ECC_CORR (e : Nat) : Fld := ⟨0x00B01024 + 0x40 * e, 31, 0⟩
def F.ENGINE_EV_PENDING (e : Nat) : Fld := ⟨0x00B01020 + 0x40 * e, 7, 0⟩
def F.ENGINE_FAULT_ADDR (e : Nat) : Fld := ⟨0x00B01018 + 0x40 * e, 63, 0⟩
def F.ENGINE_PC (e : Nat) : Fld := ⟨0x00B01008 + 0x40 * e, 63, 0⟩
def F.ENGINE_STAT_FAULT_CAUSE (e : Nat) : Fld := ⟨0x00B01000 + 0x40 * e, 27, 16⟩
def F.ENGINE_STAT_HALT_CODE (e : Nat) : Fld := ⟨0x00B01000 + 0x40 * e, 15, 8⟩
def F.ENGINE_STAT_STATE (e : Nat) : Fld := ⟨0x00B01000 + 0x40 * e, 2, 0⟩
def F.ENG_CL_BANK_CONFLICTS (n : Nat) : Fld := ⟨0x00B04008 + 0x10 * n, 31, 0⟩
def F.ENG_CL_ECC_CORR (n : Nat) : Fld := ⟨0x00B04000 + 0x10 * n, 31, 0⟩
def F.ENG_CL_UNCORR_ADDR (n : Nat) : Fld := ⟨0x00B04004 + 0x10 * n, 20, 0⟩
def F.ENG_ERR : Fld := ⟨0x00B00008, 31, 0⟩
def F.ENG_FAULTED (w : Nat) : Fld := ⟨0x00B000C0 + 0x4 * w, 31, 0⟩
def F.ENG_RUNNING (w : Nat) : Fld := ⟨0x00B000A0 + 0x4 * w, 31, 0⟩
def F.ENG_SIG_MERGED : Fld := ⟨0x00B00010, 31, 0⟩
def F.ENG_STAT : Fld := ⟨0x00B00000, 31, 0⟩
/-! R363 -/
def F.EVF_CH_ACT_CFG_OWNER (n : Nat) : Fld := ⟨0x00C05000 + 0x20 * n, 14, 12⟩
def F.EVF_CH_ACT_CFG_SECURE (n : Nat) : Fld := ⟨0x00C05000 + 0x20 * n, 15, 15⟩
def F.EVF_CH_CFG_DIRTY (n : Nat) : Fld := ⟨0x00C01000 + 0x20 * n, 31, 31⟩
def F.EVF_CH_CFG_OWNER (n : Nat) : Fld := ⟨0x00C01000 + 0x20 * n, 14, 12⟩
def F.EVF_CH_CFG_SECURE (n : Nat) : Fld := ⟨0x00C01000 + 0x20 * n, 15, 15⟩
def F.EVF_CH_DELIVERED (n : Nat) : Fld := ⟨0x00C09000 + 0x10 * n, 31, 0⟩
def F.EVF_CH_LOOP (n : Nat) : Fld := ⟨0x00C09004 + 0x10 * n, 0, 0⟩
def F.EVF_CH_LOOP_DROPS (n : Nat) : Fld := ⟨0x00C09008 + 0x10 * n, 31, 0⟩
def F.EVF_ERR : Fld := ⟨0x00C0000C, 31, 0⟩
def F.EVF_LOOP_DROPS : Fld := ⟨0x00C00010, 31, 0⟩
def F.EVF_TASK_COALESCE (t : Nat) : Fld := ⟨0x00C10000 + 0x4 * t, 15, 0⟩
def F.EVF_TASK_OVERRUN (t : Nat) : Fld := ⟨0x00C10000 + 0x4 * t, 16, 16⟩
def F.EVF_TMR_CFG_EN (t : Nat) : Fld := ⟨0x00C0B000 + 0x10 * t, 0, 0⟩
def F.EVF_TMR_CFG_OVERRUN (t : Nat) : Fld := ⟨0x00C0B000 + 0x10 * t, 3, 3⟩
def F.EVF_TMR_CFG_OWNER (t : Nat) : Fld := ⟨0x00C0B000 + 0x10 * t, 6, 4⟩
def F.EVF_TMR_CFG_RETRIG (t : Nat) : Fld := ⟨0x00C0B000 + 0x10 * t, 1, 1⟩
def F.EVF_TMR_CFG_RUNNING (t : Nat) : Fld := ⟨0x00C0B000 + 0x10 * t, 2, 2⟩
def F.EVF_TMR_DELAY (t : Nat) : Fld := ⟨0x00C0B004 + 0x10 * t, 31, 0⟩
def F.EVF_TMR_FIRES (t : Nat) : Fld := ⟨0x00C0B008 + 0x10 * t, 31, 0⟩
/-! R390 -/
def F.DMA_CH_DB_EMPTY (c : Nat) : Fld := ⟨0x00D0102C + 0x80 * c, 31, 0⟩
def F.DMA_CH_DB_LOST (c : Nat) : Fld := ⟨0x00D0100C + 0x80 * c, 31, 0⟩
def F.DMA_CH_ERR_ADDR (c : Nat) : Fld := ⟨0x00D01030 + 0x80 * c, 63, 0⟩
def F.DMA_CH_ERR_DONE (c : Nat) : Fld := ⟨0x00D0103C + 0x80 * c, 31, 0⟩
def F.DMA_CH_ERR_INFO_DIR (c : Nat) : Fld := ⟨0x00D01038 + 0x80 * c, 0, 0⟩
def F.DMA_CH_ERR_INFO_FETCH (c : Nat) : Fld := ⟨0x00D01038 + 0x80 * c, 1, 1⟩
def F.DMA_CH_ERR_INFO_KIND (c : Nat) : Fld := ⟨0x00D01038 + 0x80 * c, 6, 4⟩
def F.DMA_CH_LAST_DL (c : Nat) : Fld := ⟨0x00D01018 + 0x80 * c, 63, 0⟩
def F.DMA_CH_LOOP0 (c : Nat) : Fld := ⟨0x00D01020 + 0x80 * c, 31, 0⟩
def F.DMA_CH_LOOP1 (c : Nat) : Fld := ⟨0x00D01024 + 0x80 * c, 31, 0⟩
def F.DMA_CH_LOOP_ACT (c : Nat) : Fld := ⟨0x00D01028 + 0x80 * c, 1, 0⟩
def F.DMA_CH_MOVED (c : Nat) : Fld := ⟨0x00D01078 + 0x80 * c, 63, 0⟩
def F.DMA_CH_OWN_OWNER (c : Nat) : Fld := ⟨0x00D00100 + 0x4 * c, 2, 0⟩
def F.DMA_CH_PC (c : Nat) : Fld := ⟨0x00D01010 + 0x80 * c, 63, 0⟩
def F.DMA_CH_PUB_ADDR (c : Nat) : Fld := ⟨0x00D01070 + 0x80 * c, 25, 0⟩
def F.DMA_CH_RING0_BASE (c : Nat) : Fld := ⟨0x00D01040 + 0x80 * c, 63, 0⟩
def F.DMA_CH_RING0_PTR (c : Nat) : Fld := ⟨0x00D01050 + 0x80 * c, 63, 0⟩
def F.DMA_CH_RING0_SIZE_LOG2 (c : Nat) : Fld := ⟨0x00D01048 + 0x80 * c, 5, 0⟩
def F.DMA_CH_RING1_BASE (c : Nat) : Fld := ⟨0x00D01058 + 0x80 * c, 63, 0⟩
def F.DMA_CH_RING1_PTR (c : Nat) : Fld := ⟨0x00D01068 + 0x80 * c, 63, 0⟩
def F.DMA_CH_RING1_SIZE_LOG2 (c : Nat) : Fld := ⟨0x00D01060 + 0x80 * c, 5, 0⟩
def F.DMA_CH_STAT_CAUSE (c : Nat) : Fld := ⟨0x00D01004 + 0x80 * c, 19, 8⟩
def F.DMA_CH_STAT_DB_PEND (c : Nat) : Fld := ⟨0x00D01004 + 0x80 * c, 3, 3⟩
def F.DMA_CH_STAT_EV_PEND (c : Nat) : Fld := ⟨0x00D01004 + 0x80 * c, 4, 4⟩
def F.DMA_CH_STAT_STATE (c : Nat) : Fld := ⟨0x00D01004 + 0x80 * c, 2, 0⟩
def F.DMA_ENDWAIT : Fld := ⟨0x00D00008, 31, 0⟩
def F.DMA_ERR : Fld := ⟨0x00D00000, 31, 0⟩
def F.DMA_HALTED : Fld := ⟨0x00D00004, 31, 0⟩
/-! R420 -/
def F.MEM_ARB_BURST : Fld := ⟨0x00E08040, 7, 0⟩
def F.MEM_ARB_HOLD_LIMIT : Fld := ⟨0x00E08040, 17, 8⟩
def F.MEM_CHMAP_CH_LOG2 : Fld := ⟨0x00E08018, 2, 0⟩
def F.MEM_CHMAP_LIST : Fld := ⟨0x00E08020, 63, 0⟩
def F.MEM_CTRL_BLOCK_RT_SR : Fld := ⟨0x00E08000, 4, 4⟩
def F.MEM_CTRL_COMPAT : Fld := ⟨0x00E08000, 2, 2⟩
def F.MEM_CTRL_ECC_EN : Fld := ⟨0x00E08000, 1, 1⟩
def F.MEM_CTRL_OPEN : Fld := ⟨0x00E08000, 0, 0⟩
def F.MEM_ERR : Fld := ⟨0x00E08008, 31, 0⟩
def F.MEM_PAGE_HIT_CAP : Fld := ⟨0x00E08028, 20, 16⟩
def F.MEM_PAGE_OPEN_MAX : Fld := ⟨0x00E08028, 15, 0⟩
def F.MEM_PORT_CFG_HOLD_CUT (p : Nat) : Fld := ⟨0x00E08200 + 0x20 * p, 3, 3⟩
def F.MEM_PORT_CFG_PRIO (p : Nat) : Fld := ⟨0x00E08200 + 0x20 * p, 2, 0⟩
def F.MEM_PORT_GRANTS (p : Nat) : Fld := ⟨0x00E08208 + 0x20 * p, 63, 0⟩
def F.MEM_PORT_HOLD_CUTS (p : Nat) : Fld := ⟨0x00E08218 + 0x20 * p, 31, 0⟩
def F.MEM_PORT_MAX_WAIT (p : Nat) : Fld := ⟨0x00E08204 + 0x20 * p, 31, 0⟩
def F.MEM_PORT_WAITS (p : Nat) : Fld := ⟨0x00E08210 + 0x20 * p, 63, 0⟩
def F.MEM_RD_EN : Fld := ⟨0x00E08030, 16, 16⟩
def F.MEM_RD_THRESH : Fld := ⟨0x00E08030, 15, 0⟩
def F.MEM_SLOT_COPYB_PORT (i : Nat) : Fld := ⟨0x00E09200 + 0x4 * i, 5, 0⟩
def F.MEM_SLOT_PORT (i : Nat) : Fld := ⟨0x00E09000 + 0x4 * i, 5, 0⟩
def F.MEM_SR_IDLE : Fld := ⟨0x00E0802C, 31, 0⟩
def F.MEM_STAT_ACTIVE_COPY : Fld := ⟨0x00E08004, 1, 1⟩
def F.MEM_STAT_ACTIVE_WRITE : Fld := ⟨0x00E08004, 3, 3⟩
def F.MEM_STAT_FENCED : Fld := ⟨0x00E08004, 31, 16⟩
def F.MEM_STAT_INIT_DONE : Fld := ⟨0x00E08004, 0, 0⟩
def F.MEM_STAT_SWAP_PEND : Fld := ⟨0x00E08004, 2, 2⟩
def F.MEM_TRAIN_TRACK_PERIOD : Fld := ⟨0x00E08034, 15, 0⟩
/-! R421 -/
def F.MC_CAP_EVENTS (n : Nat) : Fld := ⟨0x00E0003C + 0x10000 * n, 31, 0⟩
def F.MC_ECC_CORR (n : Nat) : Fld := ⟨0x00E00008 + 0x10000 * n, 31, 0⟩
def F.MC_ECC_UNCORR (n : Nat) : Fld := ⟨0x00E0000C + 0x10000 * n, 31, 0⟩
def F.MC_FENCED_ACC (n : Nat) : Fld := ⟨0x00E00040 + 0x10000 * n, 31, 0⟩
def F.MC_LAST_TRAIN (n : Nat) : Fld := ⟨0x00E00020 + 0x10000 * n, 63, 0⟩
def F.MC_LAST_UNCORR (n : Nat) : Fld := ⟨0x00E00010 + 0x10000 * n, 63, 0⟩
def F.MC_RD_REFRESHES (n : Nat) : Fld := ⟨0x00E0002C + 0x10000 * n, 31, 0⟩
def F.MC_ROW_HITS (n : Nat) : Fld := ⟨0x00E00034 + 0x10000 * n, 31, 0⟩
def F.MC_ROW_MISSES (n : Nat) : Fld := ⟨0x00E00038 + 0x10000 * n, 31, 0⟩
def F.MC_SR_ENTRIES (n : Nat) : Fld := ⟨0x00E00030 + 0x10000 * n, 31, 0⟩
def F.MC_STAT_LAST_GOOD (n : Nat) : Fld := ⟨0x00E00000 + 0x10000 * n, 4, 4⟩
def F.MC_STAT_RETRAIN_FAIL (n : Nat) : Fld := ⟨0x00E00000 + 0x10000 * n, 5, 5⟩
def F.MC_STAT_SR (n : Nat) : Fld := ⟨0x00E00000 + 0x10000 * n, 3, 3⟩
def F.MC_STAT_STATE (n : Nat) : Fld := ⟨0x00E00000 + 0x10000 * n, 2, 0⟩
def F.MC_TRAIN_COUNT (n : Nat) : Fld := ⟨0x00E00018 + 0x10000 * n, 31, 0⟩
def F.MC_TRAIN_FAILS (n : Nat) : Fld := ⟨0x00E0001C + 0x10000 * n, 31, 0⟩
def F.MC_TRAIN_MARGIN_CA_EYE (n : Nat) : Fld := ⟨0x00E00028 + 0x10000 * n, 23, 16⟩
def F.MC_TRAIN_MARGIN_RD_EYE (n : Nat) : Fld := ⟨0x00E00028 + 0x10000 * n, 7, 0⟩
def F.MC_TRAIN_MARGIN_WR_EYE (n : Nat) : Fld := ⟨0x00E00028 + 0x10000 * n, 15, 8⟩
/-! R451 -/
def F.FVL_DOWN_SEEN : Fld := ⟨0x00F00010, 63, 0⟩
def F.FVL_EP (a : Nat) : Fld := ⟨0x00F04000 + 0x4 * a, 31, 0⟩
def F.FVL_EP_PORT (a : Nat) : Fld := ⟨0x00F04000 + 0x4 * a, 5, 0⟩
def F.FVL_EP_LEARNED (a : Nat) : Fld := ⟨0x00F04000 + 0x4 * a, 7, 7⟩
def F.FVL_EP_VALID (a : Nat) : Fld := ⟨0x00F04000 + 0x4 * a, 6, 6⟩
def F.FVL_ERR : Fld := ⟨0x00F00000, 31, 0⟩
def F.FVL_EVRX_BASE : Fld := ⟨0x00F00200, 63, 0⟩
def F.FVL_EVRX_CFG_EN : Fld := ⟨0x00F00208, 8, 8⟩
def F.FVL_EVRX_CFG_SIZE_LOG2 : Fld := ⟨0x00F00208, 4, 0⟩
def F.FVL_EVRX_CONS : Fld := ⟨0x00F00210, 31, 0⟩
def F.FVL_EVRX_LOST : Fld := ⟨0x00F00214, 31, 0⟩
def F.FVL_EVRX_PROD : Fld := ⟨0x00F0020C, 31, 0⟩
def F.FVL_PORT_CFG (p : Nat) : Fld := ⟨0x00F01000 + 0x80 * p, 31, 0⟩
def F.FVL_PORT_CFG_EN (p : Nat) : Fld := ⟨0x00F01000 + 0x80 * p, 0, 0⟩
def F.FVL_PORT_CFG_MAX_RATE (p : Nat) : Fld := ⟨0x00F01000 + 0x80 * p, 3, 1⟩
def F.FVL_PORT_CFG_REPLAY_NUM (p : Nat) : Fld := ⟨0x00F01000 + 0x80 * p, 11, 8⟩
def F.FVL_PORT_CFG_SLEEP_EN (p : Nat) : Fld := ⟨0x00F01000 + 0x80 * p, 4, 4⟩
def F.FVL_PORT_CFG_SLEEP_IDLE (p : Nat) : Fld := ⟨0x00F01000 + 0x80 * p, 31, 16⟩
def F.FVL_PORT_CRC_ERRS (p : Nat) : Fld := ⟨0x00F01038 + 0x80 * p, 31, 0⟩
def F.FVL_PORT_CR_CPL (p : Nat) : Fld := ⟨0x00F01014 + 0x80 * p, 15, 0⟩
def F.FVL_PORT_CR_CR_NP (p : Nat) : Fld := ⟨0x00F01010 + 0x80 * p, 31, 16⟩
def F.FVL_PORT_CR_CR_P (p : Nat) : Fld := ⟨0x00F01010 + 0x80 * p, 15, 0⟩
def F.FVL_PORT_DELAY (p : Nat) : Fld := ⟨0x00F01020 + 0x80 * p, 31, 0⟩
def F.FVL_PORT_DROPPED (p : Nat) : Fld := ⟨0x00F0104C + 0x80 * p, 31, 0⟩
def F.FVL_PORT_FRAMES_RX (p : Nat) : Fld := ⟨0x00F01030 + 0x80 * p, 63, 0⟩
def F.FVL_PORT_FRAMES_TX (p : Nat) : Fld := ⟨0x00F01028 + 0x80 * p, 63, 0⟩
def F.FVL_PORT_LANE_MAP_ORDER (p : Nat) : Fld := ⟨0x00F01008 + 0x80 * p, 23, 0⟩
def F.FVL_PORT_LANE_MAP_POLARITY (p : Nat) : Fld := ⟨0x00F01008 + 0x80 * p, 31, 24⟩
def F.FVL_PORT_LAST_UP (p : Nat) : Fld := ⟨0x00F01060 + 0x80 * p, 63, 0⟩
def F.FVL_PORT_BUF_ECC_CORR (p : Nat) : Fld := ⟨0x00F01058 + 0x80 * p, 31, 0⟩
def F.FVL_PORT_LINK_DOWNS (p : Nat) : Fld := ⟨0x00F01048 + 0x80 * p, 31, 0⟩
def F.FVL_PORT_NAKS_RX (p : Nat) : Fld := ⟨0x00F0103C + 0x80 * p, 31, 0⟩
def F.FVL_PORT_PARTNER_EP (p : Nat) : Fld := ⟨0x00F0100C + 0x80 * p, 17, 8⟩
def F.FVL_PORT_PARTNER_EP_COUNT_M1 (p : Nat) : Fld := ⟨0x00F0100C + 0x80 * p, 23, 18⟩
def F.FVL_PORT_PARTNER_PROFILE (p : Nat) : Fld := ⟨0x00F0100C + 0x80 * p, 7, 0⟩
def F.FVL_PORT_PARTNER_RATES (p : Nat) : Fld := ⟨0x00F0100C + 0x80 * p, 29, 24⟩
def F.FVL_PORT_REPLAYS (p : Nat) : Fld := ⟨0x00F01040 + 0x80 * p, 31, 0⟩
def F.FVL_PORT_REPLAY_REPLAY_TIME (p : Nat) : Fld := ⟨0x00F01018 + 0x80 * p, 15, 0⟩
def F.FVL_PORT_RETRAINS (p : Nat) : Fld := ⟨0x00F01044 + 0x80 * p, 31, 0⟩
def F.FVL_PORT_SLEEPS (p : Nat) : Fld := ⟨0x00F01054 + 0x80 * p, 31, 0⟩
def F.FVL_PORT_STAT_DEGRADED_WIDTH (p : Nat) : Fld := ⟨0x00F01004 + 0x80 * p, 13, 13⟩
def F.FVL_PORT_STAT_DOWNSHIFTED (p : Nat) : Fld := ⟨0x00F01004 + 0x80 * p, 12, 12⟩
def F.FVL_PORT_STAT_RATE (p : Nat) : Fld := ⟨0x00F01004 + 0x80 * p, 5, 3⟩
def F.FVL_PORT_STAT_RX_SLEEP (p : Nat) : Fld := ⟨0x00F01004 + 0x80 * p, 11, 11⟩
def F.FVL_PORT_STAT_STATE (p : Nat) : Fld := ⟨0x00F01004 + 0x80 * p, 2, 0⟩
def F.FVL_PORT_STAT_TX_SLEEP (p : Nat) : Fld := ⟨0x00F01004 + 0x80 * p, 10, 10⟩
def F.FVL_PORT_STAT_WIDTH_IN (p : Nat) : Fld := ⟨0x00F01004 + 0x80 * p, 7, 6⟩
def F.FVL_PORT_STAT_WIDTH_OUT (p : Nat) : Fld := ⟨0x00F01004 + 0x80 * p, 9, 8⟩
def F.FVL_PORT_SYNC_ERRS (p : Nat) : Fld := ⟨0x00F01050 + 0x80 * p, 31, 0⟩
def F.FVL_PORT_TIME_PERIOD (p : Nat) : Fld := ⟨0x00F0101C + 0x80 * p, 31, 0⟩
def F.FVL_UP : Fld := ⟨0x00F00008, 63, 0⟩
def F.FVL_XACT_ADDR : Fld := ⟨0x00F00108, 31, 0⟩
def F.FVL_XACT_COUNT : Fld := ⟨0x00F0010C, 31, 0⟩
def F.FVL_XACT_CTRL_BUSY : Fld := ⟨0x00F00100, 2, 2⟩
def F.FVL_XACT_CTRL_READ : Fld := ⟨0x00F00100, 1, 1⟩
def F.FVL_XACT_CTRL_STATUS : Fld := ⟨0x00F00100, 10, 8⟩
def F.FVL_XACT_DATA (i : Nat) : Fld := ⟨0x00F00140 + 0x4 * i, 31, 0⟩
def F.FVL_XACT_DEST : Fld := ⟨0x00F00104, 9, 0⟩
/-! R454 -/
def F.MSIX_ADDR_HI (f v : Nat) : Fld := ⟨0x01440004 + 0x1000 * f + 0x10 * v, 31, 0⟩
def F.MSIX_ADDR_LO (f v : Nat) : Fld := ⟨0x01440000 + 0x1000 * f + 0x10 * v, 31, 0⟩
def F.MSIX_CTRL (f v : Nat) : Fld := ⟨0x0144000C + 0x1000 * f + 0x10 * v, 31, 0⟩
def F.MSIX_DATA (f v : Nat) : Fld := ⟨0x01440008 + 0x1000 * f + 0x10 * v, 31, 0⟩
def F.MSIX_PBA (f : Nat) : Fld := ⟨0x01440800 + 0x1000 * f, 31, 0⟩
/-! R464 -/
def F.GPIO_EDGE_CFG0 : Fld := ⟨0x01410018, 31, 0⟩
def F.GPIO_EDGE_CFG1 : Fld := ⟨0x0141001C, 31, 0⟩
def F.GPIO_EDGE_STAT : Fld := ⟨0x01410020, 31, 0⟩
def F.GPIO_IN : Fld := ⟨0x01410000, 31, 0⟩
def F.GPIO_FILT : Fld := ⟨0x01410014, 7, 0⟩
def F.GPIO_OE : Fld := ⟨0x01410010, 31, 0⟩
def F.GPIO_OUT : Fld := ⟨0x01410004, 31, 0⟩
def F.I2C_ADDR : Fld := ⟨0x01411008, 6, 0⟩
def F.I2C_LEN_RLEN : Fld := ⟨0x0141100C, 12, 8⟩
def F.I2C_LEN_WLEN : Fld := ⟨0x0141100C, 4, 0⟩
def F.I2C_RDATA (i : Nat) : Fld := ⟨0x01411030 + 0x4 * i, 31, 0⟩
def F.I2C_STAT_ARB_LOST : Fld := ⟨0x01411010, 4, 4⟩
def F.I2C_CFG_FAST : Fld := ⟨0x01411000, 0, 0⟩
def F.I2C_STAT_BUSY : Fld := ⟨0x01411010, 0, 0⟩
def F.I2C_STAT_BUS_STUCK : Fld := ⟨0x01411010, 6, 6⟩
def F.I2C_STAT_DONE : Fld := ⟨0x01411010, 1, 1⟩
def F.I2C_STAT_ERROR : Fld := ⟨0x01411010, 2, 2⟩
def F.I2C_STAT_NACK : Fld := ⟨0x01411010, 3, 3⟩
def F.I2C_STAT_NACK_BYTE : Fld := ⟨0x01411010, 12, 8⟩
def F.I2C_STAT_TIMEOUT : Fld := ⟨0x01411010, 5, 5⟩
def F.I2C_WDATA (i : Nat) : Fld := ⟨0x01411020 + 0x4 * i, 31, 0⟩
/-! R495 -/
def F.HIF_CLRIGHTS (c : Nat) : Fld := ⟨0x01400100 + 0x4 * c, 5, 0⟩
def F.HIF_ERR : Fld := ⟨0x01400008, 31, 0⟩
def F.HIF_FAB_RIGHTS : Fld := ⟨0x01400040, 5, 0⟩
def F.HIF_LINK_RATE : Fld := ⟨0x01400000, 2, 0⟩
def F.HIF_LINK_UP : Fld := ⟨0x01400000, 7, 7⟩
def F.HIF_LINK_WIDTH : Fld := ⟨0x01400000, 6, 3⟩
def F.HIF_PF_BAR2_BASE (f : Nat) : Fld := ⟨0x01400200 + 0x20 * f, 63, 0⟩
def F.HIF_PF_DISC_INT (f : Nat) : Fld := ⟨0x01400208 + 0x20 * f, 31, 0⟩
def F.HIF_PF_FLR_COUNT (f : Nat) : Fld := ⟨0x0140020C + 0x20 * f, 31, 0⟩
def F.HIF_REFUSED : Fld := ⟨0x0140000C, 31, 0⟩
/-! R496 -/
def F.NET_PTP_CTRL_AUTO_RECOVER : Fld := ⟨0x01488000, 2, 2⟩
def F.NET_PTP_CTRL_DOMAIN : Fld := ⟨0x01488000, 15, 8⟩
def F.NET_PTP_CTRL_MASTER_EN : Fld := ⟨0x01488000, 3, 3⟩
def F.NET_PTP_CTRL_MODE : Fld := ⟨0x01488000, 1, 0⟩
def F.NET_PTP_LOSS : Fld := ⟨0x0148802C, 31, 0⟩
def F.NET_PTP_MAP_CFG_AVG_LOG2 : Fld := ⟨0x01488080, 19, 16⟩
def F.NET_PTP_MAP_CFG_PERIOD : Fld := ⟨0x01488080, 15, 0⟩
def F.NET_PTP_MAP_STAT_HOLDOVER : Fld := ⟨0x01488084, 0, 0⟩
def F.NET_PTP_MASTER_ID : Fld := ⟨0x01488020, 63, 0⟩
def F.NET_PTP_MASTER_PORT : Fld := ⟨0x01488028, 15, 0⟩
def F.NET_PTP_RATE : Fld := ⟨0x01488014, 31, 0⟩
def F.NET_PTP_STAT_HOLDOVER : Fld := ⟨0x01488004, 0, 0⟩
def F.NET_PTP_STAT_TSQ_FILL : Fld := ⟨0x01488004, 8, 2⟩
def F.NET_PTP_STAT_TSQ_OVERFLOW : Fld := ⟨0x01488004, 1, 1⟩
def F.NET_PTP_TSQ_LOST : Fld := ⟨0x01488030, 31, 0⟩
def F.NET_P_CFG_EN (n : Nat) : Fld := ⟨0x01481000 + 0x1000 * n, 0, 0⟩
def F.NET_P_CFG_MODE (n : Nat) : Fld := ⟨0x01481000 + 0x1000 * n, 2, 1⟩
def F.NET_P_CFG_LATE_DROP (n : Nat) : Fld := ⟨0x01481000 + 0x1000 * n, 6, 6⟩
def F.NET_P_CFG_TILE_RING (n : Nat) : Fld := ⟨0x01481000 + 0x1000 * n, 9, 8⟩
def F.NET_P_FCS_ERRS (n : Nat) : Fld := ⟨0x0148106C + 0x1000 * n, 31, 0⟩
def F.NET_P_LATE_LIMIT (n : Nat) : Fld := ⟨0x01481054 + 0x1000 * n, 31, 0⟩
def F.NET_P_LAT_RX_LAT (n : Nat) : Fld := ⟨0x01481050 + 0x1000 * n, 31, 16⟩
def F.NET_P_LAT_TX_LAT (n : Nat) : Fld := ⟨0x01481050 + 0x1000 * n, 15, 0⟩
def F.NET_P_MAC_ADDR (n : Nat) : Fld := ⟨0x01481008 + 0x1000 * n, 47, 0⟩
def F.NET_P_MCAST (n i : Nat) : Fld := ⟨0x01481010 + 0x1000 * n + 0x8 * i, 63, 0⟩
def F.NET_P_PAUSE_RX (n : Nat) : Fld := ⟨0x01481070 + 0x1000 * n, 31, 0⟩
def F.NET_P_RX_BASE (n : Nat) : Fld := ⟨0x01481080 + 0x1000 * n, 63, 0⟩
def F.NET_P_RX_CFG_EN (n : Nat) : Fld := ⟨0x01481088 + 0x1000 * n, 8, 8⟩
def F.NET_P_RX_CFG_RX_SIZE_LOG2 (n : Nat) : Fld := ⟨0x01481088 + 0x1000 * n, 4, 0⟩
def F.NET_P_RX_CONS (n : Nat) : Fld := ⟨0x01481090 + 0x1000 * n, 31, 0⟩
def F.NET_P_RX_LONG (n : Nat) : Fld := ⟨0x01481068 + 0x1000 * n, 31, 0⟩
def F.NET_P_RX_LOST (n : Nat) : Fld := ⟨0x01481064 + 0x1000 * n, 31, 0⟩
def F.NET_P_RX_PROD (n : Nat) : Fld := ⟨0x0148108C + 0x1000 * n, 31, 0⟩
def F.NET_P_STAT_AN_DONE (n : Nat) : Fld := ⟨0x01481004 + 0x1000 * n, 1, 1⟩
def F.NET_P_STAT_LINK_UP (n : Nat) : Fld := ⟨0x01481004 + 0x1000 * n, 0, 0⟩
def F.NET_P_TILE_LOST (n : Nat) : Fld := ⟨0x01481060 + 0x1000 * n, 31, 0⟩
def F.NET_P_TILE_SEQ (n : Nat) : Fld := ⟨0x01481058 + 0x1000 * n, 15, 0⟩
def F.NET_P_TX_BASE (n q : Nat) : Fld := ⟨0x01481100 + 0x1000 * n + 0x20 * q, 63, 0⟩
def F.NET_P_TX_CFG_EN (n q : Nat) : Fld := ⟨0x01481108 + 0x1000 * n + 0x20 * q, 8, 8⟩
def F.NET_P_TX_CFG_TX_SIZE_LOG2 (n q : Nat) : Fld := ⟨0x01481108 + 0x1000 * n + 0x20 * q, 4, 0⟩
def F.NET_P_TX_CONS (n q : Nat) : Fld := ⟨0x01481110 + 0x1000 * n + 0x20 * q, 31, 0⟩
def F.NET_P_TX_PROD (n q : Nat) : Fld := ⟨0x0148110C + 0x1000 * n + 0x20 * q, 31, 0⟩
/-! R497 -/
def F.TWN_CASTLE_WCO : Fld := ⟨0x01700010, 63, 0⟩
def F.TWN_CASTLINGS : Fld := ⟨0x01700054, 31, 0⟩
def F.TWN_CTRL_EN : Fld := ⟨0x01700000, 0, 0⟩
def F.TWN_CTRL_ETH_PORT : Fld := ⟨0x01700000, 7, 7⟩
def F.TWN_CTRL_FWD_DEFECTS : Fld := ⟨0x01700000, 5, 5⟩
def F.TWN_CTRL_KEEP_WCO : Fld := ⟨0x01700000, 3, 3⟩
def F.TWN_CTRL_MIRROR_NT : Fld := ⟨0x01700000, 4, 4⟩
def F.TWN_CTRL_OWNER_BIND : Fld := ⟨0x01700000, 2, 2⟩
def F.TWN_CTRL_RING_MIRROR : Fld := ⟨0x01700000, 11, 8⟩
def F.TWN_CTRL_ROLE : Fld := ⟨0x01700000, 1, 1⟩
def F.TWN_EPOCH : Fld := ⟨0x0170000C, 31, 0⟩
def F.TWN_ERR : Fld := ⟨0x01700008, 31, 0⟩
def F.TWN_HB_HB_ETH_PERIOD : Fld := ⟨0x01700018, 31, 16⟩
def F.TWN_HB_HB_PERIOD : Fld := ⟨0x01700018, 15, 0⟩
def F.TWN_HB_LOSS : Fld := ⟨0x0170001C, 31, 0⟩
def F.TWN_LAST_CASTLE : Fld := ⟨0x01700058, 63, 0⟩
def F.TWN_PARTNER_CAMS : Fld := ⟨0x01700028, 15, 0⟩
def F.TWN_PARTNER_MAC : Fld := ⟨0x01700020, 47, 0⟩
def F.TWN_PARTNER_SERIAL (i : Nat) : Fld := ⟨0x01700060 + 0x4 * i, 31, 0⟩
def F.TWN_SIG_BAD : Fld := ⟨0x01700048, 31, 0⟩
def F.TWN_SIG_MISSING : Fld := ⟨0x01700050, 31, 0⟩
def F.TWN_SIG_OK : Fld := ⟨0x01700044, 31, 0⟩
def F.TWN_SIG_UNCOMPARED : Fld := ⟨0x0170004C, 31, 0⟩
def F.TWN_SIG_WAIT : Fld := ⟨0x01700040, 31, 0⟩
def F.TWN_STAT_HB_ETH_LOST : Fld := ⟨0x01700004, 5, 5⟩
def F.TWN_STAT_HB_LINK_LOST : Fld := ⟨0x01700004, 4, 4⟩
def F.TWN_STAT_PARTNER_LOST : Fld := ⟨0x01700004, 3, 3⟩
def F.TWN_STAT_STATE : Fld := ⟨0x01700004, 2, 0⟩
def F.TWN_STAT_WCO_MISMATCH : Fld := ⟨0x01700004, 6, 6⟩
def F.TWN_TEMPO_OFFSET : Fld := ⟨0x01700038, 63, 0⟩
def F.TWN_WCO_LIMIT : Fld := ⟨0x01700034, 31, 0⟩
/-! R529 -/
def F.SEC_ATTEST_R (i : Nat) : Fld := ⟨0x00001200 + 0x4 * i, 31, 0⟩
def F.SEC_ATTEST_S (i : Nat) : Fld := ⟨0x00001240 + 0x4 * i, 31, 0⟩
def F.SEC_CMD (i : Nat) : Fld := ⟨0x00001000 + 0x4 * i, 31, 0⟩
def F.SEC_CMD_STAT_BUSY : Fld := ⟨0x00001104, 0, 0⟩
def F.SEC_CMD_STAT_CAUSE : Fld := ⟨0x00001104, 27, 16⟩
def F.SEC_CMD_STAT_DONE : Fld := ⟨0x00001104, 1, 1⟩
def F.SEC_CMD_STAT_REFUSED : Fld := ⟨0x00001104, 2, 2⟩
def F.SEC_DOMAIN_CLUSTERS : Fld := ⟨0x0000001C, 11, 0⟩
def F.SEC_DOMAIN_LOCK : Fld := ⟨0x0000001C, 31, 31⟩
def F.SEC_ERR : Fld := ⟨0x00000008, 31, 0⟩
def F.SEC_FUSE_FUSE_FAULT : Fld := ⟨0x00000018, 15, 12⟩
def F.SEC_FUSE_SECURE_BOOT : Fld := ⟨0x00000018, 0, 0⟩
def F.SEC_FUSE_SLOT : Fld := ⟨0x00000018, 11, 4⟩
def F.SEC_OWNER_KEY (k i : Nat) : Fld := ⟨0x00000100 + 0x40 * k + 0x4 * i, 31, 0⟩
/-! R530 -/
def F.CAL_CFG_DELTA : Fld := ⟨0x0160000C, 11, 0⟩
def F.CAL_COUNT : Fld := ⟨0x01600010, 31, 0⟩
def F.CAL_CTRL_AUTO : Fld := ⟨0x01600000, 1, 1⟩
def F.CAL_DELTA_MAX_HEAD : Fld := ⟨0x01600020, 14, 8⟩
def F.CAL_DELTA_MAX_STEPS : Fld := ⟨0x01600020, 7, 0⟩
def F.CAL_ERR : Fld := ⟨0x01600008, 31, 0⟩
def F.CAL_LAST_TEMPO : Fld := ⟨0x01600018, 63, 0⟩
def F.CAL_SENS_BASE (i : Nat) : Fld := ⟨0x01600040 + 0x8 * i, 31, 16⟩
def F.CAL_SENS_TEMP (i : Nat) : Fld := ⟨0x01600040 + 0x8 * i, 15, 0⟩
def F.CAL_SENS_TRIM_TRIM (i : Nat) : Fld := ⟨0x01600044 + 0x8 * i, 7, 0⟩
def F.CAL_SENS_TRIM_VALID (i : Nat) : Fld := ⟨0x01600044 + 0x8 * i, 8, 8⟩
def F.CAL_STAT_ALARM : Fld := ⟨0x01600004, 5, 5⟩
def F.CAL_STAT_ALARM_SEEN : Fld := ⟨0x01600004, 7, 7⟩
def F.CAL_STAT_PENDING : Fld := ⟨0x01600004, 2, 2⟩
def F.CAL_STAT_SAT : Fld := ⟨0x01600004, 3, 3⟩
def F.CAL_STAT_SENSOR_FAULT : Fld := ⟨0x01600004, 8, 8⟩
def F.CAL_STAT_STATE : Fld := ⟨0x01600004, 1, 0⟩
def F.CAL_STAT_WARN : Fld := ⟨0x01600004, 4, 4⟩
def F.CAL_STAT_WARN_SEEN : Fld := ⟨0x01600004, 6, 6⟩
def F.CAL_THERM_ALARM : Fld := ⟨0x01600024, 31, 16⟩
def F.CAL_THERM_WARN : Fld := ⟨0x01600024, 15, 0⟩
/-! R531 -/
def F.PMU_BWF_RX (p : Nat) : Fld := ⟨0x01501408 + 0x10 * p, 63, 0⟩
def F.PMU_BWF_TX (p : Nat) : Fld := ⟨0x01501400 + 0x10 * p, 63, 0⟩
def F.PMU_BWM_RD (p : Nat) : Fld := ⟨0x01501100 + 0x10 * p, 63, 0⟩
def F.PMU_BWM_WR (p : Nat) : Fld := ⟨0x01501108 + 0x10 * p, 63, 0⟩
def F.PMU_BW_CFG_EN : Fld := ⟨0x01501000, 0, 0⟩
def F.PMU_BW_SEQ : Fld := ⟨0x01501008, 31, 0⟩
def F.PMU_BW_WINDOW : Fld := ⟨0x01501004, 31, 0⟩
def F.PMU_CNT_CFG_EN (c : Nat) : Fld := ⟨0x01500100 + 0x10 * c, 0, 0⟩
def F.PMU_CNT_CFG_EVENT (c : Nat) : Fld := ⟨0x01500100 + 0x10 * c, 31, 24⟩
def F.PMU_CNT_CFG_UNIT (c : Nat) : Fld := ⟨0x01500100 + 0x10 * c, 12, 8⟩
def F.PMU_CNT_VALUE (c : Nat) : Fld := ⟨0x01500108 + 0x10 * c, 47, 0⟩
def F.PMU_CTRL_FREEZE : Fld := ⟨0x01500000, 0, 0⟩
def F.PMU_ERR : Fld := ⟨0x01500008, 31, 0⟩
def F.PMU_OVF : Fld := ⟨0x0150000C, 31, 0⟩
def F.PMU_SBUF (c i : Nat) : Fld := ⟨0x01540000 + 0x4000 * c + 0x4 * i, 31, 0⟩
def F.PMU_SMP_CFG_EN (c : Nat) : Fld := ⟨0x01502000 + 0x20 * c, 0, 0⟩
def F.PMU_SMP_CFG_ENG_MASK (c : Nat) : Fld := ⟨0x01502000 + 0x20 * c, 31, 16⟩
def F.PMU_SMP_CFG_KIND (c : Nat) : Fld := ⟨0x01502000 + 0x20 * c, 4, 2⟩
def F.PMU_SMP_CFG_MODE (c : Nat) : Fld := ⟨0x01502000 + 0x20 * c, 1, 1⟩
def F.PMU_SMP_CFG_P_LOG2 (c : Nat) : Fld := ⟨0x01502000 + 0x20 * c, 12, 8⟩
def F.PMU_SMP_LOST (c : Nat) : Fld := ⟨0x0150200C + 0x20 * c, 31, 0⟩
def F.PMU_SMP_RD (c : Nat) : Fld := ⟨0x01502008 + 0x20 * c, 31, 0⟩
def F.PMU_SMP_WATERMARK (c : Nat) : Fld := ⟨0x01502010 + 0x20 * c, 9, 0⟩
def F.PMU_SMP_WR (c : Nat) : Fld := ⟨0x01502004 + 0x20 * c, 31, 0⟩
/-! R544 -/
def F.LOG_LOST (ring : Nat) : Fld := ⟨ring + 0xc, 31, 0⟩
def F.LOG_OVERWRITE (ring : Nat) : Fld := ⟨ring + 0x10, 0, 0⟩
def F.LOG_RD (ring : Nat) : Fld := ⟨ring + 0x4, 31, 0⟩
def F.LOG_WR (ring : Nat) : Fld := ⟨ring + 0x0, 31, 0⟩
/-! R552 -/
def F.SEC_BOOT_IMG_BASE : Fld := ⟨0x00000310, 63, 0⟩
def F.SEC_BOOT_IMG_LEN : Fld := ⟨0x00000318, 31, 0⟩
def F.SEC_BOOT_STAT_CH_READY : Fld := ⟨0x00000300, 31, 16⟩
def F.SEC_BOOT_STAT_COPY : Fld := ⟨0x00000300, 3, 3⟩
def F.SEC_BOOT_STAT_HOST : Fld := ⟨0x00000300, 4, 4⟩
def F.SEC_BOOT_STAT_SERVICE : Fld := ⟨0x00000300, 9, 5⟩
def F.SEC_BOOT_STAT_STAGE : Fld := ⟨0x00000300, 2, 0⟩
def F.SEC_BOOT_TEMPO : Fld := ⟨0x00000308, 63, 0⟩

def O.CAL_CTRL : Nat := 0x01600000
def O.CIN_PORT_CTRL (n : Nat) : Nat := 0x00700000 + 0x1000 * n
def O.CMP_DQ_PROD : Nat := 0x0020080C
def O.CMP_PLANE_GEOM2 (p : Nat) : Nat := 0x0020040C + 0x10 * p
def O.CMP_RING_CFG (r : Nat) : Nat := 0x00200108 + 0x40 * r
def O.CMP_RING_CONS (r : Nat) : Nat := 0x00200118 + 0x40 * r
def O.CMP_RING_PROD (r : Nat) : Nat := 0x00200110 + 0x40 * r
def O.DFQ_CTRL : Nat := 0x00900000
def O.DFQ_PUSH_CTRL : Nat := 0x00900240
def O.DFQ_RD (i : Nat) : Nat := 0x00900100 + 0x4 * i
def O.DGU_HB_CFG (i : Nat) : Nat := 0x00608000 + 0x40 * i
def O.DGU_SCAN_CTRL (s : Nat) : Nat := 0x00600800 + 0x40 * s
def O.DMA_CH_CTRL (c : Nat) : Nat := 0x00D01000 + 0x80 * c
def O.DMA_CH_DOORBELL (c : Nat) : Nat := 0x00D01008 + 0x80 * c
def O.ENG_OFF (w : Nat) : Nat := 0x00B00080 + 0x4 * w
def O.ENG_START (w : Nat) : Nat := 0x00B00040 + 0x4 * w
def O.ENG_STOP (w : Nat) : Nat := 0x00B00060 + 0x4 * w
def O.EVF_CH_CFG (n : Nat) : Nat := 0x00C01000 + 0x20 * n
def O.EVF_COMMIT : Nat := 0x00C00000
def O.FAB_CTRL : Nat := 0x00A00000
def O.FAB_SPLICE_WCO : Nat := 0x00A00020
def O.FTU_CTRL : Nat := 0x00500000
def O.FTU_HEAD_CFG (x : Nat) : Nat := 0x00502000 + 0x40 * x
def O.FTU_HEAD_STAT (x : Nat) : Nat := 0x00502010 + 0x40 * x
def O.FTU_OVS_CTRL : Nat := 0x0050E000
def O.FVL_PORT_CFG (p : Nat) : Nat := 0x00F01000 + 0x80 * p
def O.FVL_XACT_CTRL : Nat := 0x00F00100
def O.GPIO_OUT_CLR : Nat := 0x0141000C
def O.GPIO_OUT_SET : Nat := 0x01410008
def O.I2C_CTRL : Nat := 0x01411004
def O.I2C_STAT : Nat := 0x01411010
def O.IPL_CTRL : Nat := 0x00800000
def O.IPL_TBL_DATA : Nat := 0x00801008
def O.MC_CTRL (n : Nat) : Nat := 0x00E00004 + 0x10000 * n
def O.MEM_CTRL : Nat := 0x00E08000
def O.MSIX_CTRL (f v : Nat) : Nat := 0x0144000C + 0x1000 * f + 0x10 * v
def O.NET_PTP_MAP_STAT : Nat := 0x01488084
def O.NET_PTP_RATE : Nat := 0x01488014
def O.NET_PTP_STAT : Nat := 0x01488004
def O.NET_PTP_STEP : Nat := 0x01488018
def O.NET_PTP_TSQ (i : Nat) : Nat := 0x01488040 + 0x4 * i
def O.NET_P_TX_PROD (n q : Nat) : Nat := 0x0148110C + 0x1000 * n + 0x20 * q
def O.PMU_CNT_CFG (c : Nat) : Nat := 0x01500100 + 0x10 * c
def O.PMU_CTRL : Nat := 0x01500000
def O.RP_CTRL (n : Nat) : Nat := 0x00300000 + 0x10000 * n
def O.RP_NT_CTRL : Nat := 0x00309000
def O.RP_NT_RMW_DATA (i : Nat) : Nat := 0x00309110 + 0x20 * i
def O.RP_TS_DATA : Nat := 0x00308008
def O.RRU_CTRL : Nat := 0x00400000
def O.SEC_BOOT_CTRL : Nat := 0x0000031C
def O.SEC_BOOT_UNITS : Nat := 0x00000304
def O.SEC_CMD_CTRL : Nat := 0x00001100
def O.SEC_DOMAIN : Nat := 0x0000001C
def O.SEC_FUSE : Nat := 0x00000018
def O.TWN_CTRL : Nat := 0x01700000
def O.WTU_CTRL : Nat := 0x00100000
def O.WTU_LG_CTRL (g : Nat) : Nat := 0x00101000 + 0x40 * g
def O.WTU_SLOT_CTRL (s : Nat) : Nat := 0x00102000 + 0x20 * s
def O.WTU_SNAP_CTRL (k : Nat) : Nat := 0x00100100 + 0x20 * k
def O.WTU_SSI_REQ (m : Nat) : Nat := 0x00100408 + 0x40 * m

end Sys2Proof.Machine
end

