-- ==== Sys2Proof/Config.lean ====
section
/-! DEFINITION. What one device fixes (fused values, the variant, the boot strap) and the free values
of the model: every one an opaque constant, so that no proof can lean on a value the manual leaves
open. -/

namespace Sys2Proof.Config

/-- A value the manual does not state, the n-th one a run has asked for (assumption 3). -/
opaque freeValue : Nat → BitVec 64
/-- What a cell, table entry or register word without a reset value holds before it is first written,
by its BAR0 offset or cell number (R106, R269, R270; assumption 4). -/
opaque undefWord : Nat → BitVec 64
/-- What reserved bits read as (R10), by the offset read; assumption 5. -/
opaque reservedBits : Nat → BitVec 32
/-- Which TMP edge of the lag range a domain copy of Tempo shows (R17, R18), by domain and Tempo. -/
opaque copyLag : Nat → Nat → Nat
/-- SEC_ID.REV: the silicon revision, fused (R529). -/
opaque fusedRev : BitVec 4
/-- True on a LUM9640-128C, false on a LUM9640-064C (R1). -/
opaque is128C : Bool
/-- SEC_SERIAL: the fused serial number (R529). -/
opaque fusedSerial : BitVec 64
/-- The private key fused on the die (R498), which no interface shows. -/
opaque identityKey : Nat
/-- The fused identity certificate, word by word, and its length (R500). -/
opaque fusedCert : Nat → BitVec 32
opaque fusedCertLen : BitVec 12
/-- The random 384-bit nonce, the n-th one drawn, word by word (R504). -/
opaque nonceWord : Nat → Nat → BitVec 32
/-- How many PIX cycles after a pixel's place in its lane the pipe reads its nozzle table entry, below 25
(R93, R136); the manual gives no depth for the stage. -/
opaque ntReadLag : Nat
/-- The compressed bytes a deflate lane makes of a source, by PARAM (R84): the same for the same source
and PARAM, otherwise free. -/
opaque deflate : List Byte → Nat → List Byte
/-- The keystream byte number n of a lane's scrambler from a seed (R425): the LFSR with the polynomial x^31 + x^28 + 1, whose form and
output bit the manual does not give. -/
opaque scrambler : Nat → Nat → BitVec 8
/-- The phase of the memory's slot counter against Tempo after the n-th device reset (R408), in Tempo units, which the manual leaves open. -/
opaque slotPhase : Nat → Nat
/-- The words of the AES-GMAC tag of a twin message under the session key (R478), which no interface shows. -/
opaque twinTag : List (BitVec 64) → Nat → BitVec 64
/-- The words of a pairing message (R478, R490): key material of this device, laid out as no rule says. -/
opaque pairPart : Nat → List (BitVec 64)
/-- What the ETH reference clock has counted at a Tempo, in nominal 2^-32 ns (R471, R558): its rate against Tempo is the
crystals' own. -/
opaque ethTime : Nat → Int

end Sys2Proof.Config
end

