-- ==== Sys2Proof/Machine/RegMap.lean ====
section
/-! DEFINITION. The register map of BAR0: every register of every map of the manual with its offset,
its instances, its width, and for each field the bits, the access type (R8) and the reset value
(R11). Rows are in the order of the chapters; each row's comment names the rule that maps it. -/

namespace Sys2Proof.Machine

/-- The access types of R8. `own` marks a field whose write is a command row of its own (the opcode
table), so that the plain register write leaves it alone; `ownSet` marks one where only a write of 1
to a field at 0 is such a command, and a plain write of 0 clears it. -/
inductive Access
  | rw | ro | wo | w1c | rc | w1s | own | ownSet
  deriving DecidableEq, Repr

/-- One field: bits [hi:lo], its access type and its reset value. -/
structure FieldDesc where
  hi : Nat
  lo : Nat
  acc : Access
  rst : Nat
  deriving DecidableEq, Repr

/-- One register: the offset of its first instance, the strides and counts of its instances
(largest stride first), whether it is 64 bits wide (R6), and its fields. -/
structure RegDesc where
  name : String
  base : Nat
  dims : List (Nat × Nat)
  wide : Bool
  fields : List FieldDesc
  deriving DecidableEq, Repr

/-- Registers of SEC (R529, R552). -/
def secRegs : List RegDesc := [
  ⟨"SEC_ID", 0x00000000, [], false, [⟨15, 0, .ro, 0x9640⟩, ⟨19, 16, .ro, 0⟩, ⟨21, 20, .ro, 0⟩, ⟨23, 22, .ro, 0⟩]⟩,
  ⟨"SEC_ERR", 0x00000008, [], false, [⟨0, 0, .w1c, 0⟩]⟩,
  ⟨"SEC_SERIAL", 0x00000010, [], true, [⟨63, 0, .ro, 0⟩]⟩,
  ⟨"SEC_FUSE", 0x00000018, [], false, [⟨0, 0, .ro, 0⟩, ⟨11, 4, .ro, 0⟩, ⟨15, 12, .ro, 0⟩]⟩,
  ⟨"SEC_DOMAIN", 0x0000001C, [], false, [⟨11, 0, .rw, 0⟩, ⟨31, 31, .own, 0⟩]⟩,
  ⟨"SEC_NONCE", 0x00000040, [(0x4, 12)], false, [⟨31, 0, .ro, 0⟩]⟩,
  ⟨"SEC_OWNER_SET", 0x00000080, [(0x4, 12)], false, [⟨31, 0, .ro, 0⟩]⟩,
  ⟨"SEC_OWNER_KEY", 0x00000100, [(0x40, 4), (0x4, 13)], false, [⟨31, 0, .ro, 0⟩]⟩,
  ⟨"SEC_CERT_LEN", 0x00000200, [], false, [⟨11, 0, .ro, 0⟩]⟩,
  ⟨"SEC_CMD", 0x00001000, [(0x4, 52)], false, [⟨31, 0, .rw, 0⟩]⟩,
  ⟨"SEC_CMD_CTRL", 0x00001100, [], false, [⟨0, 0, .own, 0⟩]⟩,
  ⟨"SEC_CMD_STAT", 0x00001104, [], false, [⟨0, 0, .ro, 0⟩, ⟨1, 1, .w1c, 0⟩, ⟨2, 2, .w1c, 0⟩, ⟨27, 16, .ro, 0⟩]⟩,
  ⟨"SEC_ATTEST_R", 0x00001200, [(0x4, 12)], false, [⟨31, 0, .ro, 0⟩]⟩,
  ⟨"SEC_ATTEST_S", 0x00001240, [(0x4, 12)], false, [⟨31, 0, .ro, 0⟩]⟩,
  ⟨"SEC_CERT", 0x00002000, [(0x4, 512)], false, [⟨31, 0, .ro, 0⟩]⟩,
  ⟨"SEC_BOOT_STAT", 0x00000300, [], false, [⟨2, 0, .ro, 0⟩, ⟨3, 3, .ro, 0⟩, ⟨4, 4, .ro, 0⟩, ⟨9, 5, .ro, 0⟩, ⟨31, 16, .ro, 0⟩]⟩,
  ⟨"SEC_BOOT_UNITS", 0x00000304, [], false, [⟨20, 1, .ro, 0⟩]⟩,
  ⟨"SEC_BOOT_TEMPO", 0x00000308, [], true, [⟨63, 0, .ro, 0⟩]⟩,
  ⟨"SEC_BOOT_IMG_BASE", 0x00000310, [], true, [⟨63, 0, .rw, 0⟩]⟩,
  ⟨"SEC_BOOT_IMG_LEN", 0x00000318, [], false, [⟨31, 0, .rw, 0⟩]⟩,
  ⟨"SEC_BOOT_CTRL", 0x0000031C, [], false, [⟨0, 0, .own, 0⟩]⟩]

/-- Registers of WTU (R66). -/
def wtuRegs1 : List RegDesc := [
  ⟨"WTU_CTRL", 0x00100000, [], false, [⟨1, 0, .own, 0⟩, ⟨3, 2, .rw, 1⟩, ⟨4, 4, .rw, 0⟩, ⟨5, 5, .own, 0⟩]⟩,
  ⟨"WTU_STATUS", 0x00100004, [], false, [⟨2, 0, .ro, 0⟩, ⟨3, 3, .ro, 0⟩, ⟨4, 4, .w1c, 0⟩, ⟨5, 5, .w1c, 0⟩, ⟨6, 6, .w1c, 0⟩]⟩,
  ⟨"WTU_WCO_LOADVAL", 0x00100008, [], true, [⟨63, 0, .rw, 0⟩]⟩,
  ⟨"WTU_WCO", 0x00100010, [], true, [⟨63, 0, .ro, 0⟩]⟩,
  ⟨"WTU_TEMPO", 0x00100018, [], true, [⟨63, 0, .ro, 0⟩]⟩,
  ⟨"WTU_SPEED", 0x00100020, [], true, [⟨63, 0, .ro, 0⟩]⟩,
  ⟨"WTU_SPEED_UMPS", 0x00100028, [], false, [⟨31, 0, .ro, 0⟩]⟩,
  ⟨"WTU_SPEED_LIMIT", 0x0010002C, [], false, [⟨31, 0, .rw, 0x4d90c5⟩]⟩,
  ⟨"WTU_STILL_TIME", 0x00100030, [], false, [⟨31, 0, .rw, 0x4c4b40⟩]⟩,
  ⟨"WTU_EXTRAP", 0x00100034, [], false, [⟨7, 0, .rw, 0x18⟩, ⟨10, 8, .rw, 3⟩]⟩,
  ⟨"WTU_XCHK_LIMIT", 0x00100038, [], false, [⟨31, 0, .rw, 0x10000⟩]⟩,
  ⟨"WTU_ERR", 0x0010003C, [], false, [⟨0, 0, .w1c, 0⟩]⟩,
  ⟨"WTU_LATCH_WCO", 0x00100040, [], true, [⟨63, 0, .ro, 0⟩]⟩,
  ⟨"WTU_LATCH_TEMPO", 0x00100048, [], true, [⟨63, 0, .ro, 0⟩]⟩,
  ⟨"WTU_CLAMP_COUNT", 0x00100050, [], false, [⟨31, 0, .rc, 0⟩]⟩,
  ⟨"WTU_LATE_COUNT", 0x00100054, [], false, [⟨31, 0, .rc, 0⟩]⟩,
  ⟨"WTU_SNAP_CTRL", 0x00100100, [(0x20, 4)], false, [⟨0, 0, .own, 0⟩, ⟨1, 1, .w1c, 0⟩, ⟨2, 2, .w1c, 0⟩]⟩,
  ⟨"WTU_SNAP_WCO", 0x00100108, [(0x20, 4)], true, [⟨63, 0, .ro, 0⟩]⟩,
  ⟨"WTU_SNAP_TEMPO", 0x00100110, [(0x20, 4)], true, [⟨63, 0, .ro, 0⟩]⟩,
  ⟨"WTU_SNAP_SPEED", 0x00100118, [(0x20, 4)], true, [⟨63, 0, .ro, 0⟩]⟩,
  ⟨"WTU_ENC_CFG", 0x00100200, [(0x40, 4)], false, [⟨0, 0, .rw, 0⟩, ⟨1, 1, .rw, 0⟩, ⟨2, 2, .rw, 0⟩, ⟨6, 3, .rw, 3⟩, ⟨9, 7, .rw, 2⟩, ⟨23, 16, .rw, 9⟩]⟩,
  ⟨"WTU_ENC_STAT", 0x00100204, [(0x40, 4)], false, [⟨2, 0, .ro, 0⟩, ⟨3, 3, .ro, 0⟩, ⟨4, 4, .ro, 0⟩, ⟨5, 5, .ro, 0⟩, ⟨8, 8, .w1c, 0⟩, ⟨9, 9, .w1c, 0⟩, ⟨10, 10, .w1c, 0⟩, ⟨11, 11, .w1c, 0⟩, ⟨12, 12, .w1c, 0⟩, ⟨13, 13, .w1c, 0⟩, ⟨14, 14, .w1c, 0⟩, ⟨15, 15, .w1c, 0⟩]⟩,
  ⟨"WTU_ENC_SCALE", 0x00100208, [(0x40, 4)], true, [⟨15, 0, .rw, 0⟩, ⟨47, 16, .rw, 1⟩]⟩,
  ⟨"WTU_ENC_RAW", 0x00100210, [(0x40, 4)], false, [⟨31, 0, .ro, 0⟩]⟩,
  ⟨"WTU_ENC_TRACK", 0x00100214, [(0x40, 4)], false, [⟨31, 0, .ro, 0⟩]⟩,
  ⟨"WTU_ENC_SPEED_UMPS", 0x00100218, [(0x40, 4)], false, [⟨31, 0, .ro, 0⟩]⟩,
  ⟨"WTU_ENC_ILLEGAL_COUNT", 0x0010021C, [(0x40, 4)], false, [⟨31, 0, .rc, 0⟩]⟩,
  ⟨"WTU_ENC_GLITCH_COUNT", 0x00100220, [(0x40, 4)], false, [⟨31, 0, .rc, 0⟩]⟩,
  ⟨"WTU_ENC_ZRAW", 0x00100224, [(0x40, 4)], false, [⟨31, 0, .ro, 0⟩]⟩,
  ⟨"WTU_ENC_ZTEMPO", 0x00100228, [(0x40, 4)], true, [⟨63, 0, .ro, 0⟩]⟩]

/-- Registers of WTU (R66). -/
def wtuRegs2 : List RegDesc := [
  ⟨"WTU_ENC_LEVEL", 0x00100230, [(0x40, 4)], false, [⟨15, 0, .rw, 0x1dce⟩]⟩,
  ⟨"WTU_SSI_CFG", 0x00100400, [(0x40, 2)], false, [⟨0, 0, .rw, 0⟩, ⟨1, 1, .rw, 0⟩, ⟨2, 2, .rw, 0⟩, ⟨4, 3, .rw, 0⟩, ⟨6, 5, .rw, 0⟩, ⟨13, 8, .rw, 0x19⟩, ⟨27, 16, .rw, 0xfa⟩]⟩,
  ⟨"WTU_SSI_MONO", 0x00100404, [(0x40, 2)], false, [⟨15, 0, .rw, 0x2710⟩]⟩,
  ⟨"WTU_SSI_REQ", 0x00100408, [(0x40, 2)], false, [⟨0, 0, .own, 0⟩]⟩,
  ⟨"WTU_SSI_STAT", 0x0010040C, [(0x40, 2)], false, [⟨0, 0, .ro, 0⟩, ⟨1, 1, .w1c, 0⟩, ⟨2, 2, .w1c, 0⟩, ⟨3, 3, .w1c, 0⟩, ⟨4, 4, .w1c, 0⟩, ⟨5, 5, .w1c, 0⟩, ⟨10, 8, .ro, 0⟩]⟩,
  ⟨"WTU_SSI_POS", 0x00100410, [(0x40, 2)], false, [⟨31, 0, .ro, 0⟩]⟩,
  ⟨"WTU_SSI_TEMPO", 0x00100418, [(0x40, 2)], true, [⟨63, 0, .ro, 0⟩]⟩,
  ⟨"WTU_REP_CFG", 0x00100500, [(0x10, 4)], false, [⟨0, 0, .rw, 0⟩, ⟨2, 1, .rw, 0⟩, ⟨3, 3, .rw, 0⟩, ⟨4, 4, .rw, 0⟩]⟩,
  ⟨"WTU_LG_CTRL", 0x00101000, [(0x40, 32)], false, [⟨0, 0, .own, 0⟩, ⟨1, 1, .own, 0⟩, ⟨2, 2, .ro, 1⟩, ⟨3, 3, .w1c, 0⟩, ⟨4, 4, .w1c, 0⟩, ⟨5, 5, .w1c, 0⟩, ⟨12, 8, .ro, 0⟩]⟩,
  ⟨"WTU_LG_START", 0x00101008, [(0x40, 32)], true, [⟨63, 0, .rw, 0⟩]⟩,
  ⟨"WTU_LG_PITCH", 0x00101010, [(0x40, 32)], true, [⟨15, 0, .rw, 0xaaab⟩, ⟨47, 16, .rw, 0x52ae⟩]⟩,
  ⟨"WTU_LG_LEAD", 0x00101018, [(0x40, 32)], false, [⟨31, 0, .rw, 0x4e20⟩]⟩,
  ⟨"WTU_LG_LATE_COUNT", 0x0010101C, [(0x40, 32)], false, [⟨31, 0, .rc, 0⟩]⟩,
  ⟨"WTU_LG_LINE", 0x00101020, [(0x40, 32)], true, [⟨63, 0, .ro, 0⟩]⟩,
  ⟨"WTU_LG_MISS_START", 0x00101028, [(0x40, 32)], true, [⟨63, 0, .ro, 0⟩]⟩,
  ⟨"WTU_LG_MISS_END", 0x00101030, [(0x40, 32)], true, [⟨63, 0, .ro, 0⟩]⟩,
  ⟨"WTU_LG_COMMIT_TEMPO", 0x00101038, [(0x40, 32)], true, [⟨63, 0, .ro, 0⟩]⟩,
  ⟨"WTU_SLOT_CTRL", 0x00102000, [(0x20, 32)], false, [⟨0, 0, .ownSet, 0⟩, ⟨1, 1, .rw, 0⟩, ⟨2, 2, .w1c, 0⟩, ⟨3, 3, .w1c, 0⟩]⟩,
  ⟨"WTU_SLOT_TARGET", 0x00102008, [(0x20, 32)], true, [⟨63, 0, .rw, 0⟩]⟩,
  ⟨"WTU_SLOT_FIRE_TEMPO", 0x00102010, [(0x20, 32)], true, [⟨63, 0, .ro, 0⟩]⟩]

/-- Registers of WTU. -/
def wtuRegs : List RegDesc := wtuRegs1 ++ wtuRegs2

/-- Registers of CMP (R90). -/
def cmpRegs : List RegDesc := [
  ⟨"CMP_CTRL", 0x00200000, [], false, [⟨5, 0, .rw, 0x20⟩, ⟨11, 8, .rw, 8⟩]⟩,
  ⟨"CMP_STATUS", 0x00200004, [], false, [⟨5, 0, .ro, 0⟩, ⟨11, 8, .ro, 0⟩, ⟨15, 12, .ro, 0⟩]⟩,
  ⟨"CMP_ERR", 0x00200008, [], false, [⟨0, 0, .w1c, 0⟩]⟩,
  ⟨"CMP_STREAM_ERRS", 0x0020000C, [], false, [⟨31, 0, .rc, 0⟩]⟩,
  ⟨"CMP_IN_BYTES", 0x00200010, [], true, [⟨63, 0, .ro, 0⟩]⟩,
  ⟨"CMP_OUT_BYTES", 0x00200018, [], true, [⟨63, 0, .ro, 0⟩]⟩,
  ⟨"CMP_TILES", 0x00200020, [], true, [⟨63, 0, .ro, 0⟩]⟩,
  ⟨"CMP_RING_BASE", 0x00200100, [(0x40, 4)], true, [⟨63, 0, .rw, 0⟩]⟩,
  ⟨"CMP_RING_CFG", 0x00200108, [(0x40, 4)], false, [⟨5, 0, .rw, 0xc⟩, ⟨8, 8, .ownSet, 0⟩, ⟨9, 9, .own, 0⟩]⟩,
  ⟨"CMP_RING_STAT", 0x0020010C, [(0x40, 4)], false, [⟨0, 0, .ro, 0⟩, ⟨1, 1, .ro, 1⟩, ⟨2, 2, .w1c, 0⟩]⟩,
  ⟨"CMP_RING_PROD", 0x00200110, [(0x40, 4)], true, [⟨63, 0, .own, 0⟩]⟩,
  ⟨"CMP_RING_CONS", 0x00200118, [(0x40, 4)], true, [⟨63, 0, .own, 0⟩]⟩,
  ⟨"CMP_RING_LAST_ERR_SEQ", 0x00200120, [(0x40, 4)], false, [⟨31, 0, .ro, 0⟩]⟩,
  ⟨"CMP_RING_LAST_ERR_CODE", 0x00200124, [(0x40, 4)], false, [⟨31, 0, .ro, 0⟩]⟩,
  ⟨"CMP_PLANE_MAP_BASE", 0x00200400, [(0x10, 64)], true, [⟨63, 0, .rw, 0⟩]⟩,
  ⟨"CMP_PLANE_GEOM", 0x00200408, [(0x10, 64)], false, [⟨3, 0, .rw, 0xc⟩, ⟨7, 4, .rw, 8⟩, ⟨17, 8, .rw, 0⟩]⟩,
  ⟨"CMP_PLANE_GEOM2", 0x0020040C, [(0x10, 64)], false, [⟨15, 0, .rw, 0⟩, ⟨31, 31, .ownSet, 0⟩]⟩,
  ⟨"CMP_DQ_BASE", 0x00200800, [], true, [⟨63, 0, .rw, 0⟩]⟩,
  ⟨"CMP_DQ_CFG", 0x00200808, [], false, [⟨3, 0, .rw, 4⟩, ⟨8, 8, .rw, 0⟩]⟩,
  ⟨"CMP_DQ_PROD", 0x0020080C, [], false, [⟨31, 0, .own, 0⟩]⟩,
  ⟨"CMP_DQ_CONS", 0x00200810, [], false, [⟨31, 0, .ro, 0⟩]⟩,
  ⟨"CMP_DQ_STAT", 0x00200814, [], false, [⟨0, 0, .w1c, 0⟩]⟩,
  ⟨"CMP_IL_STAT", 0x00200A00, [(0x4, 32)], false, [⟨0, 0, .ro, 0⟩, ⟨2, 1, .ro, 0⟩, ⟨23, 8, .ro, 0⟩]⟩]

/-- Registers of RP (R120, R144). -/
def rpRegs1 : List RegDesc := [
  ⟨"RP_CTRL", 0x00300000, [(0x10000, 8)], false, [⟨0, 0, .own, 0⟩, ⟨1, 1, .rw, 0⟩, ⟨2, 2, .own, 0⟩, ⟨12, 8, .rw, 0⟩]⟩,
  ⟨"RP_STAT", 0x00300004, [(0x10000, 8)], false, [⟨1, 0, .ro, 0⟩, ⟨2, 2, .ro, 0⟩, ⟨3, 3, .w1c, 0⟩, ⟨4, 4, .w1c, 0⟩, ⟨12, 8, .ro, 0⟩]⟩,
  ⟨"RP_ERR", 0x00300008, [(0x10000, 8)], false, [⟨0, 0, .w1c, 0⟩]⟩,
  ⟨"RP_MIN_SLACK", 0x0030000C, [(0x10000, 8)], false, [⟨31, 0, .ro, 0xffffffff⟩]⟩,
  ⟨"RP_LINE", 0x00300010, [(0x10000, 8)], true, [⟨63, 0, .ro, 0⟩]⟩,
  ⟨"RP_LINES_DONE", 0x00300018, [(0x10000, 8)], true, [⟨63, 0, .ro, 0⟩]⟩,
  ⟨"RP_SKIPPED", 0x00300020, [(0x10000, 8)], false, [⟨31, 0, .rc, 0⟩]⟩,
  ⟨"RP_SUPPRESSED", 0x00300024, [(0x10000, 8)], false, [⟨31, 0, .rc, 0⟩]⟩,
  ⟨"RP_ECC_CORR", 0x00300028, [(0x10000, 8)], false, [⟨31, 0, .rc, 0⟩]⟩,
  ⟨"RP_DROPPED", 0x0030002C, [(0x10000, 8)], false, [⟨31, 0, .rc, 0⟩]⟩,
  ⟨"RP_MARK_LINE", 0x00300030, [(0x10000, 8)], true, [⟨63, 0, .rw, 0xffffffffffffffff⟩]⟩,
  ⟨"RP_SNAP_TAKEN", 0x00300038, [(0x10000, 8)], true, [⟨63, 0, .ro, 0⟩]⟩,
  ⟨"RP_SNAP_RETIRED", 0x00300040, [(0x10000, 8)], true, [⟨63, 0, .ro, 0⟩]⟩,
  ⟨"RP_SNAP_WATCH", 0x00300048, [(0x10000, 8)], true, [⟨63, 0, .rw, 0xffffffffffffffff⟩]⟩,
  ⟨"RP_INVALID_FILLS", 0x00300050, [(0x10000, 8)], false, [⟨31, 0, .rc, 0⟩]⟩,
  ⟨"RP_BANK_CFG", 0x00301000, [(0x10000, 8), (0x800, 2)], false, [⟨15, 0, .rw, 0xffff⟩]⟩,
  ⟨"RP_BANK_JOB_ID", 0x00301004, [(0x10000, 8), (0x800, 2)], false, [⟨31, 0, .rw, 0⟩]⟩,
  ⟨"RP_BANK_LINE0", 0x00301008, [(0x10000, 8), (0x800, 2)], true, [⟨63, 0, .rw, 0⟩]⟩,
  ⟨"RP_BANK_SCR", 0x00301010, [(0x10000, 8), (0x800, 2)], false, [⟨3, 0, .rw, 8⟩, ⟨7, 4, .rw, 8⟩, ⟨31, 14, .rw, 0⟩]⟩,
  ⟨"RP_BANK_SCR_OFF", 0x00301014, [(0x10000, 8), (0x800, 2)], false, [⟨8, 0, .rw, 0⟩, ⟨24, 16, .rw, 0⟩]⟩,
  ⟨"RP_BANK_TONE", 0x00301100, [(0x10000, 8), (0x800, 2), (0x4, 64)], false, [⟨31, 0, .rw, 0⟩]⟩,
  ⟨"RP_BANK_BIND_CFG", 0x00301040, [(0x10000, 8), (0x800, 2), (0x20, 4)], false, [⟨0, 0, .rw, 0⟩, ⟨1, 1, .rw, 0⟩, ⟨2, 2, .rw, 0⟩, ⟨15, 8, .rw, 0⟩, ⟨23, 16, .rw, 0⟩, ⟨29, 24, .rw, 0⟩]⟩,
  ⟨"RP_BANK_BIND_XOFF", 0x00301044, [(0x10000, 8), (0x800, 2), (0x20, 4)], false, [⟨31, 0, .rw, 0⟩]⟩,
  ⟨"RP_BANK_BIND_REPEAT_LINES", 0x00301048, [(0x10000, 8), (0x800, 2), (0x20, 4)], false, [⟨31, 0, .rw, 0⟩]⟩,
  ⟨"RP_BANK_BIND_RESERVED", 0x0030104C, [(0x10000, 8), (0x800, 2), (0x20, 4)], false, []⟩,
  ⟨"RP_BANK_BIND_ALPHA_BASE", 0x00301050, [(0x10000, 8), (0x800, 2), (0x20, 4)], true, [⟨63, 0, .rw, 0⟩]⟩,
  ⟨"RP_TS_ADDR", 0x00308000, [], false, [⟨17, 0, .rw, 0⟩]⟩,
  ⟨"RP_TS_DATA", 0x00308008, [], true, [⟨63, 0, .own, 0⟩]⟩,
  ⟨"RP_TS_STAT", 0x00308010, [], false, [⟨0, 0, .w1c, 0⟩, ⟨1, 1, .w1c, 0⟩]⟩,
  ⟨"RP_TS_ECC_CORR", 0x00308014, [], false, [⟨31, 0, .rc, 0⟩]⟩,
  ⟨"RP_COMP_NEIGH", 0x00300054, [(0x10000, 8)], false, [⟨31, 0, .rc, 0⟩]⟩]

/-- Registers of RP (R144, R145). -/
def rpRegs2 : List RegDesc := [
  ⟨"RP_COMP_REDUND", 0x00300058, [(0x10000, 8)], false, [⟨31, 0, .rc, 0⟩]⟩,
  ⟨"RP_COMP_LOST", 0x0030005C, [(0x10000, 8)], false, [⟨31, 0, .rc, 0⟩]⟩,
  ⟨"RP_COMP_CLIPPED", 0x00300060, [(0x10000, 8)], false, [⟨31, 0, .rc, 0⟩]⟩,
  ⟨"RP_BANK_MASK_CFG", 0x00301018, [(0x10000, 8), (0x800, 2)], false, [⟨2, 0, .rw, 0⟩, ⟨6, 4, .rw, 0⟩, ⟨13, 8, .rw, 0⟩, ⟨21, 16, .rw, 0⟩]⟩,
  ⟨"RP_BANK_COMP", 0x0030101C, [(0x10000, 8), (0x800, 2)], false, [⟨0, 0, .rw, 1⟩, ⟨1, 1, .rw, 1⟩]⟩,
  ⟨"RP_BANK_MASK", 0x00301200, [(0x10000, 8), (0x800, 2), (0x4, 256)], false, [⟨31, 0, .rw, 0⟩]⟩,
  ⟨"RP_BANK_ROW_CFG", 0x00301600, [(0x10000, 8), (0x800, 2), (0x10, 4)], false, [⟨0, 0, .rw, 0⟩, ⟨2, 1, .rw, 0⟩, ⟨5, 4, .rw, 0⟩]⟩,
  ⟨"RP_BANK_ROW_SECT", 0x00301604, [(0x10000, 8), (0x800, 2), (0x10, 4)], false, [⟨4, 0, .rw, 0⟩, ⟨12, 8, .rw, 0⟩, ⟨20, 16, .rw, 0⟩, ⟨28, 24, .rw, 0⟩, ⟨7, 7, .rw, 0⟩, ⟨15, 15, .rw, 0⟩, ⟨23, 23, .rw, 0⟩, ⟨31, 31, .rw, 0⟩]⟩,
  ⟨"RP_BANK_ROW_OFFSET", 0x00301608, [(0x10000, 8), (0x800, 2), (0x10, 4)], true, [⟨15, 0, .rw, 0⟩, ⟨47, 16, .rw, 0⟩]⟩,
  ⟨"RP_NT_CTRL", 0x00309000, [], false, [⟨0, 0, .own, 0⟩, ⟨1, 1, .rw, 1⟩]⟩,
  ⟨"RP_NT_STAT", 0x00309004, [], false, [⟨0, 0, .ro, 0⟩, ⟨1, 1, .w1c, 0⟩, ⟨2, 2, .w1c, 0⟩]⟩,
  ⟨"RP_NT_EPOCH", 0x00309008, [], false, [⟨15, 0, .ro, 0⟩]⟩,
  ⟨"RP_NT_ECC_CORR", 0x0030900C, [], false, [⟨31, 0, .rc, 0⟩]⟩,
  ⟨"RP_NT_SCRUB_PASSES", 0x00309010, [], false, [⟨31, 0, .ro, 0⟩]⟩,
  ⟨"RP_NT_LAST_UNCORR", 0x00309014, [], false, [⟨18, 0, .ro, 0⟩]⟩,
  ⟨"RP_NT_RMW_INDEX", 0x00309100, [(0x20, 4)], false, [⟨19, 0, .rw, 0⟩]⟩,
  ⟨"RP_NT_RMW_MASK", 0x00309108, [(0x20, 4)], true, [⟨63, 0, .rw, 0⟩]⟩,
  ⟨"RP_NT_RMW_DATA", 0x00309110, [(0x20, 4)], true, [⟨63, 0, .own, 0⟩]⟩,
  ⟨"RP_NT_RMW_RESULT", 0x00309118, [(0x20, 4)], true, [⟨63, 0, .ro, 0⟩]⟩]

/-- Registers of RP. -/
def rpRegs : List RegDesc := rpRegs1 ++ rpRegs2

/-- Registers of RRU (R270). -/
def rruRegs : List RegDesc := [
  ⟨"RRU_CTRL", 0x00400000, [], false, [⟨0, 0, .own, 0⟩, ⟨1, 1, .rw, 0⟩]⟩,
  ⟨"RRU_STAT", 0x00400004, [], false, [⟨1, 0, .ro, 0⟩, ⟨2, 2, .ro, 0⟩, ⟨3, 3, .w1c, 0⟩, ⟨4, 4, .w1c, 0⟩]⟩,
  ⟨"RRU_ERR", 0x00400008, [], false, [⟨0, 0, .w1c, 0⟩]⟩,
  ⟨"RRU_LINE", 0x00400010, [], true, [⟨63, 0, .ro, 0⟩]⟩,
  ⟨"RRU_SNAP_TAKEN", 0x00400018, [], true, [⟨63, 0, .ro, 0⟩]⟩,
  ⟨"RRU_SNAP_RETIRED", 0x00400020, [], true, [⟨63, 0, .ro, 0⟩]⟩,
  ⟨"RRU_SNAP_WATCH", 0x00400028, [], true, [⟨63, 0, .rw, 0xffffffffffffffff⟩]⟩,
  ⟨"RRU_LATE", 0x00400030, [], false, [⟨31, 0, .rc, 0⟩]⟩,
  ⟨"RRU_ECC_CORR", 0x00400034, [], false, [⟨31, 0, .rc, 0⟩]⟩,
  ⟨"RRU_INVALID_FILLS", 0x00400038, [], false, [⟨31, 0, .rc, 0⟩]⟩,
  ⟨"RRU_BANK_CH_CFG", 0x00401000, [(0x400, 2), (0x40, 8)], false, [⟨0, 0, .rw, 0⟩, ⟨6, 4, .rw, 0⟩, ⟨8, 8, .rw, 0⟩]⟩,
  ⟨"RRU_BANK_CH_XORG", 0x00401004, [(0x400, 2), (0x40, 8)], false, [⟨31, 0, .rw, 0⟩]⟩,
  ⟨"RRU_BANK_CH_DIST", 0x00401008, [(0x400, 2), (0x40, 8)], true, [⟨63, 0, .rw, 0⟩]⟩,
  ⟨"RRU_BANK_CH_ORIGIN", 0x00401010, [(0x400, 2), (0x40, 8)], true, [⟨63, 0, .rw, 0⟩]⟩,
  ⟨"RRU_BANK_CH_PITCH", 0x00401018, [(0x400, 2), (0x40, 8)], true, [⟨15, 0, .rw, 0xaaab⟩, ⟨47, 16, .rw, 0x52ae⟩]⟩,
  ⟨"RRU_BANK_CH_XSTEP", 0x00401020, [(0x400, 2), (0x40, 8)], false, [⟨31, 0, .rw, 0x10000⟩]⟩,
  ⟨"RRU_BANK_CURVE", 0x00404000, [(0x1000, 2), (0x200, 8), (0x4, 128)], false, [⟨11, 0, .rw, 0⟩, ⟨27, 16, .rw, 0⟩]⟩]

/-- Registers of FTU (R146, R174). -/
def ftuRegs : List RegDesc := [
  ⟨"FTU_OVS_CTRL", 0x0050E000, [], false, [⟨0, 0, .own, 0⟩, ⟨1, 1, .ro, 0⟩, ⟨2, 2, .w1c, 0⟩, ⟨3, 3, .w1c, 0⟩, ⟨11, 8, .rw, 0xc⟩]⟩,
  ⟨"FTU_OVS_HOLD", 0x0050E004, [], false, [⟨31, 0, .rw, 0x989680⟩]⟩,
  ⟨"FTU_OVS_INH_WCO", 0x0050E008, [], true, [⟨63, 0, .ro, 0⟩]⟩,
  ⟨"FTU_OVS_RES_WCO", 0x0050E010, [], true, [⟨63, 0, .ro, 0⟩]⟩,
  ⟨"FTU_OVS_SKIP_LINES", 0x0050E018, [], false, [⟨31, 0, .rc, 0⟩]⟩,
  ⟨"FTU_OVS_RECORDS", 0x0050E01C, [], false, [⟨31, 0, .rc, 0⟩]⟩,
  ⟨"FTU_CTRL", 0x00500000, [], false, [⟨0, 0, .rw, 0⟩, ⟨1, 1, .own, 0⟩, ⟨11, 8, .rw, 0xe⟩]⟩,
  ⟨"FTU_STAT", 0x00500004, [], false, [⟨0, 0, .ro, 1⟩]⟩,
  ⟨"FTU_ERR", 0x00500008, [], false, [⟨0, 0, .w1c, 0⟩]⟩,
  ⟨"FTU_LATE_COUNT", 0x0050000C, [], false, [⟨31, 0, .rc, 0⟩]⟩,
  ⟨"FTU_SUPPRESSED", 0x00500010, [], false, [⟨31, 0, .rc, 0⟩]⟩,
  ⟨"FTU_ACK_ERRS", 0x00500014, [], false, [⟨31, 0, .rc, 0⟩]⟩,
  ⟨"FTU_STROBES", 0x00500018, [], true, [⟨63, 0, .ro, 0⟩]⟩,
  ⟨"FTU_STORE_NEED", 0x00500020, [], false, [⟨11, 0, .ro, 0⟩]⟩,
  ⟨"FTU_STORE_USED", 0x00500024, [], false, [⟨11, 0, .ro, 0⟩]⟩,
  ⟨"FTU_STORE_PEAK", 0x00500028, [], false, [⟨11, 0, .rc, 0⟩]⟩,
  ⟨"FTU_STORE_ECC_CORR", 0x0050002C, [], false, [⟨31, 0, .rc, 0⟩]⟩,
  ⟨"FTU_LINK_CFG", 0x00501000, [(0x40, 32)], false, [⟨0, 0, .rw, 0⟩, ⟨2, 1, .rw, 3⟩, ⟨25, 16, .rw, 0⟩]⟩,
  ⟨"FTU_LINK_STAT", 0x00501004, [(0x40, 32)], false, [⟨0, 0, .ro, 0⟩, ⟨1, 1, .w1c, 0⟩, ⟨2, 2, .w1c, 0⟩]⟩,
  ⟨"FTU_LINK_ACKS", 0x00501008, [(0x40, 32)], false, [⟨31, 0, .rc, 0⟩]⟩,
  ⟨"FTU_HEAD_CFG", 0x00502000, [(0x40, 128)], false, [⟨0, 0, .own, 0⟩, ⟨7, 1, .rw, 0x40⟩, ⟨9, 8, .rw, 0⟩, ⟨10, 10, .rw, 0⟩, ⟨15, 12, .rw, 0⟩, ⟨25, 16, .rw, 0x84⟩]⟩,
  ⟨"FTU_HEAD_STROBE", 0x00502004, [(0x40, 128)], false, [⟨15, 0, .rw, 0x1f40⟩, ⟨31, 16, .rw, 0⟩]⟩,
  ⟨"FTU_HEAD_MIN_IVL", 0x00502008, [(0x40, 128)], false, [⟨31, 0, .rw, 0x8200⟩]⟩,
  ⟨"FTU_HEAD_DIST_TRIM", 0x0050200C, [(0x40, 128)], false, [⟨15, 0, .rw, 0⟩]⟩,
  ⟨"FTU_HEAD_STAT", 0x00502010, [(0x40, 128)], false, [⟨2, 0, .ro, 0⟩, ⟨3, 3, .own, 0⟩, ⟨4, 4, .w1c, 0⟩, ⟨5, 5, .w1c, 0⟩, ⟨6, 6, .w1c, 0⟩, ⟨15, 8, .ro, 0x80⟩]⟩,
  ⟨"FTU_HEAD_LAST_LINE", 0x00502014, [(0x40, 128)], false, [⟨31, 0, .ro, 0⟩]⟩,
  ⟨"FTU_HEAD_LAST_STROBE", 0x00502018, [(0x40, 128)], true, [⟨63, 0, .ro, 0⟩]⟩,
  ⟨"FTU_HEAD_LATE_COUNT", 0x00502020, [(0x40, 128)], false, [⟨31, 0, .rc, 0⟩]⟩]

/-- Registers of DGU (R202). -/
def dguRegs1 : List RegDesc := [
  ⟨"DGU_ERR", 0x00600000, [], false, [⟨0, 0, .w1c, 0⟩]⟩,
  ⟨"DGU_COLLIDE", 0x00600004, [], false, [⟨31, 0, .rc, 0⟩]⟩,
  ⟨"DGU_RES_LOST", 0x00600008, [], false, [⟨31, 0, .rc, 0⟩]⟩,
  ⟨"DGU_WINDOWS", 0x00600010, [], true, [⟨63, 0, .ro, 0⟩]⟩,
  ⟨"DGU_CLK", 0x00600040, [(0x4, 4)], false, [⟨6, 0, .rw, 0xa⟩, ⟨8, 8, .rw, 0⟩, ⟨9, 9, .rw, 0⟩]⟩,
  ⟨"DGU_CH_CFG", 0x00600100, [(0x40, 16)], false, [⟨0, 0, .rw, 0⟩, ⟨7, 4, .rw, 0⟩, ⟨8, 8, .rw, 0⟩, ⟨14, 12, .rw, 4⟩, ⟨15, 15, .rw, 1⟩, ⟨23, 16, .rw, 0xf⟩, ⟨31, 24, .rw, 0⟩]⟩,
  ⟨"DGU_CH_GAIN", 0x00600104, [(0x40, 16)], false, [⟨15, 0, .rw, 0x7fff⟩, ⟨21, 16, .rw, 8⟩]⟩,
  ⟨"DGU_CH_DELAY", 0x00600108, [(0x40, 16)], false, [⟨9, 0, .rw, 0⟩]⟩,
  ⟨"DGU_CH_STAT", 0x0060010C, [(0x40, 16)], false, [⟨0, 0, .ro, 1⟩, ⟨1, 1, .w1c, 0⟩]⟩,
  ⟨"DGU_CH_WIN_START", 0x00600110, [(0x40, 16)], false, [⟨23, 0, .rw, 0⟩]⟩,
  ⟨"DGU_CH_WIN_LEN", 0x00600114, [(0x40, 16)], false, [⟨19, 0, .rw, 0x7d00⟩]⟩,
  ⟨"DGU_CH_BASE_LEN", 0x00600118, [(0x40, 16)], false, [⟨19, 0, .rw, 0x3200⟩]⟩,
  ⟨"DGU_CH_ARR_MIN", 0x0060011C, [(0x40, 16)], false, [⟨23, 0, .rw, 0⟩]⟩,
  ⟨"DGU_CH_ARR_MAX", 0x00600120, [(0x40, 16)], false, [⟨23, 0, .rw, 0xffffff⟩]⟩,
  ⟨"DGU_CH_MISS_THR", 0x00600124, [(0x40, 16)], false, [⟨23, 0, .rw, 0⟩]⟩,
  ⟨"DGU_CH_WEAK_THR", 0x00600128, [(0x40, 16)], false, [⟨31, 0, .rw, 0⟩]⟩,
  ⟨"DGU_CH_COVER_SECT", 0x0060012C, [(0x40, 16)], false, [⟨31, 0, .rw, 0⟩]⟩,
  ⟨"DGU_CH_COVER_POS", 0x00600130, [(0x40, 16)], false, [⟨13, 0, .rw, 0⟩, ⟨29, 16, .rw, 0x3fff⟩]⟩,
  ⟨"DGU_CH_SAMPLE", 0x00600134, [(0x40, 16)], false, [⟨31, 0, .ro, 0⟩]⟩,
  ⟨"DGU_CH_WIN_PEND", 0x00600138, [(0x40, 16)], false, [⟨6, 0, .ro, 0⟩]⟩,
  ⟨"DGU_CH_UNSETTLED", 0x0060013C, [(0x40, 16)], false, [⟨31, 0, .rc, 0⟩]⟩,
  ⟨"DGU_SCAN_CTRL", 0x00600800, [(0x40, 8)], false, [⟨0, 0, .ownSet, 0⟩, ⟨1, 1, .own, 0⟩, ⟨3, 2, .ro, 0⟩, ⟨5, 4, .rw, 1⟩, ⟨6, 6, .rw, 0⟩, ⟨10, 8, .rw, 4⟩, ⟨17, 12, .rw, 3⟩, ⟨23, 18, .rw, 2⟩, ⟨26, 24, .rw, 0⟩, ⟨31, 27, .rw, 4⟩]⟩,
  ⟨"DGU_SCAN_START_WCO", 0x00600808, [(0x40, 8)], true, [⟨63, 0, .rw, 0⟩]⟩,
  ⟨"DGU_SCAN_END_WCO", 0x00600810, [(0x40, 8)], true, [⟨63, 0, .rw, 0⟩]⟩,
  ⟨"DGU_SCAN_LIST_BASE", 0x00600818, [(0x40, 8)], true, [⟨63, 0, .rw, 0⟩]⟩,
  ⟨"DGU_SCAN_COUNT", 0x00600820, [(0x40, 8)], false, [⟨12, 0, .rw, 1⟩, ⟨31, 16, .rw, 1⟩]⟩,
  ⟨"DGU_SCAN_DONE_COUNT", 0x00600824, [(0x40, 8)], false, [⟨12, 0, .ro, 0⟩]⟩,
  ⟨"DGU_SCAN_STAT", 0x00600828, [(0x40, 8)], false, [⟨0, 0, .w1c, 0⟩, ⟨1, 1, .w1c, 0⟩]⟩,
  ⟨"DGU_RES_BASE", 0x00600C00, [], true, [⟨63, 0, .rw, 0⟩]⟩,
  ⟨"DGU_RES_CFG", 0x00600C08, [], false, [⟨4, 0, .rw, 0xc⟩, ⟨8, 8, .rw, 0⟩, ⟨9, 9, .rw, 0⟩]⟩]

/-- Registers of DGU (R202, R203). -/
def dguRegs2 : List RegDesc := [
  ⟨"DGU_RES_PROD", 0x00600C0C, [], false, [⟨31, 0, .ro, 0⟩]⟩,
  ⟨"DGU_RES_CONS", 0x00600C10, [], false, [⟨31, 0, .rw, 0⟩]⟩,
  ⟨"DGU_HB_CFG", 0x00608000, [(0x40, 4)], false, [⟨0, 0, .ownSet, 0⟩, ⟨3, 1, .rw, 0⟩, ⟨6, 4, .rw, 0⟩, ⟨10, 8, .rw, 0⟩, ⟨13, 12, .rw, 3⟩, ⟨14, 14, .rw, 0⟩]⟩,
  ⟨"DGU_HB_STAT", 0x00608004, [(0x40, 4)], false, [⟨0, 0, .w1c, 0⟩, ⟨1, 1, .w1c, 0⟩]⟩,
  ⟨"DGU_HB_LINES_OUT", 0x00608008, [(0x40, 4)], false, [⟨31, 0, .ro, 0⟩]⟩,
  ⟨"DGU_HB_ECC_CORR", 0x0060800C, [(0x40, 4)], false, [⟨31, 0, .rc, 0⟩]⟩,
  ⟨"DGU_HB_ERR", 0x00608100, [], false, [⟨0, 0, .w1c, 0⟩]⟩]

/-- Registers of DGU. -/
def dguRegs : List RegDesc := dguRegs1 ++ dguRegs2

/-- Registers of CIN (R227). -/
def cinRegs1 : List RegDesc := [
  ⟨"CIN_PORT_CTRL", 0x00700000, [(0x1000, 16)], false, [⟨0, 0, .own, 0⟩, ⟨1, 1, .own, 0⟩, ⟨12, 8, .rw, 0⟩, ⟨25, 16, .rw, 0⟩]⟩,
  ⟨"CIN_PORT_STAT", 0x00700004, [(0x1000, 16)], false, [⟨1, 0, .ro, 0⟩, ⟨2, 2, .ro, 0⟩, ⟨3, 3, .w1c, 0⟩, ⟨4, 4, .w1c, 0⟩, ⟨6, 5, .ro, 0⟩, ⟨7, 7, .w1c, 0⟩]⟩,
  ⟨"CIN_PORT_ERR", 0x00700008, [(0x1000, 16)], false, [⟨0, 0, .w1c, 0⟩]⟩,
  ⟨"CIN_PORT_CFG", 0x0070000C, [(0x1000, 16)], false, [⟨1, 0, .rw, 2⟩, ⟨2, 2, .rw, 0⟩, ⟨4, 3, .rw, 0⟩]⟩,
  ⟨"CIN_PORT_WIDTH", 0x00700010, [(0x1000, 16)], false, [⟨14, 0, .rw, 0x4000⟩]⟩,
  ⟨"CIN_PORT_PAD", 0x00700014, [(0x1000, 16)], false, [⟨11, 0, .rw, 0⟩]⟩,
  ⟨"CIN_PORT_STRIP", 0x00700018, [(0x1000, 16)], false, [⟨15, 0, .rw, 0x3ff⟩, ⟨31, 16, .rw, 0x40⟩]⟩,
  ⟨"CIN_PORT_STRIP_ORIGIN", 0x00700020, [(0x1000, 16)], true, [⟨63, 0, .rw, 0⟩]⟩,
  ⟨"CIN_PORT_TRIG", 0x00700028, [(0x1000, 16)], false, [⟨15, 0, .rw, 0x280⟩, ⟨19, 16, .rw, 4⟩]⟩,
  ⟨"CIN_PORT_EXP_TIME", 0x00700030, [(0x1000, 16)], false, [⟨19, 0, .rw, 0x3200⟩]⟩,
  ⟨"CIN_PORT_EXP_GAIN", 0x00700034, [(0x1000, 16)], false, [⟨15, 0, .rw, 0x100⟩, ⟨31, 16, .rw, 0x400⟩]⟩,
  ⟨"CIN_PORT_EXP_ID", 0x00700038, [(0x1000, 16)], false, [⟨11, 0, .rw, 0⟩, ⟨31, 16, .rw, 0⟩]⟩,
  ⟨"CIN_PORT_EXP_STATE", 0x0070003C, [(0x1000, 16)], false, [⟨15, 0, .ro, 0⟩, ⟨31, 16, .ro, 0⟩]⟩,
  ⟨"CIN_PORT_EXP_TARGET", 0x00700040, [(0x1000, 16)], false, [⟨31, 0, .ro, 0⟩]⟩,
  ⟨"CIN_PORT_STRIP_DONE", 0x00700044, [(0x1000, 16)], false, [⟨31, 0, .ro, 0⟩]⟩,
  ⟨"CIN_PORT_MISS_SPANS", 0x00700048, [(0x1000, 16)], false, [⟨31, 0, .rc, 0⟩]⟩,
  ⟨"CIN_PORT_LINES", 0x00700050, [(0x1000, 16)], true, [⟨63, 0, .ro, 0⟩]⟩,
  ⟨"CIN_PORT_SHORT", 0x00700058, [(0x1000, 16)], false, [⟨31, 0, .rc, 0⟩]⟩,
  ⟨"CIN_PORT_LONG", 0x0070005C, [(0x1000, 16)], false, [⟨31, 0, .rc, 0⟩]⟩,
  ⟨"CIN_PORT_MISSING", 0x00700060, [(0x1000, 16)], false, [⟨31, 0, .rc, 0⟩]⟩,
  ⟨"CIN_PORT_UNSOLICITED", 0x00700064, [(0x1000, 16)], false, [⟨31, 0, .rc, 0⟩]⟩,
  ⟨"CIN_PORT_VC_DROPPED", 0x00700068, [(0x1000, 16)], false, [⟨31, 0, .rc, 0⟩]⟩,
  ⟨"CIN_PORT_EXP_MISMATCH", 0x0070006C, [(0x1000, 16)], false, [⟨31, 0, .rc, 0⟩]⟩,
  ⟨"CIN_PORT_TRIG_LATE", 0x00700070, [(0x1000, 16)], false, [⟨31, 0, .rc, 0⟩]⟩,
  ⟨"CIN_PORT_ECC_CORR", 0x00700074, [(0x1000, 16)], false, [⟨31, 0, .rc, 0⟩]⟩,
  ⟨"CIN_PORT_TEL_BASE", 0x00700080, [(0x1000, 16)], true, [⟨63, 0, .rw, 0⟩]⟩,
  ⟨"CIN_PORT_TEL_CFG", 0x00700088, [(0x1000, 16)], false, [⟨4, 0, .rw, 8⟩, ⟨8, 8, .rw, 0⟩]⟩,
  ⟨"CIN_PORT_TEL_PROD", 0x0070008C, [(0x1000, 16)], false, [⟨31, 0, .ro, 0⟩]⟩,
  ⟨"CIN_PORT_TEL_CONS", 0x00700090, [(0x1000, 16)], false, [⟨31, 0, .rw, 0⟩]⟩,
  ⟨"CIN_PORT_TEL_LOST", 0x00700094, [(0x1000, 16)], false, [⟨31, 0, .rc, 0⟩]⟩]

/-- Registers of CIN (R227). -/
def cinRegs2 : List RegDesc := [
  ⟨"CIN_PORT_TEL_ALARM_MASK", 0x00700098, [(0x1000, 16)], false, [⟨31, 0, .rw, 7⟩]⟩,
  ⟨"CIN_PORT_TEL_TEMP_LIMIT", 0x0070009C, [(0x1000, 16)], false, [⟨15, 0, .rw, 0x3c0⟩]⟩,
  ⟨"CIN_PORT_TEL_LAST", 0x007000A0, [(0x1000, 16), (0x8, 3)], true, [⟨63, 0, .ro, 0⟩]⟩]

/-- Registers of CIN. -/
def cinRegs : List RegDesc := cinRegs1 ++ cinRegs2

/-- Registers of IPL (R268). -/
def iplRegs1 : List RegDesc := [
  ⟨"IPL_CTRL", 0x00800000, [], false, [⟨0, 0, .own, 0⟩, ⟨1, 1, .rw, 0⟩, ⟨2, 2, .rw, 1⟩, ⟨12, 8, .rw, 0⟩, ⟨18, 16, .rw, 3⟩]⟩,
  ⟨"IPL_STAT", 0x00800004, [], false, [⟨1, 0, .ro, 0⟩, ⟨2, 2, .ro, 0⟩, ⟨3, 3, .w1c, 0⟩, ⟨4, 4, .w1c, 0⟩]⟩,
  ⟨"IPL_ERR", 0x00800008, [], false, [⟨0, 0, .w1c, 0⟩]⟩,
  ⟨"IPL_WIDTH", 0x0080000C, [], false, [⟨16, 0, .rw, 0x7fff⟩]⟩,
  ⟨"IPL_LINE", 0x00800010, [], true, [⟨63, 0, .ro, 0⟩]⟩,
  ⟨"IPL_LINES", 0x00800018, [], true, [⟨63, 0, .ro, 0⟩]⟩,
  ⟨"IPL_VOID_LINES", 0x00800020, [], false, [⟨31, 0, .rc, 0⟩]⟩,
  ⟨"IPL_BLOBS", 0x00800024, [], false, [⟨31, 0, .rc, 0⟩]⟩,
  ⟨"IPL_BLOBS_SMALL", 0x00800028, [], false, [⟨31, 0, .rc, 0⟩]⟩,
  ⟨"IPL_SEG_LOST", 0x0080002C, [], false, [⟨31, 0, .rc, 0⟩]⟩,
  ⟨"IPL_STREAKS", 0x00800030, [], false, [⟨31, 0, .rc, 0⟩]⟩,
  ⟨"IPL_ECC_CORR", 0x00800034, [], false, [⟨31, 0, .rc, 0⟩]⟩,
  ⟨"IPL_SEG", 0x00800040, [], false, [⟨5, 0, .rw, 2⟩, ⟨13, 8, .rw, 1⟩]⟩,
  ⟨"IPL_STREAK", 0x00800044, [], false, [⟨15, 0, .rw, 0x200⟩, ⟨23, 16, .rw, 4⟩]⟩,
  ⟨"IPL_DEF", 0x00800048, [], false, [⟨3, 0, .rw, 0xa⟩, ⟨7, 4, .rw, 8⟩]⟩,
  ⟨"IPL_CROP", 0x0080004C, [], false, [⟨0, 0, .rw, 0⟩, ⟨15, 8, .rw, 0x10⟩]⟩,
  ⟨"IPL_MERGE", 0x00800050, [], false, [⟨15, 0, .rw, 0xc000⟩, ⟨31, 16, .rw, 0xf000⟩]⟩,
  ⟨"IPL_STATS_BASE", 0x00800080, [], true, [⟨63, 0, .rw, 0⟩]⟩,
  ⟨"IPL_STATS_CFG", 0x00800088, [], false, [⟨3, 0, .rw, 6⟩, ⟨8, 8, .rw, 0⟩, ⟨9, 9, .rw, 0⟩, ⟨21, 16, .rw, 0x10⟩]⟩,
  ⟨"IPL_STATS_PROD", 0x0080008C, [], false, [⟨31, 0, .ro, 0⟩]⟩,
  ⟨"IPL_STATS_CONS", 0x00800090, [], false, [⟨31, 0, .rw, 0⟩]⟩,
  ⟨"IPL_STATS_LOST", 0x00800094, [], false, [⟨31, 0, .rc, 0⟩]⟩,
  ⟨"IPL_MV_BASE", 0x008000C0, [], true, [⟨63, 0, .rw, 0⟩]⟩,
  ⟨"IPL_MV_CFG", 0x008000C8, [], false, [⟨4, 0, .rw, 8⟩, ⟨8, 8, .rw, 0⟩]⟩,
  ⟨"IPL_MV_STRIDE", 0x008000CC, [], false, [⟨23, 0, .ro, 0⟩]⟩,
  ⟨"IPL_MV_PROD", 0x008000D0, [], true, [⟨63, 0, .ro, 0⟩]⟩,
  ⟨"IPL_OUT_BASE", 0x00800100, [(0x20, 4)], true, [⟨63, 0, .rw, 0⟩]⟩,
  ⟨"IPL_OUT_CFG", 0x00800108, [(0x20, 4)], false, [⟨3, 0, .rw, 4⟩, ⟨8, 8, .rw, 0⟩, ⟨9, 9, .rw, 0⟩]⟩,
  ⟨"IPL_OUT_PROD", 0x0080010C, [(0x20, 4)], false, [⟨31, 0, .ro, 0⟩]⟩,
  ⟨"IPL_OUT_CONS", 0x00800110, [(0x20, 4)], false, [⟨31, 0, .rw, 0⟩]⟩]

/-- Registers of IPL (R268, R269). -/
def iplRegs2 : List RegDesc := [
  ⟨"IPL_OUT_LOST", 0x00800114, [(0x20, 4)], false, [⟨31, 0, .rc, 0⟩]⟩,
  ⟨"IPL_OUT_ENTRY_SIZE", 0x00800118, [(0x20, 4)], false, [⟨23, 0, .ro, 0⟩]⟩,
  ⟨"IPL_SLOT_CFG", 0x00800400, [(0x10, 16)], false, [⟨0, 0, .rw, 0⟩, ⟨7, 4, .rw, 0⟩, ⟨13, 8, .rw, 0⟩]⟩,
  ⟨"IPL_SLOT_U_START", 0x00800404, [(0x10, 16)], false, [⟨16, 0, .rw, 0⟩]⟩,
  ⟨"IPL_SLOT_U_END", 0x00800408, [(0x10, 16)], false, [⟨16, 0, .rw, 0⟩]⟩,
  ⟨"IPL_SLOT_VOID_LINES", 0x0080040C, [(0x10, 16)], false, [⟨31, 0, .rc, 0⟩]⟩,
  ⟨"IPL_BANK_TOL_BASE", 0x00800800, [(0x20, 2)], true, [⟨63, 0, .rw, 0⟩]⟩,
  ⟨"IPL_BANK_TOL_GEOM", 0x00800808, [(0x20, 2)], false, [⟨12, 0, .rw, 0x7ff⟩, ⟨31, 16, .rw, 0⟩]⟩,
  ⟨"IPL_BANK_TOL_LINE0", 0x00800810, [(0x20, 2)], true, [⟨63, 0, .rw, 0⟩]⟩,
  ⟨"IPL_TBL_SEL", 0x00801000, [], false, [⟨2, 0, .rw, 0⟩]⟩,
  ⟨"IPL_TBL_ADDR", 0x00801004, [], false, [⟨19, 0, .rw, 0⟩]⟩,
  ⟨"IPL_TBL_DATA", 0x00801008, [], false, [⟨31, 0, .own, 0⟩]⟩,
  ⟨"IPL_TBL_ECC_UNCORR", 0x0080100C, [], false, [⟨19, 0, .ro, 0⟩, ⟨22, 20, .ro, 0⟩]⟩]

/-- Registers of IPL. -/
def iplRegs : List RegDesc := iplRegs1 ++ iplRegs2

/-- Registers of DFQ (R292). -/
def dfqRegs : List RegDesc := [
  ⟨"DFQ_CTRL", 0x00900000, [], false, [⟨0, 0, .rw, 1⟩, ⟨1, 1, .own, 0⟩, ⟨2, 2, .own, 0⟩, ⟨11, 8, .rw, 0xc⟩]⟩,
  ⟨"DFQ_STAT", 0x00900004, [], false, [⟨12, 0, .ro, 0⟩, ⟨13, 13, .ro, 1⟩, ⟨31, 16, .w1c, 0⟩]⟩,
  ⟨"DFQ_ERR", 0x00900008, [], false, [⟨0, 0, .w1c, 0⟩]⟩,
  ⟨"DFQ_NEXT_ID", 0x0090000C, [], false, [⟨31, 0, .ro, 0⟩]⟩,
  ⟨"DFQ_LOST", 0x00900010, [], false, [⟨31, 0, .rc, 0⟩]⟩,
  ⟨"DFQ_LOST_RECORDS", 0x00900014, [], false, [⟨31, 0, .rc, 0⟩]⟩,
  ⟨"DFQ_DROPPED", 0x00900018, [], false, [⟨31, 0, .rc, 0⟩]⟩,
  ⟨"DFQ_FLUSHED", 0x0090001C, [], false, [⟨31, 0, .rc, 0⟩]⟩,
  ⟨"DFQ_FILL_WATCH", 0x00900020, [], false, [⟨12, 0, .rw, 0xc00⟩]⟩,
  ⟨"DFQ_PEAK", 0x00900024, [], false, [⟨12, 0, .rc, 0⟩]⟩,
  ⟨"DFQ_ADMITTED", 0x00900028, [], true, [⟨63, 0, .ro, 0⟩]⟩,
  ⟨"DFQ_SEV", 0x00900030, [], false, [⟨3, 0, .rw, 0xe⟩, ⟨7, 4, .rw, 0xf⟩]⟩,
  ⟨"DFQ_FLR_LOST", 0x00900034, [], false, [⟨31, 0, .rc, 0⟩]⟩,
  ⟨"DFQ_RD", 0x00900100, [(0x4, 16)], false, [⟨31, 0, .ro, 0⟩]⟩,
  ⟨"DFQ_RD_STAT", 0x00900140, [], false, [⟨0, 0, .ro, 0⟩, ⟨4, 1, .ro, 0⟩]⟩,
  ⟨"DFQ_PUSH", 0x00900200, [(0x4, 16)], false, [⟨31, 0, .wo, 0⟩]⟩,
  ⟨"DFQ_PUSH_CTRL", 0x00900240, [], false, [⟨0, 0, .own, 0⟩]⟩,
  ⟨"DFQ_PUSH_STAT", 0x00900244, [], false, [⟨3, 0, .ro, 0⟩, ⟨4, 4, .w1c, 0⟩]⟩,
  ⟨"DFQ_DRAIN_BASE", 0x00900300, [], true, [⟨63, 0, .rw, 0⟩]⟩,
  ⟨"DFQ_DRAIN_CFG", 0x00900308, [], false, [⟨4, 0, .rw, 8⟩, ⟨8, 8, .rw, 0⟩, ⟨9, 9, .rw, 0⟩, ⟨15, 12, .rw, 0⟩]⟩,
  ⟨"DFQ_DRAIN_PROD", 0x0090030C, [], false, [⟨31, 0, .ro, 0⟩]⟩,
  ⟨"DFQ_DRAIN_CONS", 0x00900310, [], false, [⟨31, 0, .rw, 0⟩]⟩]

/-- Registers of FAB (R321). -/
def fabRegs : List RegDesc := [
  ⟨"FAB_CTRL", 0x00A00000, [], false, [⟨0, 0, .own, 0⟩, ⟨1, 1, .own, 0⟩, ⟨2, 2, .own, 0⟩, ⟨3, 3, .rw, 1⟩, ⟨4, 4, .rw, 0⟩, ⟨5, 5, .own, 0⟩]⟩,
  ⟨"FAB_STAT", 0x00A00004, [], false, [⟨2, 0, .ro, 0⟩, ⟨3, 3, .w1c, 0⟩, ⟨4, 4, .w1c, 0⟩, ⟨5, 5, .ro, 0⟩, ⟨6, 6, .ro, 0⟩, ⟨7, 7, .ro, 0⟩, ⟨17, 8, .ro, 0⟩, ⟨27, 18, .ro, 0⟩]⟩,
  ⟨"FAB_ERR", 0x00A00008, [], false, [⟨0, 0, .w1c, 0⟩]⟩,
  ⟨"FAB_ERR_INDEX", 0x00A0000C, [], false, [⟨31, 0, .ro, 0⟩]⟩,
  ⟨"FAB_LOAD_BASE", 0x00A00010, [], true, [⟨63, 0, .rw, 0⟩]⟩,
  ⟨"FAB_LOAD_LEN", 0x00A00018, [], false, [⟨31, 0, .rw, 0⟩]⟩,
  ⟨"FAB_POS", 0x00A0001C, [], false, [⟨31, 0, .ro, 0⟩]⟩,
  ⟨"FAB_SPLICE_WCO", 0x00A00020, [], true, [⟨63, 0, .own, 0⟩]⟩,
  ⟨"FAB_IMAGE_ID", 0x00A00028, [], false, [⟨31, 0, .ro, 0⟩]⟩,
  ⟨"FAB_JOB_ID", 0x00A0002C, [], false, [⟨31, 0, .ro, 0⟩]⟩,
  ⟨"FAB_MASK", 0x00A00030, [], false, [⟨9, 0, .ro, 0⟩]⟩,
  ⟨"FAB_TWIN_MARGIN", 0x00A00034, [], false, [⟨31, 0, .rw, 0x989680⟩]⟩,
  ⟨"FAB_MISS_WCO", 0x00A00038, [], true, [⟨63, 0, .ro, 0⟩]⟩,
  ⟨"FAB_QUEUED", 0x00A00040, [], false, [⟨10, 0, .ro, 0⟩]⟩,
  ⟨"FAB_DIGEST", 0x00A00080, [(0x4, 12)], false, [⟨31, 0, .ro, 0⟩]⟩,
  ⟨"FAB_ST_OFFSET", 0x00A00100, [(0x8, 10)], true, [⟨63, 0, .rw, 0⟩]⟩,
  ⟨"FAB_ST_SWLINE", 0x00A00200, [(0x8, 10)], true, [⟨63, 0, .ro, 0⟩]⟩]

/-- Registers of ENG (R346). -/
def engRegs : List RegDesc := [
  ⟨"ENG_STAT", 0x00B00000, [], false, [⟨0, 0, .ro, 0⟩]⟩,
  ⟨"ENG_ERR", 0x00B00008, [], false, [⟨0, 0, .w1c, 0⟩]⟩,
  ⟨"ENG_SIG_MERGED", 0x00B00010, [], false, [⟨31, 0, .rc, 0⟩]⟩,
  ⟨"ENG_START", 0x00B00040, [(0x4, 6)], false, [⟨31, 0, .own, 0⟩]⟩,
  ⟨"ENG_STOP", 0x00B00060, [(0x4, 6)], false, [⟨31, 0, .own, 0⟩]⟩,
  ⟨"ENG_OFF", 0x00B00080, [(0x4, 6)], false, [⟨31, 0, .own, 0⟩]⟩,
  ⟨"ENG_RUNNING", 0x00B000A0, [(0x4, 6)], false, [⟨31, 0, .ro, 0⟩]⟩,
  ⟨"ENG_FAULTED", 0x00B000C0, [(0x4, 6)], false, [⟨31, 0, .w1c, 0⟩]⟩,
  ⟨"ENGINE_STAT", 0x00B01000, [(0x40, 192)], false, [⟨2, 0, .ro, 0⟩, ⟨15, 8, .ro, 0⟩, ⟨27, 16, .ro, 0⟩]⟩,
  ⟨"ENGINE_PC", 0x00B01008, [(0x40, 192)], true, [⟨63, 0, .rw, 0⟩]⟩,
  ⟨"ENGINE_ARG", 0x00B01010, [(0x40, 192)], true, [⟨63, 0, .rw, 0⟩]⟩,
  ⟨"ENGINE_FAULT_ADDR", 0x00B01018, [(0x40, 192)], true, [⟨63, 0, .ro, 0⟩]⟩,
  ⟨"ENGINE_EV", 0x00B01020, [(0x40, 192)], false, [⟨7, 0, .w1c, 0⟩]⟩,
  ⟨"ENGINE_ECC_CORR", 0x00B01024, [(0x40, 192)], false, [⟨31, 0, .rc, 0⟩]⟩,
  ⟨"ENG_CL_ECC_CORR", 0x00B04000, [(0x10, 12)], false, [⟨31, 0, .rc, 0⟩]⟩,
  ⟨"ENG_CL_UNCORR_ADDR", 0x00B04004, [(0x10, 12)], false, [⟨20, 0, .ro, 0⟩]⟩,
  ⟨"ENG_CL_BANK_CONFLICTS", 0x00B04008, [(0x10, 12)], false, [⟨31, 0, .rc, 0⟩]⟩]

/-- Registers of EVF (R363). -/
def evfRegs : List RegDesc := [
  ⟨"EVF_COMMIT", 0x00C00000, [], false, [⟨0, 0, .own, 0⟩]⟩,
  ⟨"EVF_COMMIT_STAT", 0x00C00004, [], false, [⟨0, 0, .ro, 0⟩, ⟨1, 1, .w1c, 0⟩, ⟨2, 2, .w1c, 0⟩, ⟨24, 16, .ro, 0⟩]⟩,
  ⟨"EVF_COMMIT_CODE", 0x00C00008, [], false, [⟨31, 0, .ro, 0⟩]⟩,
  ⟨"EVF_ERR", 0x00C0000C, [], false, [⟨0, 0, .w1c, 0⟩]⟩,
  ⟨"EVF_LOOP_DROPS", 0x00C00010, [], false, [⟨31, 0, .rc, 0⟩]⟩,
  ⟨"EVF_SRC_IMPL", 0x00C00400, [(0x4, 64)], false, [⟨31, 0, .ro, 0⟩]⟩,
  ⟨"EVF_CH_CFG", 0x00C01000, [(0x20, 512)], false, [⟨10, 0, .own, 0⟩, ⟨14, 12, .own, 0⟩, ⟨15, 15, .own, 0⟩, ⟨19, 16, .own, 0⟩, ⟨31, 31, .ro, 0⟩]⟩,
  ⟨"EVF_CH_TASK", 0x00C01004, [(0x20, 512), (0x4, 4)], false, [⟨11, 0, .own, 0xfff⟩, ⟨27, 16, .own, 0xfff⟩]⟩,
  ⟨"EVF_CH_DELIVERED", 0x00C09000, [(0x10, 512)], false, [⟨31, 0, .rc, 0⟩]⟩,
  ⟨"EVF_CH_LOOP", 0x00C09004, [(0x10, 512)], false, [⟨0, 0, .w1c, 0⟩]⟩,
  ⟨"EVF_CH_LOOP_DROPS", 0x00C09008, [(0x10, 512)], false, [⟨31, 0, .rc, 0⟩]⟩,
  ⟨"EVF_TMR_CFG", 0x00C0B000, [(0x10, 32)], false, [⟨0, 0, .rw, 0⟩, ⟨1, 1, .rw, 0⟩, ⟨2, 2, .ro, 0⟩, ⟨3, 3, .w1c, 0⟩, ⟨6, 4, .rw, 0⟩]⟩,
  ⟨"EVF_TMR_DELAY", 0x00C0B004, [(0x10, 32)], false, [⟨31, 0, .rw, 1⟩]⟩,
  ⟨"EVF_TMR_FIRES", 0x00C0B008, [(0x10, 32)], false, [⟨31, 0, .rc, 0⟩]⟩,
  ⟨"EVF_TASK", 0x00C10000, [(0x4, 2048)], false, [⟨15, 0, .rc, 0⟩, ⟨16, 16, .w1c, 0⟩, ⟨17, 17, .ro, 0⟩]⟩,
  ⟨"EVF_CH_ACT_CFG", 0x00C05000, [(0x20, 512)], false, [⟨10, 0, .ro, 0⟩, ⟨14, 12, .ro, 0⟩, ⟨15, 15, .ro, 0⟩, ⟨19, 16, .ro, 0⟩, ⟨31, 31, .ro, 0⟩]⟩,
  ⟨"EVF_CH_ACT_TASK", 0x00C05004, [(0x20, 512), (0x4, 4)], false, [⟨11, 0, .ro, 0xfff⟩, ⟨27, 16, .ro, 0xfff⟩]⟩]

/-- Registers of DMA (R390). -/
def dmaRegs : List RegDesc := [
  ⟨"DMA_ERR", 0x00D00000, [], false, [⟨0, 0, .w1c, 0⟩]⟩,
  ⟨"DMA_HALTED", 0x00D00004, [], false, [⟨31, 0, .w1c, 0⟩]⟩,
  ⟨"DMA_ENDWAIT", 0x00D00008, [], false, [⟨31, 0, .ro, 0⟩]⟩,
  ⟨"DMA_CH_OWN", 0x00D00100, [(0x4, 32)], false, [⟨2, 0, .rw, 0⟩]⟩,
  ⟨"DMA_CH_CTRL", 0x00D01000, [(0x80, 32)], false, [⟨0, 0, .own, 0⟩, ⟨1, 1, .own, 0⟩, ⟨2, 2, .own, 0⟩]⟩,
  ⟨"DMA_CH_STAT", 0x00D01004, [(0x80, 32)], false, [⟨2, 0, .ro, 0⟩, ⟨3, 3, .ro, 0⟩, ⟨4, 4, .ro, 0⟩, ⟨19, 8, .ro, 0⟩]⟩,
  ⟨"DMA_CH_DOORBELL", 0x00D01008, [(0x80, 32)], false, [⟨31, 0, .own, 0⟩]⟩,
  ⟨"DMA_CH_DB_LOST", 0x00D0100C, [(0x80, 32)], false, [⟨31, 0, .rc, 0⟩]⟩,
  ⟨"DMA_CH_PC", 0x00D01010, [(0x80, 32)], true, [⟨63, 0, .rw, 0⟩]⟩,
  ⟨"DMA_CH_LAST_DL", 0x00D01018, [(0x80, 32)], true, [⟨63, 0, .ro, 0⟩]⟩,
  ⟨"DMA_CH_LOOP0", 0x00D01020, [(0x80, 32)], false, [⟨31, 0, .ro, 0⟩]⟩,
  ⟨"DMA_CH_LOOP1", 0x00D01024, [(0x80, 32)], false, [⟨31, 0, .ro, 0⟩]⟩,
  ⟨"DMA_CH_LOOP_ACT", 0x00D01028, [(0x80, 32)], false, [⟨1, 0, .ro, 0⟩]⟩,
  ⟨"DMA_CH_DB_EMPTY", 0x00D0102C, [(0x80, 32)], false, [⟨31, 0, .rc, 0⟩]⟩,
  ⟨"DMA_CH_ERR_ADDR", 0x00D01030, [(0x80, 32)], true, [⟨63, 0, .ro, 0⟩]⟩,
  ⟨"DMA_CH_ERR_INFO", 0x00D01038, [(0x80, 32)], false, [⟨0, 0, .ro, 0⟩, ⟨1, 1, .ro, 0⟩, ⟨6, 4, .ro, 0⟩]⟩,
  ⟨"DMA_CH_ERR_DONE", 0x00D0103C, [(0x80, 32)], false, [⟨31, 0, .ro, 0⟩]⟩,
  ⟨"DMA_CH_RING0_BASE", 0x00D01040, [(0x80, 32)], true, [⟨63, 0, .rw, 0⟩]⟩,
  ⟨"DMA_CH_RING0_SIZE_LOG2", 0x00D01048, [(0x80, 32)], false, [⟨5, 0, .rw, 8⟩]⟩,
  ⟨"DMA_CH_RING0_PTR", 0x00D01050, [(0x80, 32)], true, [⟨63, 0, .rw, 0⟩]⟩,
  ⟨"DMA_CH_RING1_BASE", 0x00D01058, [(0x80, 32)], true, [⟨63, 0, .rw, 0⟩]⟩,
  ⟨"DMA_CH_RING1_SIZE_LOG2", 0x00D01060, [(0x80, 32)], false, [⟨5, 0, .rw, 8⟩]⟩,
  ⟨"DMA_CH_RING1_PTR", 0x00D01068, [(0x80, 32)], true, [⟨63, 0, .rw, 0⟩]⟩,
  ⟨"DMA_CH_PUB_ADDR", 0x00D01070, [(0x80, 32)], false, [⟨25, 0, .rw, 0⟩]⟩,
  ⟨"DMA_CH_MOVED", 0x00D01078, [(0x80, 32)], true, [⟨63, 0, .ro, 0⟩]⟩]

/-- Registers of MEM (R420, R421). -/
def memRegs1 : List RegDesc := [
  ⟨"MEM_CTRL", 0x00E08000, [], false, [⟨0, 0, .own, 0⟩, ⟨1, 1, .rw, 1⟩, ⟨2, 2, .rw, 0⟩, ⟨3, 3, .own, 0⟩, ⟨4, 4, .rw, 1⟩]⟩,
  ⟨"MEM_STAT", 0x00E08004, [], false, [⟨0, 0, .ro, 0⟩, ⟨1, 1, .ro, 0⟩, ⟨2, 2, .ro, 0⟩, ⟨3, 3, .w1c, 0⟩, ⟨31, 16, .ro, 0⟩]⟩,
  ⟨"MEM_ERR", 0x00E08008, [], false, [⟨0, 0, .w1c, 0⟩]⟩,
  ⟨"MEM_TOP", 0x00E08010, [], true, [⟨63, 0, .ro, 0⟩]⟩,
  ⟨"MEM_CHMAP", 0x00E08018, [], false, [⟨2, 0, .rw, 4⟩]⟩,
  ⟨"MEM_CHMAP_LIST", 0x00E08020, [], true, [⟨63, 0, .rw, 0xfedcba9876543210⟩]⟩,
  ⟨"MEM_PAGE", 0x00E08028, [], false, [⟨15, 0, .rw, 0x100⟩, ⟨20, 16, .rw, 0x10⟩]⟩,
  ⟨"MEM_SR", 0x00E0802C, [], false, [⟨31, 0, .rw, 0x1a0b⟩]⟩,
  ⟨"MEM_RD", 0x00E08030, [], false, [⟨15, 0, .rw, 0x800⟩, ⟨16, 16, .rw, 1⟩]⟩,
  ⟨"MEM_TRAIN", 0x00E08034, [], false, [⟨15, 0, .rw, 0x64⟩]⟩,
  ⟨"MEM_ARB", 0x00E08040, [], false, [⟨7, 0, .rw, 8⟩, ⟨17, 8, .rw, 0x60⟩]⟩,
  ⟨"MEM_SLOT", 0x00E09000, [(0x4, 128)], false, [⟨5, 0, .rw, 0⟩]⟩,
  ⟨"MEM_PORT_CFG", 0x00E08200, [(0x20, 28)], false, [⟨2, 0, .rw, 0⟩, ⟨3, 3, .w1c, 0⟩]⟩,
  ⟨"MEM_PORT_MAX_WAIT", 0x00E08204, [(0x20, 28)], false, [⟨31, 0, .rc, 0⟩]⟩,
  ⟨"MEM_PORT_GRANTS", 0x00E08208, [(0x20, 28)], true, [⟨63, 0, .ro, 0⟩]⟩,
  ⟨"MEM_PORT_WAITS", 0x00E08210, [(0x20, 28)], true, [⟨63, 0, .ro, 0⟩]⟩,
  ⟨"MEM_PORT_HOLD_CUTS", 0x00E08218, [(0x20, 28)], false, [⟨31, 0, .rc, 0⟩]⟩,
  ⟨"MC_STAT", 0x00E00000, [(0x10000, 16)], false, [⟨2, 0, .ro, 0⟩, ⟨3, 3, .ro, 0⟩, ⟨4, 4, .ro, 0⟩, ⟨5, 5, .w1c, 0⟩]⟩,
  ⟨"MC_CTRL", 0x00E00004, [(0x10000, 16)], false, [⟨0, 0, .own, 0⟩, ⟨1, 1, .own, 0⟩]⟩,
  ⟨"MC_ECC_CORR", 0x00E00008, [(0x10000, 16)], false, [⟨31, 0, .rc, 0⟩]⟩,
  ⟨"MC_ECC_UNCORR", 0x00E0000C, [(0x10000, 16)], false, [⟨31, 0, .rc, 0⟩]⟩,
  ⟨"MC_LAST_UNCORR", 0x00E00010, [(0x10000, 16)], true, [⟨63, 0, .ro, 0⟩]⟩,
  ⟨"MC_TRAIN_COUNT", 0x00E00018, [(0x10000, 16)], false, [⟨31, 0, .ro, 0⟩]⟩,
  ⟨"MC_TRAIN_FAILS", 0x00E0001C, [(0x10000, 16)], false, [⟨31, 0, .rc, 0⟩]⟩,
  ⟨"MC_LAST_TRAIN", 0x00E00020, [(0x10000, 16)], true, [⟨63, 0, .ro, 0⟩]⟩,
  ⟨"MC_TRAIN_MARGIN", 0x00E00028, [(0x10000, 16)], false, [⟨7, 0, .ro, 0⟩, ⟨15, 8, .ro, 0⟩, ⟨23, 16, .ro, 0⟩]⟩,
  ⟨"MC_RD_REFRESHES", 0x00E0002C, [(0x10000, 16)], false, [⟨31, 0, .rc, 0⟩]⟩,
  ⟨"MC_SR_ENTRIES", 0x00E00030, [(0x10000, 16)], false, [⟨31, 0, .rc, 0⟩]⟩,
  ⟨"MC_ROW_HITS", 0x00E00034, [(0x10000, 16)], false, [⟨31, 0, .rc, 0⟩]⟩,
  ⟨"MC_ROW_MISSES", 0x00E00038, [(0x10000, 16)], false, [⟨31, 0, .rc, 0⟩]⟩]

/-- Registers of MEM (R420, R421). -/
def memRegs2 : List RegDesc := [
  ⟨"MC_CAP_EVENTS", 0x00E0003C, [(0x10000, 16)], false, [⟨31, 0, .rc, 0⟩]⟩,
  ⟨"MC_FENCED_ACC", 0x00E00040, [(0x10000, 16)], false, [⟨31, 0, .rc, 0⟩]⟩,
  ⟨"MEM_SLOT_COPYB", 0x00E09200, [(0x4, 128)], false, [⟨5, 0, .rw, 0⟩]⟩]

/-- Registers of MEM. -/
def memRegs : List RegDesc := memRegs1 ++ memRegs2

/-- Registers of FVL (R451). -/
def fvlRegs1 : List RegDesc := [
  ⟨"FVL_ERR", 0x00F00000, [], false, [⟨0, 0, .w1c, 0⟩]⟩,
  ⟨"FVL_UP", 0x00F00008, [], true, [⟨63, 0, .ro, 0⟩]⟩,
  ⟨"FVL_DOWN_SEEN", 0x00F00010, [], true, [⟨63, 0, .w1c, 0⟩]⟩,
  ⟨"FVL_XACT_CTRL", 0x00F00100, [], false, [⟨0, 0, .own, 0⟩, ⟨1, 1, .rw, 0⟩, ⟨2, 2, .ro, 0⟩, ⟨10, 8, .ro, 0⟩]⟩,
  ⟨"FVL_XACT_DEST", 0x00F00104, [], false, [⟨9, 0, .rw, 0⟩]⟩,
  ⟨"FVL_XACT_ADDR", 0x00F00108, [], false, [⟨31, 0, .rw, 0⟩]⟩,
  ⟨"FVL_XACT_COUNT", 0x00F0010C, [], false, [⟨3, 0, .rw, 0⟩]⟩,
  ⟨"FVL_XACT_DATA", 0x00F00140, [(0x4, 16)], false, [⟨31, 0, .rw, 0⟩]⟩,
  ⟨"FVL_EVRX_BASE", 0x00F00200, [], true, [⟨63, 0, .rw, 0⟩]⟩,
  ⟨"FVL_EVRX_CFG", 0x00F00208, [], false, [⟨4, 0, .rw, 8⟩, ⟨8, 8, .rw, 0⟩]⟩,
  ⟨"FVL_EVRX_PROD", 0x00F0020C, [], false, [⟨31, 0, .ro, 0⟩]⟩,
  ⟨"FVL_EVRX_CONS", 0x00F00210, [], false, [⟨31, 0, .rw, 0⟩]⟩,
  ⟨"FVL_EVRX_LOST", 0x00F00214, [], false, [⟨31, 0, .rc, 0⟩]⟩,
  ⟨"FVL_PORT_CFG", 0x00F01000, [(0x80, 53)], false, [⟨0, 0, .own, 0⟩, ⟨3, 1, .rw, 5⟩, ⟨4, 4, .rw, 0⟩, ⟨5, 5, .own, 0⟩, ⟨6, 6, .own, 0⟩, ⟨11, 8, .rw, 4⟩, ⟨31, 16, .rw, 0x64⟩]⟩,
  ⟨"FVL_PORT_STAT", 0x00F01004, [(0x80, 53)], false, [⟨2, 0, .ro, 0⟩, ⟨5, 3, .ro, 0⟩, ⟨7, 6, .ro, 0⟩, ⟨9, 8, .ro, 0⟩, ⟨10, 10, .ro, 0⟩, ⟨11, 11, .ro, 0⟩, ⟨12, 12, .w1c, 0⟩, ⟨13, 13, .w1c, 0⟩]⟩,
  ⟨"FVL_PORT_LANE_MAP", 0x00F01008, [(0x80, 53)], false, [⟨23, 0, .ro, 0⟩, ⟨31, 24, .ro, 0⟩]⟩,
  ⟨"FVL_PORT_PARTNER", 0x00F0100C, [(0x80, 53)], false, [⟨7, 0, .ro, 0⟩, ⟨17, 8, .ro, 0⟩, ⟨23, 18, .ro, 0⟩, ⟨29, 24, .ro, 0⟩]⟩,
  ⟨"FVL_PORT_CR", 0x00F01010, [(0x80, 53)], false, [⟨15, 0, .ro, 0⟩, ⟨31, 16, .ro, 0⟩]⟩,
  ⟨"FVL_PORT_CR_CPL", 0x00F01014, [(0x80, 53)], false, [⟨15, 0, .ro, 0⟩]⟩,
  ⟨"FVL_PORT_REPLAY", 0x00F01018, [(0x80, 53)], false, [⟨15, 0, .rw, 8⟩]⟩,
  ⟨"FVL_PORT_TIME_PERIOD", 0x00F0101C, [(0x80, 53)], false, [⟨31, 0, .rw, 0x3e8⟩]⟩,
  ⟨"FVL_PORT_DELAY", 0x00F01020, [(0x80, 53)], false, [⟨31, 0, .ro, 0⟩]⟩,
  ⟨"FVL_PORT_FRAMES_TX", 0x00F01028, [(0x80, 53)], true, [⟨63, 0, .ro, 0⟩]⟩,
  ⟨"FVL_PORT_FRAMES_RX", 0x00F01030, [(0x80, 53)], true, [⟨63, 0, .ro, 0⟩]⟩,
  ⟨"FVL_PORT_CRC_ERRS", 0x00F01038, [(0x80, 53)], false, [⟨31, 0, .rc, 0⟩]⟩,
  ⟨"FVL_PORT_NAKS_RX", 0x00F0103C, [(0x80, 53)], false, [⟨31, 0, .rc, 0⟩]⟩,
  ⟨"FVL_PORT_REPLAYS", 0x00F01040, [(0x80, 53)], false, [⟨31, 0, .rc, 0⟩]⟩,
  ⟨"FVL_PORT_RETRAINS", 0x00F01044, [(0x80, 53)], false, [⟨31, 0, .rc, 0⟩]⟩,
  ⟨"FVL_PORT_LINK_DOWNS", 0x00F01048, [(0x80, 53)], false, [⟨31, 0, .rc, 0⟩]⟩,
  ⟨"FVL_PORT_DROPPED", 0x00F0104C, [(0x80, 53)], false, [⟨31, 0, .rc, 0⟩]⟩]

/-- Registers of FVL (R451). -/
def fvlRegs2 : List RegDesc := [
  ⟨"FVL_PORT_SYNC_ERRS", 0x00F01050, [(0x80, 53)], false, [⟨31, 0, .rc, 0⟩]⟩,
  ⟨"FVL_PORT_SLEEPS", 0x00F01054, [(0x80, 53)], false, [⟨31, 0, .rc, 0⟩]⟩,
  ⟨"FVL_PORT_BUF_ECC_CORR", 0x00F01058, [(0x80, 53)], false, [⟨31, 0, .rc, 0⟩]⟩,
  ⟨"FVL_PORT_LAST_UP", 0x00F01060, [(0x80, 53)], true, [⟨63, 0, .ro, 0⟩]⟩,
  ⟨"FVL_EP", 0x00F04000, [(0x4, 1024)], false, [⟨5, 0, .rw, 0⟩, ⟨6, 6, .rw, 0⟩, ⟨7, 7, .ro, 0⟩, ⟨15, 8, .rw, 0⟩]⟩]

/-- Registers of FVL. -/
def fvlRegs : List RegDesc := fvlRegs1 ++ fvlRegs2

/-- Registers of HIF (R464, R495, R496). -/
def hifRegs1 : List RegDesc := [
  ⟨"GPIO_IN", 0x01410000, [], false, [⟨31, 0, .ro, 0⟩]⟩,
  ⟨"GPIO_OUT", 0x01410004, [], false, [⟨31, 0, .rw, 0⟩]⟩,
  ⟨"GPIO_OUT_SET", 0x01410008, [], false, [⟨31, 0, .own, 0⟩]⟩,
  ⟨"GPIO_OUT_CLR", 0x0141000C, [], false, [⟨31, 0, .own, 0⟩]⟩,
  ⟨"GPIO_OE", 0x01410010, [], false, [⟨31, 0, .rw, 0⟩]⟩,
  ⟨"GPIO_FILT", 0x01410014, [], false, [⟨7, 0, .rw, 3⟩]⟩,
  ⟨"GPIO_EDGE_CFG0", 0x01410018, [], false, [⟨31, 0, .rw, 0⟩]⟩,
  ⟨"GPIO_EDGE_CFG1", 0x0141001C, [], false, [⟨31, 0, .rw, 0⟩]⟩,
  ⟨"GPIO_EDGE_STAT", 0x01410020, [], false, [⟨31, 0, .w1c, 0⟩]⟩,
  ⟨"I2C_CFG", 0x01411000, [], false, [⟨0, 0, .rw, 0⟩]⟩,
  ⟨"I2C_CTRL", 0x01411004, [], false, [⟨0, 0, .own, 0⟩]⟩,
  ⟨"I2C_ADDR", 0x01411008, [], false, [⟨6, 0, .rw, 0⟩]⟩,
  ⟨"I2C_LEN", 0x0141100C, [], false, [⟨4, 0, .rw, 0⟩, ⟨12, 8, .rw, 0⟩]⟩,
  ⟨"I2C_STAT", 0x01411010, [], false, [⟨0, 0, .ro, 0⟩, ⟨1, 1, .w1c, 0⟩, ⟨2, 2, .w1c, 0⟩, ⟨3, 3, .ro, 0⟩, ⟨4, 4, .ro, 0⟩, ⟨5, 5, .ro, 0⟩, ⟨6, 6, .ro, 0⟩, ⟨12, 8, .ro, 0⟩]⟩,
  ⟨"I2C_WDATA", 0x01411020, [(0x4, 4)], false, [⟨31, 0, .rw, 0⟩]⟩,
  ⟨"I2C_RDATA", 0x01411030, [(0x4, 4)], false, [⟨31, 0, .ro, 0⟩]⟩,
  ⟨"HIF_LINK", 0x01400000, [], false, [⟨2, 0, .ro, 0⟩, ⟨6, 3, .ro, 0⟩, ⟨7, 7, .ro, 0⟩]⟩,
  ⟨"HIF_ERR", 0x01400008, [], false, [⟨0, 0, .w1c, 0⟩]⟩,
  ⟨"HIF_REFUSED", 0x0140000C, [], false, [⟨31, 0, .rc, 0⟩]⟩,
  ⟨"HIF_FAB_RIGHTS", 0x01400040, [], false, [⟨5, 0, .rw, 6⟩]⟩,
  ⟨"HIF_CLRIGHTS", 0x01400100, [(0x4, 12)], false, [⟨5, 0, .rw, 8⟩]⟩,
  ⟨"HIF_PF_BAR2_BASE", 0x01400200, [(0x20, 6)], true, [⟨63, 0, .rw, 0⟩]⟩,
  ⟨"HIF_PF_DISC_INT", 0x01400208, [(0x20, 6)], false, [⟨31, 0, .ro, 0⟩]⟩,
  ⟨"HIF_PF_FLR_COUNT", 0x0140020C, [(0x20, 6)], false, [⟨31, 0, .ro, 0⟩]⟩,
  ⟨"NET_P_CFG", 0x01481000, [(0x1000, 2)], false, [⟨0, 0, .rw, 0⟩, ⟨2, 1, .rw, 1⟩, ⟨4, 3, .rw, 0⟩, ⟨5, 5, .rw, 1⟩, ⟨6, 6, .rw, 0⟩, ⟨9, 8, .rw, 0⟩]⟩,
  ⟨"NET_P_STAT", 0x01481004, [(0x1000, 2)], false, [⟨0, 0, .ro, 0⟩, ⟨1, 1, .ro, 0⟩]⟩,
  ⟨"NET_P_MAC_ADDR", 0x01481008, [(0x1000, 2)], true, [⟨47, 0, .rw, 0⟩]⟩,
  ⟨"NET_P_MCAST", 0x01481010, [(0x1000, 2), (0x8, 8)], true, [⟨63, 0, .rw, 0⟩]⟩,
  ⟨"NET_P_LAT", 0x01481050, [(0x1000, 2)], false, [⟨15, 0, .rw, 0⟩, ⟨31, 16, .rw, 0⟩]⟩,
  ⟨"NET_P_LATE_LIMIT", 0x01481054, [(0x1000, 2)], false, [⟨31, 0, .rw, 0x3e8⟩]⟩]

/-- Registers of HIF (R496). -/
def hifRegs2 : List RegDesc := [
  ⟨"NET_P_TILE_SEQ", 0x01481058, [(0x1000, 2)], false, [⟨15, 0, .ro, 0⟩]⟩,
  ⟨"NET_P_TILE_LOST", 0x01481060, [(0x1000, 2)], false, [⟨31, 0, .rc, 0⟩]⟩,
  ⟨"NET_P_RX_LOST", 0x01481064, [(0x1000, 2)], false, [⟨31, 0, .rc, 0⟩]⟩,
  ⟨"NET_P_RX_LONG", 0x01481068, [(0x1000, 2)], false, [⟨31, 0, .rc, 0⟩]⟩,
  ⟨"NET_P_FCS_ERRS", 0x0148106C, [(0x1000, 2)], false, [⟨31, 0, .rc, 0⟩]⟩,
  ⟨"NET_P_PAUSE_RX", 0x01481070, [(0x1000, 2)], false, [⟨31, 0, .rc, 0⟩]⟩,
  ⟨"NET_P_RX_BASE", 0x01481080, [(0x1000, 2)], true, [⟨63, 0, .rw, 0⟩]⟩,
  ⟨"NET_P_RX_CFG", 0x01481088, [(0x1000, 2)], false, [⟨4, 0, .rw, 8⟩, ⟨8, 8, .rw, 0⟩]⟩,
  ⟨"NET_P_RX_PROD", 0x0148108C, [(0x1000, 2)], false, [⟨31, 0, .ro, 0⟩]⟩,
  ⟨"NET_P_RX_CONS", 0x01481090, [(0x1000, 2)], false, [⟨31, 0, .rw, 0⟩]⟩,
  ⟨"NET_P_TX_BASE", 0x01481100, [(0x1000, 2), (0x20, 8)], true, [⟨63, 0, .rw, 0⟩]⟩,
  ⟨"NET_P_TX_CFG", 0x01481108, [(0x1000, 2), (0x20, 8)], false, [⟨4, 0, .rw, 6⟩, ⟨8, 8, .rw, 0⟩]⟩,
  ⟨"NET_P_TX_PROD", 0x0148110C, [(0x1000, 2), (0x20, 8)], false, [⟨31, 0, .own, 0⟩]⟩,
  ⟨"NET_P_TX_CONS", 0x01481110, [(0x1000, 2), (0x20, 8)], false, [⟨31, 0, .ro, 0⟩]⟩,
  ⟨"NET_PTP_CTRL", 0x01488000, [], false, [⟨1, 0, .rw, 0⟩, ⟨2, 2, .rw, 1⟩, ⟨3, 3, .rw, 0⟩, ⟨15, 8, .rw, 0⟩]⟩,
  ⟨"NET_PTP_STAT", 0x01488004, [], false, [⟨0, 0, .own, 0⟩, ⟨1, 1, .w1c, 0⟩, ⟨8, 2, .ro, 0⟩]⟩,
  ⟨"NET_PTP_TIME_SEC", 0x01488008, [], true, [⟨63, 0, .ro, 0⟩]⟩,
  ⟨"NET_PTP_TIME_NS", 0x01488010, [], false, [⟨31, 0, .ro, 0⟩]⟩,
  ⟨"NET_PTP_RATE", 0x01488014, [], false, [⟨31, 0, .own, 0⟩]⟩,
  ⟨"NET_PTP_STEP", 0x01488018, [], true, [⟨63, 0, .own, 0⟩]⟩,
  ⟨"NET_PTP_MASTER_ID", 0x01488020, [], true, [⟨63, 0, .rw, 0⟩]⟩,
  ⟨"NET_PTP_MASTER_PORT", 0x01488028, [], false, [⟨15, 0, .rw, 0⟩]⟩,
  ⟨"NET_PTP_LOSS", 0x0148802C, [], false, [⟨31, 0, .rw, 0x2dc6c0⟩]⟩,
  ⟨"NET_PTP_TSQ_LOST", 0x01488030, [], false, [⟨31, 0, .rc, 0⟩]⟩,
  ⟨"NET_PTP_TSQ", 0x01488040, [(0x4, 4)], false, [⟨31, 0, .ro, 0⟩]⟩,
  ⟨"NET_PTP_MAP_CFG", 0x01488080, [], false, [⟨15, 0, .rw, 0x3e8⟩, ⟨19, 16, .rw, 4⟩]⟩,
  ⟨"NET_PTP_MAP_STAT", 0x01488084, [], false, [⟨0, 0, .ro, 0⟩, ⟨1, 1, .own, 0⟩]⟩,
  ⟨"NET_PTP_MAP_PTP_SEC", 0x01488088, [], true, [⟨63, 0, .ro, 0⟩]⟩,
  ⟨"NET_PTP_MAP_PTP_NS", 0x01488090, [], false, [⟨31, 0, .ro, 0⟩]⟩,
  ⟨"NET_PTP_MAP_TEMPO", 0x01488098, [], true, [⟨63, 0, .ro, 0⟩]⟩]

/-- Registers of HIF (R454, R496). -/
def hifRegs3 : List RegDesc := [
  ⟨"NET_PTP_MAP_RATE", 0x014880A0, [], true, [⟨63, 0, .ro, 0⟩]⟩,
  ⟨"MSIX_ADDR_LO", 0x01440000, [(0x1000, 6), (0x10, 32)], false, [⟨31, 0, .rw, 0⟩]⟩,
  ⟨"MSIX_ADDR_HI", 0x01440004, [(0x1000, 6), (0x10, 32)], false, [⟨31, 0, .rw, 0⟩]⟩,
  ⟨"MSIX_DATA", 0x01440008, [(0x1000, 6), (0x10, 32)], false, [⟨31, 0, .rw, 0⟩]⟩,
  ⟨"MSIX_CTRL", 0x0144000C, [(0x1000, 6), (0x10, 32)], false, [⟨0, 0, .rw, 1⟩]⟩,
  ⟨"MSIX_PBA", 0x01440800, [(0x1000, 6)], true, [⟨31, 0, .ro, 0⟩]⟩]

/-- Registers of HIF. -/
def hifRegs : List RegDesc := hifRegs1 ++ hifRegs2 ++ hifRegs3

/-- Registers of PMU (R531). -/
def pmuRegs : List RegDesc := [
  ⟨"PMU_CTRL", 0x01500000, [], false, [⟨0, 0, .own, 0⟩, ⟨1, 1, .own, 0⟩]⟩,
  ⟨"PMU_ERR", 0x01500008, [], false, [⟨0, 0, .w1c, 0⟩]⟩,
  ⟨"PMU_OVF", 0x0150000C, [], false, [⟨31, 0, .w1c, 0⟩]⟩,
  ⟨"PMU_CNT_CFG", 0x01500100, [(0x10, 32)], false, [⟨0, 0, .rw, 0⟩, ⟨12, 8, .rw, 0⟩, ⟨23, 16, .rw, 0⟩, ⟨31, 24, .rw, 0⟩]⟩,
  ⟨"PMU_CNT_VALUE", 0x01500108, [(0x10, 32)], true, [⟨47, 0, .rw, 0⟩]⟩,
  ⟨"PMU_BW_CFG", 0x01501000, [], false, [⟨0, 0, .rw, 0⟩]⟩,
  ⟨"PMU_BW_WINDOW", 0x01501004, [], false, [⟨31, 0, .rw, 0xf4240⟩]⟩,
  ⟨"PMU_BW_SEQ", 0x01501008, [], false, [⟨31, 0, .ro, 0⟩]⟩,
  ⟨"PMU_BWM_RD", 0x01501100, [(0x10, 28)], true, [⟨63, 0, .ro, 0⟩]⟩,
  ⟨"PMU_BWM_WR", 0x01501108, [(0x10, 28)], true, [⟨63, 0, .ro, 0⟩]⟩,
  ⟨"PMU_BWF_TX", 0x01501400, [(0x10, 53)], true, [⟨63, 0, .ro, 0⟩]⟩,
  ⟨"PMU_BWF_RX", 0x01501408, [(0x10, 53)], true, [⟨63, 0, .ro, 0⟩]⟩,
  ⟨"PMU_SMP_CFG", 0x01502000, [(0x20, 12)], false, [⟨0, 0, .rw, 0⟩, ⟨1, 1, .rw, 0⟩, ⟨4, 2, .rw, 0⟩, ⟨12, 8, .rw, 0x10⟩, ⟨31, 16, .rw, 0xffff⟩]⟩,
  ⟨"PMU_SMP_WR", 0x01502004, [(0x20, 12)], false, [⟨31, 0, .ro, 0⟩]⟩,
  ⟨"PMU_SMP_RD", 0x01502008, [(0x20, 12)], false, [⟨31, 0, .rw, 0⟩]⟩,
  ⟨"PMU_SMP_LOST", 0x0150200C, [(0x20, 12)], false, [⟨31, 0, .rc, 0⟩]⟩,
  ⟨"PMU_SMP_WATERMARK", 0x01502010, [(0x20, 12)], false, [⟨9, 0, .rw, 0x180⟩]⟩,
  ⟨"PMU_SBUF", 0x01540000, [(0x4000, 12), (0x4, 4096)], false, [⟨31, 0, .ro, 0⟩]⟩]

/-- Registers of CAL (R530). -/
def calRegs : List RegDesc := [
  ⟨"CAL_CTRL", 0x01600000, [], false, [⟨0, 0, .own, 0⟩, ⟨1, 1, .rw, 1⟩]⟩,
  ⟨"CAL_STAT", 0x01600004, [], false, [⟨1, 0, .ro, 0⟩, ⟨2, 2, .ro, 0⟩, ⟨3, 3, .w1c, 0⟩, ⟨4, 4, .ro, 0⟩, ⟨5, 5, .ro, 0⟩, ⟨6, 6, .w1c, 0⟩, ⟨7, 7, .w1c, 0⟩, ⟨8, 8, .w1c, 0⟩]⟩,
  ⟨"CAL_ERR", 0x01600008, [], false, [⟨0, 0, .w1c, 0⟩]⟩,
  ⟨"CAL_CFG", 0x0160000C, [], false, [⟨11, 0, .rw, 0x40⟩]⟩,
  ⟨"CAL_COUNT", 0x01600010, [], false, [⟨31, 0, .ro, 0⟩]⟩,
  ⟨"CAL_LAST_TEMPO", 0x01600018, [], true, [⟨63, 0, .ro, 0⟩]⟩,
  ⟨"CAL_DELTA_MAX", 0x01600020, [], false, [⟨7, 0, .ro, 0⟩, ⟨14, 8, .ro, 0⟩]⟩,
  ⟨"CAL_THERM", 0x01600024, [], false, [⟨15, 0, .rw, 0x5f0⟩, ⟨31, 16, .rw, 0x690⟩]⟩,
  ⟨"CAL_SENS", 0x01600040, [(0x8, 8)], false, [⟨15, 0, .ro, 0⟩, ⟨31, 16, .ro, 0⟩]⟩,
  ⟨"CAL_SENS_TRIM", 0x01600044, [(0x8, 8)], false, [⟨7, 0, .ro, 0x80⟩, ⟨8, 8, .ro, 0⟩]⟩]

/-- Registers of TWN (R497). -/
def twnRegs : List RegDesc := [
  ⟨"TWN_CTRL", 0x01700000, [], false, [⟨0, 0, .own, 0⟩, ⟨1, 1, .rw, 0⟩, ⟨2, 2, .rw, 1⟩, ⟨3, 3, .rw, 0⟩, ⟨4, 4, .rw, 1⟩, ⟨5, 5, .rw, 1⟩, ⟨6, 6, .own, 0⟩, ⟨7, 7, .rw, 0⟩, ⟨11, 8, .rw, 0⟩]⟩,
  ⟨"TWN_STAT", 0x01700004, [], false, [⟨2, 0, .ro, 0⟩, ⟨3, 3, .w1c, 0⟩, ⟨4, 4, .w1c, 0⟩, ⟨5, 5, .w1c, 0⟩, ⟨6, 6, .w1c, 0⟩]⟩,
  ⟨"TWN_ERR", 0x01700008, [], false, [⟨0, 0, .w1c, 0⟩]⟩,
  ⟨"TWN_EPOCH", 0x0170000C, [], false, [⟨31, 0, .ro, 0⟩]⟩,
  ⟨"TWN_CASTLE_WCO", 0x01700010, [], true, [⟨63, 0, .rw, 0⟩]⟩,
  ⟨"TWN_HB", 0x01700018, [], false, [⟨15, 0, .rw, 0x32⟩, ⟨31, 16, .rw, 0x64⟩]⟩,
  ⟨"TWN_HB_LOSS", 0x0170001C, [], false, [⟨31, 0, .rw, 0x3e8⟩]⟩,
  ⟨"TWN_PARTNER_MAC", 0x01700020, [], true, [⟨47, 0, .rw, 0⟩]⟩,
  ⟨"TWN_PARTNER_CAMS", 0x01700028, [], false, [⟨15, 0, .rw, 0⟩]⟩,
  ⟨"TWN_UNCOV", 0x0170002C, [], false, [⟨16, 0, .rw, 0⟩]⟩,
  ⟨"TWN_UNCOV_HI", 0x01700030, [], false, [⟨16, 0, .rw, 0⟩]⟩,
  ⟨"TWN_WCO_LIMIT", 0x01700034, [], false, [⟨31, 0, .rw, 0x2710⟩]⟩,
  ⟨"TWN_TEMPO_OFFSET", 0x01700038, [], true, [⟨63, 0, .ro, 0⟩]⟩,
  ⟨"TWN_SIG_WAIT", 0x01700040, [], false, [⟨31, 0, .rw, 0x3e8⟩]⟩,
  ⟨"TWN_SIG_OK", 0x01700044, [], false, [⟨31, 0, .rc, 0⟩]⟩,
  ⟨"TWN_SIG_BAD", 0x01700048, [], false, [⟨31, 0, .rc, 0⟩]⟩,
  ⟨"TWN_SIG_UNCOMPARED", 0x0170004C, [], false, [⟨31, 0, .rc, 0⟩]⟩,
  ⟨"TWN_SIG_MISSING", 0x01700050, [], false, [⟨31, 0, .rc, 0⟩]⟩,
  ⟨"TWN_CASTLINGS", 0x01700054, [], false, [⟨31, 0, .ro, 0⟩]⟩,
  ⟨"TWN_LAST_CASTLE", 0x01700058, [], true, [⟨63, 0, .ro, 0⟩]⟩,
  ⟨"TWN_PARTNER_SERIAL", 0x01700060, [(0x4, 2)], false, [⟨31, 0, .ro, 0⟩]⟩]

/-- The map of one MiB of BAR0 (R24). -/
def regsOfMiB : Nat → List RegDesc
  | 0 => secRegs
  | 1 => wtuRegs
  | 2 => cmpRegs
  | 3 => rpRegs
  | 4 => rruRegs
  | 5 => ftuRegs
  | 6 => dguRegs
  | 7 => cinRegs
  | 8 => iplRegs
  | 9 => dfqRegs
  | 10 => fabRegs
  | 11 => engRegs
  | 12 => evfRegs
  | 13 => dmaRegs
  | 14 => memRegs
  | 15 => fvlRegs
  | 20 => hifRegs
  | 21 => pmuRegs
  | 22 => calRegs
  | 23 => twnRegs
  | _ => []

end Sys2Proof.Machine
end

