-- ==== Sys2Proof/Machine/State.lean ====
section
/-! DEFINITION. The state of the LUM9640: the register file (every register of every map, kept sparse
against its reset value), the state the manual gives the blocks beyond their registers, the memories,
the outputs seen outside, and the queue of waiting commands. Plain data throughout. -/

namespace Sys2Proof.Machine

/-- One entry of an error log ring (R545): the code, the LOG_WR value at which it was written, the
Tempo copy of the block's domain, and the detail words that are not 0 at the end; and the cycle of that domain in which it was
written, by which the errors of one cycle are put in order (R29). -/
structure LogEntry where
  code : Word := 0
  number : Word := 0
  tempo : DWord := 0
  details : List Word := []
  cycle : Option Nat := none
  deriving DecidableEq, Repr

/-- What is wrong with a stored word or block: nothing, one wrong bit (corrected on a read), an
uncorrectable error, or a poisoned block (R396, R397). -/
inductive Mark
  | good | corrected | uncorrectable | poison
  deriving DecidableEq, Repr

/-- The boot and reset inputs of the device (R518, R532–R540): the balls that hold it in reset, the thermal trip, the
boot step (0 while held in reset, 1 to 6, 7 done, 8 FAILED), the Tempo at which a flash read began, whether the FAB has been
started on an image and whether it has been applied, the units whose built-in check failed, where the directory places copy B, the
directory's MODE, CLK_DIV and ADDR4 (R536), and the bytes of a partial UART request with the Tempo of the last one. -/
structure Boot where
  pwrGood : Bool := true
  tripped : Bool := false
  step : Nat := 1
  flashAt : Option Nat := none
  loading : Bool := false
  applied : Bool := false
  failedUnits : BitVec 32 := 0
  copyB : Option (Nat × Nat) := none
  spi : Nat × Nat × Nat := (0, 0, 0)
  uart : List Byte := []
  uartAt : Nat := 0
  deriving DecidableEq, Repr

/-- A byte on the lanes of a Fuvor port in data blocks (R435): block row, logical lane, position in that lane's block of the row, the byte,
and the byte as it is scrambled on the lane (R425). -/
structure LaneByte where
  row : Nat
  lane : Nat
  pos : Nat
  byte : Byte
  wire : Byte
  deriving DecidableEq, Repr

/-- What the device shows outside: read data and answers, and (with the constructors of the chapters) the
messages, pads and interrupts it drives. -/
inductive Out
  /-- The data a register read returned to its requester (R6, R8). -/
  | readData (who : Requester) (off : Nat) (data : Nat)
  /-- A DOT fragment sent on a head link: the header and its data words (R152). -/
  | dot (link : Nat) (words : List DWord)
  /-- A posted write to the head bridge of a link (R167, R485): register offset and words. -/
  | bridge (link : Nat) (off : Nat) (words : List Word)
  /-- A strobe pad of a head rises or falls (R147): Tempo of the edge. -/
  | strobe (head : Nat) (high : Bool) (tempo : Nat)
  /-- The levels that a repeater drives on REP_A, REP_B and REP_Z (R55). -/
  | repeater (r : Nat) (a b z : Bool)
  /-- A modulator clock starts with a half-period of HDIV TMP cycles, or is driven low (R175). -/
  | sdClock (g : Nat) (hdiv : Option Nat)
  /-- The range output DG_SDn_GAIN of a channel is driven (R176). -/
  | sdGain (c : Nat) (high : Bool)
  /-- A message of the TWN on the twin link: MTYPE and payload words (R490). -/
  | twin (mtype : Nat) (words : List DWord)
  /-- A packet sent to the camera of a port (R205): data type, TRIG and payload words. -/
  | camera (port : Nat) (dt : Nat) (trig : Nat) (words : List DWord)
  /-- The completion of a memory read of a port (R396): the block's address and its data, none where it is poison. -/
  | memData (port : Nat) (addr : Nat) (data : Option (List Byte))
  /-- The acknowledge of a memory write of a port, or its write error (R579). -/
  | memAck (port : Nat) (addr : Nat) (ok : Bool)
  /-- A read of host memory with a function's requester ID (R365, R380): No-Snoop, address and length. -/
  | hostRead (fn : Nat) (noSnoop : Bool) (addr : Nat) (len : Nat)
  /-- A posted write to host memory with a function's requester ID (R365, R380): No-Snoop, address and bytes. -/
  | hostWrite (fn : Nat) (noSnoop : Bool) (addr : Nat) (bytes : List Byte)
  /-- The forwarded clock of a Fuvor port runs at 1/8 of the rate of a code, or stops (R423, R428). -/
  | fvClock (port : Nat) (rate : Option Nat)
  /-- A lane of a Fuvor port sends an ordered set (R426): so many times, or over and over until the lane sends another. -/
  | ordered (port lane : Nat) (os : List Byte) (times : Option Nat)
  /-- The bytes of a frame on the lanes of a Fuvor port, each with the block row, the logical lane and the position in the lane's block where
  it goes, and the number of IDLE frames that fill the byte stream before it (R435). -/
  | lanes (port : Nat) (idles : Nat) (bytes : List LaneByte)
  /-- A DATA frame sent on a Fuvor port (R436): SEQ and the transaction's words. -/
  | frame (port : Nat) (seq : Nat) (words : List DWord)
  /-- An ACK or NAK frame with its SEQ (R437). -/
  | ack (port : Nat) (nak : Bool) (seq : Nat)
  /-- A CREDIT frame: class and cumulative words freed (R438). -/
  | credit (port : Nat) (cls : Nat) (freed : Nat)
  /-- A TIME transaction: MODE, TAG and TEMPO (R442). -/
  | time (port : Nat) (mode : Nat) (tag : Nat) (tempo : Nat)
  /-- The completion of a BAR2 read of a function (R455, R456): its data, none for poison; `ur` for Unsupported Request. -/
  | bar2 (fn : Nat) (off : Nat) (ur : Bool) (data : Option (List Byte))
  /-- The GPIO balls that are outputs, and the levels that they drive (R460). -/
  | gpio (oe : Nat) (levels : Nat)
  /-- A transfer started on the I²C pair (R461, R462): whether at 400 kHz, address, bytes written, bytes to read. -/
  | i2c (fast : Bool) (addr : Nat) (wdata : List Byte) (rlen : Nat)
  /-- A frame sent on an Ethernet port, without its FCS (R470). -/
  | eth (port : Nat) (bytes : List Byte)
  /-- A heartbeat on Ethernet (R480): port, destination address and the heartbeat's words. -/
  | heartbeat (port : Nat) (mac : Nat) (words : List DWord)
  /-- A read of the SPI flash (R537): command, address bytes and address, whether address and data go over four lines (1-4-4), dummy clocks,
  the divider of 200 MHz that gives the clock, and the number of bytes. -/
  | spi (cmd : Nat) (addrBytes : Nat) (addr : Nat) (quad : Bool) (dummy : Nat) (div : Nat) (len : Nat)
  /-- The bytes of a UART answer (R540). -/
  | uart (bytes : List Byte)
  /-- A BAR0 read of a function in its Function Level Reset is answered with Unsupported Request (R458). -/
  | unsupported (who : Requester) (off : Nat)
  /-- THERM_TRIP_N is driven low or released (R518). -/
  | thermTrip (low : Bool)
  deriving DecidableEq, Repr

/-- An encoder input line (R37, R43, R44): its raw level and the Tempo of its last edge; the level that the last TMP edge before
that sampled, with the Tempo of the input edge that began this run of equal samples and the TMP cycle of the run's first one; the
accepted level, the rejections in succession, the Tempo of its last accepted transition and of its last four, newest first, and
whether its stuck and its level episode have been reported. -/
structure EncLine where
  raw : Bool := false
  rawSince : Nat := 0
  smp : Bool := false
  runStamp : Nat := 0
  runCycle : Nat := 0
  level : Bool := false
  rejects : Nat := 0
  lastAcc : Nat := 0
  accs : List Nat := []
  stuckSeen : Bool := false
  levelSeen : Bool := false
  deriving DecidableEq, Repr

/-- The hidden state of a decoder (R38–R45): its three lines, the tracking direction, the tracked edges
of the estimate newest first (count and stamp), the reported speed as a distance in 2^-16 nm over a
time in Tempo units, the last accepted transition, the last tracked edge, and the clean transitions
since FROZEN began. -/
structure Decoder where
  a : EncLine := {}
  b : EncLine := {}
  z : EncLine := {}
  dirRev : Bool := false
  hist : List (BitVec 32 × Nat) := []
  spdNum : Int := 0
  spdDen : Nat := 1
  lastAccCycle : Option Nat := none
  lastTracked : Nat := 0
  clean : Nat := 0
  deriving DecidableEq, Repr

/-- A line generator (R56–R60): the next line to launch, the lines launched and not committed, the spans of lines that are never
sent again (committed or withdrawn), the last committed line with its T_k, the position in 2^-16 nm of the line launched last, when
it was started, when its LEAD was written, and the first and last line missed in the hold under way. -/
structure LineGen where
  nextK : Nat := 0
  launched : List Nat := []
  sent : List (Nat × Nat) := []
  lastK : Option Nat := none
  lastT : Nat := 0
  lastPos : Option Nat := none
  startAt : Nat := 0
  leadAt : Nat := 0
  missed : Option (Nat × Nat) := none
  deriving DecidableEq, Repr

/-- A target of a launch slot (R61, R62): its value, the Tempo in whose cycle it was armed or written, and whether it had been reached
when the slot was armed. -/
structure SlotTarget where
  at_ : Nat := 0
  since : Nat := 0
  passed : Bool := false
  deriving DecidableEq, Repr

/-- A launch slot (R61, R62): its target, the one that a write has replaced since the arming, and when ARM was written 1 last. -/
structure Slot where
  target : SlotTarget := {}
  before : Option SlotTarget := none
  armWrite : Nat := 0
  deriving DecidableEq, Repr

/-- The WTU beyond its registers: decoders, the 80-bit accumulator in 2^-16 nm (R46), the latch pair
W_L, T_L, v (R50), the Tempo at which the pair was formed, the output position held when it was formed
(R51), each decoder's travel for the cross-check (R49), generators, slots, and for each SSI input the Tempo before which no
transfer starts, the Tempo at which the transfer's first falling clock edge falls, and the stamp of that edge (R54); the Tempo up
to which the cycles at the clamp are counted in WTU_CLAMP_COUNT (R50), and the Tempo at which CLAMP was written last (R57). -/
structure Wtu where
  dec : List (Nat × Decoder) := []
  acc : BitVec 80 := 0
  latchW : BitVec 80 := 0
  latchT : Nat := 0
  latchV : Int := 0
  pairAt : Nat := 0
  outBase : BitVec 80 := 0
  travel : List (Nat × Int) := []
  gen : List (Nat × LineGen) := []
  slot : List (Nat × Slot) := []
  ssiFree : List (Nat × Nat) := []
  ssiFall : List (Nat × Nat) := []
  ssiAt : List (Nat × Nat) := []
  clampFrom : Nat := 0
  clampAt : Nat := 0
  deriving DecidableEq, Repr

/-- A tile-stream record between its header check and its finish (R72, R76): the ring and count it starts
at, its length, the header fields that matter, the lane it is in, and whether it has finished. -/
structure TileRec where
  ring : Nat
  at_ : Nat
  len : Nat
  plane : Nat
  mapIndex : Nat
  slot : Nat
  clen : Nat
  ulen : Nat
  check : Nat
  seq : Nat
  job : Nat
  lane : Option Nat := none
  done : Bool := false
  deriving DecidableEq, Repr

/-- The CMP beyond its registers (03): for each ring the records between header check and finish and the
count up to which headers are checked; the record each inflate lane expands; the ring served last; and
the descriptor count each deflate lane works on, with the next one to dispatch. -/
structure Cmp where
  recs : List (Nat × List TileRec) := []
  parsed : List (Nat × Nat) := []
  lanes : List (Nat × Option TileRec) := []
  lastRing : Option Nat := none
  defl : List (Nat × Option Nat) := []
  nextDesc : Nat := 0
  deriving DecidableEq, Repr

/-- What a print-side record takes from the bank its first line was rendered in (R274): job, repeat index, the last bar pixel, and
the first and last bar pixel of the heads concerned. -/
structure PrintTag where
  job : Nat := 0
  rep : Nat := 0
  last : Nat := 0
  x0 : Nat := 0
  x1 : Nat := 0
  deriving DecidableEq, Repr

/-- A tile in a snapshot (R100, R103, R109): its slot address, alpha byte, and what its pixels take: data, the
marks of failed reads with their causes, or nothing (transparent or FILL). -/
structure SnapTile where
  addr : Nat := 0
  alpha : Nat := 255
  bad : List Nat := []
  absent : Bool := false
  deriving DecidableEq, Repr

/-- A snapshot of a tile row (R100): the bank whose binding it was taken by, the tile row, its first column, and its tiles in
column order. -/
structure Snap where
  bank : Nat := 0
  row : Nat
  firstCol : Nat
  tiles : List SnapTile
  deriving DecidableEq, Repr

/-- A line in a pipe's queue (R94): its number, position in 2^-16 nm, T_k as launched or committed, bank, the
switch count of the pipe at its launch, and whether its commit has arrived; once its data is fetched, the Tempo of that, the bindings
snapshotted for it and the snapshots it uses; what records of it take from its bank (R274); and once it is rendered, the Tempo of
its last packed word and the heads that it flagged, by error code (R110, R120). -/
structure QLine where
  k : Nat
  pos : Nat
  tk : Nat
  bank : Nat
  epoch : Nat
  committed : Bool := false
  fetchedAt : Option Nat := none
  took : List Nat := []
  snaps : List (Nat × Option Snap) := []
  tag : PrintTag := {}
  word : Option Nat := none
  flags : List (Nat × List Nat × PrintTag) := []
  deriving DecidableEq, Repr

/-- A run of consecutive lines with the same cause and the same flagged heads (R110, R162). -/
structure DpRun where
  code : Nat
  heads : List Nat
  first : Nat
  last : Nat
  lastPos : Nat
  pos : Nat
  tk : Nat
  tag : PrintTag
  deriving DecidableEq, Repr

/-- A commit as the FTU keeps it for the rows that wait on it (R158): line, T, the speed of the latch pair in
force, the overspeed policy of the moment (R141), and what a record that starts with the line takes from its bank (R274). -/
structure Commit where
  k : Nat
  t : Nat
  v : Int
  inhibit : Bool
  tag : PrintTag := {}
  deriving DecidableEq, Repr

/-- A cell of the threshold store or an entry of the nozzle table: its bits and what is wrong with them. -/
structure Cell where
  bits : DWord
  mark : Mark := .good
  deriving DecidableEq, Repr

/-- A render pipe beyond its registers (R94–R114): its queue, the Tempo its running render started, the registers and the row of
threshold cells copied at its line start (R92, R107), its switch count, that of the line fetched last and the Tempo of the last
switch, the latest snapshot per binding, the snapshots not yet retired (binding, and the line from which a later one has replaced it),
the runs of R110, the Tempo at which EN last fell, the last commits, and the nozzle table writes applied
during the running render (index, Tempo, entry before). -/
structure Pipe where
  queue : List QLine := []
  busyAt : Option Nat := none
  startRegs : List (Nat × Word) := []
  row : List (Nat × Cell) := []
  epoch : Nat := 0
  lastEpoch : Option Nat := none
  switchedAt : Option Nat := none
  snaps : List (Nat × Option Snap) := []
  unretired : List (Nat × Option Nat) := []
  runs : List DpRun := []
  fellAt : Option Nat := none
  commits : List Commit := []
  ntLog : List (Nat × Nat × Nat × Mark) := []
  deriving DecidableEq, Repr

/-- What a write does to a nozzle table entry (R124, R125, R190): a masked update, with the update register
set that made it; a drop-gate verdict for an item of a scan slot; or a corrected entry from the scrubber. -/
inductive NtOp
  | masked (mask data : DWord)
  | rmw (set : Nat) (mask data : DWord)
  | verdict (slot item code upd stamp : Nat)
  | scrub
  deriving DecidableEq, Repr

/-- A write waiting for the update port (R124): the entry, what it does, the Tempo at which it reached the port, and whether it was
held over an initialisation (R123). -/
structure NtWrite where
  idx : Nat
  op : NtOp
  at_ : Nat := 0
  held : Bool := false
  deriving DecidableEq, Repr

/-- The nozzle table and its update port (R122–R126): the entries that differ from the initial value, the
waiting writes in order of arrival, the Tempo at which a running initialisation started, and the index the
scrubber visits next with the Tempo of its last visit. -/
structure Nt where
  cells : List (Nat × Cell) := []
  waiting : List NtWrite := []
  initAt : Option Nat := some 0
  scrubPos : Nat := 0
  scrubAt : Nat := 0
  deriving DecidableEq, Repr

/-- The line of a head (R155–R161): pipe, line number, position in 2^-16 nm, T_k as known to
the pipe, what records take from its bank, row delay D_f and remainder ρ_f in 2^-16 nm; the payload's bits, its bad-data flag and the ECC state
of its slot; whether its packed data has arrived and whether it has been sent; the commit it fires on; and the
Tempo of its good acknowledge. -/
structure HeadLine where
  pipe : Nat
  k : Nat
  pos : Nat
  tk : Nat
  tag : PrintTag := {}
  delay : Nat
  rho : Nat
  payload : Nat
  flagged : Bool
  mark : Mark := .good
  arrived : Bool := false
  sent : Bool := false
  commit : Option Commit := none
  ackAt : Option Nat := none
  deriving DecidableEq, Repr

/-- A head beyond its registers (R155–R166): its unresolved lines in order, the line whose acknowledge is
pending with the Tempo of its last fragment, the strobe decided on (line, S, width), the Tempo since which the
pad is high, the start of the last strobe, for a flag fall whether the pad still senses high and whether
EN has been 0 since, and the TMP cycle of the last write of WIDTH or TIME_TRIM with their values before it (R170). -/
structure Head where
  lines : List HeadLine := []
  ackFor : Option (Nat × Nat) := none
  firing : Option (HeadLine × Nat × Nat) := none
  highSince : Option Nat := none
  lastS : Option Nat := none
  stuck : Bool := false
  enLow : Bool := false
  trimWas : Option (Nat × Nat × Nat) := none
  deriving DecidableEq, Repr

/-- A line with heads not fired for one cause, until every head of the bar has resolved it (R162). -/
structure NotFired where
  code : Nat
  k : Nat
  pos : Nat
  tk : Nat
  tag : PrintTag
  heads : List Nat
  deriving DecidableEq, Repr

/-- A line of a bar that a head or a notice has skipped for overspeed or inhibited (R139, R140): line, position, T_k, the first head
that left it out, what records take from its bank, and the INH_WCO of the span that inhibits it. -/
structure OvsLine where
  k : Nat
  pos : Nat
  tk : Nat
  head : Nat
  tag : PrintTag
  span : Nat := 0
  deriving DecidableEq, Repr

/-- A run of overspeed skips or inhibited lines of a bar (R139, R140): its first line, the last line with its position, and how many
lines it holds. -/
structure OvsRun where
  first : OvsLine
  last : Nat
  lastPos : Nat
  count : Nat
  deriving DecidableEq, Repr

/-- The FTU's reporting state of a bar: lines with heads not fired, runs of them, the highest line any head of
the bar has resolved, the skipped and the inhibited lines that some head has still to resolve, and the overspeed run and the
inhibited run under way. -/
structure Bar where
  notFired : List NotFired := []
  runs : List DpRun := []
  seen : Nat := 0
  skipLines : List OvsLine := []
  skips : Option OvsRun := none
  inhLines : List OvsLine := []
  inhibited : Option OvsRun := none
  deriving DecidableEq, Repr

/-- The FTU beyond its registers: heads, bars, whether the FLG oscillator's stop fences every head (R165), and the inhibits, oldest
first: INH_WCO and the resume position, if any yet (R140). -/
structure Ftu where
  heads : List (Nat × Head) := []
  bars : List (Nat × Bar) := []
  flgFence : Bool := false
  inhibits : List (Nat × Option Nat) := []
  deriving DecidableEq, Repr

/-- A detection window that is pending (R187): slot and item of its drop, S, the baseline's start, the
window's start and end, and whether it is unsettled already (clock stopped, overlap). -/
structure Window where
  slot : Nat
  item : Nat
  s : Nat
  base : Int
  open_ : Int
  close : Int
  spoiled : Bool
  deriving DecidableEq, Repr

/-- A CIC channel beyond its registers (R177–R187): the configuration in force since the last restart (input,
order, decimation, bit period), integrators and combs, outputs formed since the restart, the capture edge of the
last output, whether a restart waits and since when, the outputs the windows may still need (stamp, sample,
kept), the pending windows, the end of the last window, and the lines the last drop was taken on. -/
structure Cic where
  src : Nat := 0
  order : Nat := 4
  r : Nat := 16
  period : Nat := 160
  integ : List (BitVec 42) := []
  comb : List (BitVec 42) := []
  outs : Nat := 0
  lastEdge : Option Nat := none
  restart : Option Nat := some 0
  hist : List (Int × Int × Bool) := []
  windows : List Window := []
  lastEnd : Int := 0
  deriving DecidableEq, Repr

/-- A nozzle of a scan slot (R183–R191): its index, drops assigned, drops by class (GOOD, WEAK, MISSING,
MISDIRECTED, UNSETTLED, NOT_FIRED), the sums of A, Q and t with the numbers of drops in them, the Tempo of
its first fired strobe, its verdict, whether STATUS changed, and whether its record is written. -/
structure ScanItem where
  nozzle : Nat
  assigned : Nat := 0
  good : Nat := 0
  weak : Nat := 0
  missing : Nat := 0
  misdir : Nat := 0
  unsettled : Nat := 0
  notFired : Nat := 0
  sumA : Int := 0
  sumQ : Nat := 0
  nAQ : Nat := 0
  sumT : Int := 0
  nT : Nat := 0
  firstS : Option Nat := none
  verdict : Option Nat := none
  updated : Bool := false
  recorded : Bool := false
  deriving DecidableEq, Repr

/-- A scan slot beyond its registers: its list, whether a collision has been logged since arming, INCOMPLETE, and
the TMP cycle of its arming. -/
structure Scan where
  items : List ScanItem := []
  collided : Bool := false
  incomplete : Bool := false
  armCycle : Nat := 0
  deriving DecidableEq, Repr

/-- A drop of a scan payload (R185): head, pipe, line, nozzle within the head, dose, channel, slot and
item, and whether the slot still wants it. -/
structure ScanDrop where
  head : Nat
  pipe : Nat
  k : Nat
  q : Nat
  dose : Nat
  chan : Nat
  slot : Nat
  item : Nat
  live : Bool := true
  deriving DecidableEq, Repr

/-- A line of a half-band chain (R197): the number and strip of the input line it is tagged with, the samples of
each component, whether a failed buffer word marks it bad, and, in a stage's buffer, what is wrong with its words there (R198). -/
structure HbLine where
  k : Nat
  strip : Nat
  comps : List (List Nat)
  bad : Bool := false
  mark : Mark := .good
  deriving DecidableEq, Repr

/-- A vertical stage (R196): the lines it has taken, and the last eleven of them, newest first. -/
structure HbStage where
  taken : Nat := 0
  recent : List HbLine := []
  deriving DecidableEq, Repr

/-- A half-band chain beyond its registers: its vertical stages, first one first. -/
structure Hb where
  stages : List HbStage := []
  deriving DecidableEq, Repr

/-- The DGU beyond its registers: channels, scan slots, the drops assigned and not yet fired, the last line
each channel took a drop on per generator, the records ready to be written (slot, item), whether the full ring has
been reported, the Tempo of a rising edge of each running clock (R175), and the windows evaluated in the running TMP cycle
(slot, channel, whether UNSETTLED, and the cycle; R194). -/
structure Dgu where
  clocks : List (Nat × Nat) := []
  evals : List (Nat × Nat × Bool × Nat) := []
  cic : List (Nat × Cic) := []
  scans : List (Nat × Scan) := []
  drops : List ScanDrop := []
  lastDrop : List (Nat × Option Nat) := []
  ready : List (Nat × Nat) := []
  fullSeen : Bool := false
  hb : List (Nat × Hb) := []
  deriving DecidableEq, Repr

/-- One half of a camera line under assembly (R211): its words so far, and whether it is shut, by its LAST
packet or by a packet out of order. -/
structure CinHalf where
  words : List DWord := []
  any : Bool := false
  shut : Bool := false
  disorder : Bool := false
  deriving DecidableEq, Repr

/-- A camera line from its commit to its delivery (R211, R212): line number, EXPOSE_AT, the setting in force with
its ratio, the setting whose target strip it opens, its short and long half, whether it closed and whether it was
committed while LINKING, and the ECC state of its buffer (R221). -/
structure CinLine where
  k : Nat
  exposeAt : Nat
  setId : Nat
  ratio : Nat
  opens : Option Nat := none
  short : CinHalf := {}
  long : CinHalf := {}
  closed : Bool := false
  linking : Bool := false
  mark : Mark := .good
  deriving DecidableEq, Repr

/-- A committed exposure setting that waits for its strip (R215). -/
structure ExpSet where
  target : Nat
  setId : Nat
  ratio : Nat
  acked : Bool := false
  deriving DecidableEq, Repr

/-- The shadow exposure registers as a commit copies them (R214, R215): SET_ID, ratio, and word 0 of the EXPOSURE packet. -/
structure ExpShadow where
  setId : Nat
  ratio : Nat
  word : Nat
  deriving DecidableEq, Repr

/-- A camera port beyond its registers (R208–R221): open lines in order, lines closed out of order whose packets
are discarded, pending settings, a commit that waits for a trigger of its own cycle (R222), the ratio of the setting in force, the METAs received (line, identifier), the
last META that applies, the last trigger's line, the strip of the last trigger with the lines triggered in it,
the strip of the entry to RUNNING, whether RUNNING has been left for LINKING, the last line delivered since the enable and ever (R219), the strip
under delivery, the causes logged with their strips, the strips that have raised event 3n + 1, the Tempo of the last
TELEMETRY packet and whether the full ring has been logged. -/
structure Cin where
  lines : List CinLine := []
  dropped : List Nat := []
  pend : List ExpSet := []
  ask : Option ExpShadow := none
  ratio : Nat := 0
  metas : List (Nat × Nat) := []
  lastMeta : Option Nat := none
  lastTrig : Option Nat := none
  strip : Option (Nat × Nat) := none
  entryStrip : Nat := 0
  linkLost : Bool := false
  lastK : Option Nat := none
  shownK : Nat := 0
  openStrip : Option Nat := none
  logged : List (Nat × Nat) := []
  evStrips : List Nat := []
  telAt : Nat := 0
  telFull : Bool := false
  deriving DecidableEq, Repr

/-- A delivered camera line in the delay store (R212, R236): its tag, its 12-bit samples (of the long half in dual
mode) and those of the short half, how many were received of each, its flags (SHORT, LONG, MISSING,
DUAL_INCOMPLETE, BAD, SET_UNCONFIRMED from bit 0 up), the ratio of its setting, what is wrong with its words in the store, and the
samples that a failed word holds, as the first and their number (R267). -/
structure PortLine where
  k : Nat
  exposeAt : Nat
  strip : Nat
  index : Nat
  setId : Nat
  flags : Nat
  ratio : Nat
  samples : List Nat
  short : List Nat
  got : Nat
  gotShort : Nat
  mark : Mark := .good
  lost : Nat × Nat := (0, 0)
  deriving DecidableEq, Repr

/-- The statistics accumulators of a port (R255): the strip's first SET_ID and EXPOSE_AT, flags, lines, samples,
clipped samples, histogram by component × 256 + bin, and by zone × 3 + component the sum and the samples. -/
structure PortStats where
  first : Option (Nat × Nat) := none
  flags : Nat := 0
  lines : Nat := 0
  samples : Nat := 0
  clipped : Nat := 0
  hist : List (Nat × Nat) := []
  zones : List (Nat × Nat × Nat) := []
  deriving DecidableEq, Repr

/-- A stitched line to form: line, position in 2^-16 nm, banks of the IPL and of the RRU, and whether an overflow has voided it (R229). -/
structure StLine where
  k : Nat
  pos : Nat
  bank : Nat
  rbank : Nat := 0
  lost : Bool := false
  deriving DecidableEq, Repr

/-- The tag of a stitched line for defects: position, EXPOSE_AT, strip, JOB_ID and repeat index, its line count
in the machine-vision ring, and the bank of the RRU (R251, R252). -/
structure LineTag where
  k : Nat := 0
  pos : Nat := 0
  exposeAt : Nat := 0
  strip : Nat := 0
  job : Nat := 0
  rep : Nat := 0
  mv : Nat := 0
  rbank : Nat := 0
  deriving DecidableEq, Repr

/-- An open blob (R249): tag of its first line, last line with its position, span of u, area, sums of d per channel,
largest excess with its key channel and sign, camera mask, class, whether a run of it is CLIPPED, and its runs on
recent lines. -/
structure Blob where
  first : LineTag
  last : LineTag
  u0 : Nat
  u1 : Nat
  area : Nat
  sums : List Int
  excess : Int
  key : Nat × Bool
  mask : Nat
  cls : Nat
  clipped : Bool
  runs : List (Nat × Nat × Nat)
  deriving DecidableEq, Repr

/-- A column's streak state (R253): count, gap, key, tag of the start line, sums of d per channel over the counted
lines, and the reported flag. -/
structure Column where
  count : Nat := 0
  gap : Nat := 0
  key : Nat × Bool := (0, false)
  start : LineTag := {}
  sums : List Int := []
  reported : Bool := false
  deriving DecidableEq, Repr

/-- A run of lines with missed pixels (R254). -/
structure MissRun where
  first : LineTag
  last : LineTag
  u0 : Nat
  u1 : Nat
  deriving DecidableEq, Repr

/-- The current row of tolerance cells (R246): bank, cell row counted from TOL_LINE0, and its bytes, none where the
read failed. -/
structure TolRow where
  bank : Nat
  row : Nat
  bytes : Option (List Nat)
  deriving DecidableEq, Repr

/-- The fields of a HEADER that a producer fills (R271); the DFQ fills DEFECT_ID, DEGRADED and UNCOVERED
at admission (R274, R278). -/
structure Defect where
  severity : Nat
  cause : Nat
  source : Nat
  inst : Nat := 0
  bar : Option Nat := none
  xBar : Bool := false
  job : Nat := 0
  rep : Nat := 0
  wcoStart : Nat := 0
  wcoEnd : Nat := 0
  tempo : Nat := 0
  strip : Nat := 0xFFFFFFFF
  xStart : Nat := 0
  xEnd : Nat := 0
  nozzle : Option Nat := none
  cameras : Nat := 0
  data : Nat := 0
  deriving DecidableEq, Repr

/-- A BLOB record held until the machine-vision ring has written the last line of its crop (R251): the ring
counts of the crop's first and last line, and its span. -/
structure HeldBlob where
  d : Defect
  first : Nat
  last : Nat
  u0 : Nat
  u1 : Nat
  deriving DecidableEq, Repr

/-- An output writer beyond its registers (R258): the luma and chroma lines of the coding tile row under way, and
whether the full ring has been logged. -/
structure OutRing where
  luma : List HbLine := []
  chroma : List HbLine := []
  full : Bool := false
  deriving DecidableEq, Repr

/-- The IPL beyond its registers (R228–R269): its tables by selector × 2^20 + index, the delay store by port, the
statistics by port and whether the full ring has been logged, the lines launched and the lines committed and
not yet formed, the bank of the line formed last, open blobs, columns, the run of missed coverage, the tolerance row, the blobs
held for their crops, and the writers. -/
structure Ipl where
  tbl : List (Nat × Cell) := []
  store : List (Nat × List PortLine) := []
  stats : List (Nat × PortStats) := []
  statsFull : Bool := false
  launched : List StLine := []
  todo : List StLine := []
  lastBank : Option Nat := none
  blobs : List Blob := []
  cols : List (Nat × Column) := []
  missed : Option MissRun := none
  tol : Option TolRow := none
  held : List HeldBlob := []
  outs : List (Nat × OutRing) := []
  deriving DecidableEq, Repr

/-- A reference line under way (R240): its line, bank, and per channel × 4 + binding the snapshot it uses with its number. -/
structure RefLine where
  k : Nat
  pos : Nat
  bank : Nat
  snaps : List (Nat × Option (Nat × Snap)) := []
  deriving DecidableEq, Repr

/-- The RRU beyond its registers (R240–R245): lines launched and not started, lines under way, completed references
(per channel the values by pixel, none where void), the current snapshot per channel and binding with its number in
the order of taking, the bank of the line started last, and the numbers of the snapshots not yet retired. -/
structure Rru where
  queue : List RefLine := []
  busy : List RefLine := []
  done : List (Nat × List (List (Option Nat))) := []
  snaps : List (Nat × Option (Nat × Snap)) := []
  lastBank : Option Nat := none
  unretired : List Nat := []
  deriving DecidableEq, Repr

/-- A packet that a producer offers for admission (R278): its place in the order of producers, its
records of 16 words, and the Tempo of the offer. -/
structure Offer where
  rank : Nat
  recs : List (List Word)
  at_ : Option Nat := none
  deriving DecidableEq, Repr

/-- A stored packet (R279–R281): its severity, the records still to be taken, the requester that has
begun it, and the Tempo of its admission. -/
structure Stored where
  sev : Nat
  recs : List (List Word)
  begun : Option Nat := none
  at_ : Option Nat := none
  deriving DecidableEq, Repr

/-- A requester's push side (R283): the staged words, the records committed of a packet not yet complete,
and the crop commits still expected, with REFUSED. -/
structure Push where
  staged : List (Nat × Word) := []
  part : List (List Word) := []
  expect : Nat := 0
  refused : Bool := false
  deriving DecidableEq, Repr

/-- The DFQ beyond its registers (R278–R285): the packets offered and not yet decided, the stored ones in
order of admission, each requester's latch and push side, the losses counted since the device reset,
whether the drain has reported that its ring has no room, and the records that a DROP_REST has discarded in the running PIX cycle
(requester, records, Tempo; R286). -/
structure Dfq where
  offers : List Offer := []
  stored : List Stored := []
  latches : List (Nat × List Word) := []
  push : List (Nat × Push) := []
  losses : Nat := 0
  noRoom : Bool := false
  dropped : List (Nat × List (List Word) × Nat) := []
  deriving DecidableEq, Repr

/-- A commit-queue write (R305, R307): its station, offset and value. -/
structure QueuedWrite where
  station : Nat
  off : Nat
  value : Word
  deriving DecidableEq, Repr

/-- The partner's report of an armed splice (R313): IMAGE_ID, digest, SPLICE_WCO and MASK. -/
structure SpliceReport where
  image : Nat
  digest : List DWord
  wco : Nat
  mask : Nat
  deriving DecidableEq, Repr

/-- The FAB beyond its registers (R303–R316): where the image being loaded lies and the rights it has, whether it is an opening image, its KIND
and COPY_BANKS flag, the MASK in the image, the commit queue, the writes released from it in the order they land, the stations of an armed splice
still to switch, whether an arm check is under way and whether it is a REARM, whether a miss has switched AUTO_ARM off
for this load, the partner's report, and whether the decision of R313 has been made. -/
structure Fab where
  base : Nat := 0
  len : Nat := 0
  rights : BitVec 6 := 0
  opening : Bool := false
  kind : Nat := 0
  copyBanks : Bool := false
  mask : Nat := 0
  queue : List QueuedWrite := []
  ready : List QueuedWrite := []
  todo : List Nat := []
  arming : Option Bool := none
  noAuto : Bool := false
  report : Option SpliceReport := none
  decided : Bool := false
  deriving DecidableEq, Repr

/-- A data cache line (R328): its 64 bytes, the dirty bytes, whether the clean bytes came without error, and what the
line's check bits say. -/
structure DLine where
  bytes : List Byte
  dirty : DWord := 0
  clean : Bool := true
  mark : Mark := .good
  deriving DecidableEq, Repr

/-- An instruction cache line (R329): its 64 bytes, and what its parity says. -/
structure ILine where
  bytes : List Byte
  mark : Mark := .good
  deriving DecidableEq, Repr

/-- A Cregar engine beyond its registers (R323, R328–R331): scalar, vector and predicate registers that are not 0, the caches by
line number, the instruction lines discarded by IC.INVALL that may still be in the fetch pipe, the write-backs started and not
landed oldest first, the WAIT under way (its word and its deadline), the stop and off requests under way, the Tempo of the last START that
acted and of the last OFF (R343), the last WAIT that ended: Tempo, d and imm8, and whether the instruction that retired last was the first of its
cycle, for the PMU (R520). -/
structure Engine where
  x : List (Nat × DWord) := []
  v : List (Nat × VWord) := []
  p : List (Nat × DWord) := []
  dc : List (Nat × DLine) := []
  ic : List (Nat × ILine) := []
  behind : List (Nat × ILine) := []
  wb : List (Nat × DLine) := []
  wait : Option (Nat × DWord) := none
  stop : Bool := false
  off : Bool := false
  startAt : Option Nat := none
  offAt : Option Nat := none
  polled : Option (Nat × Nat × Nat) := none
  half : Bool := false
  deriving DecidableEq, Repr

/-- The engines' memories (R322): local memory of engine e at e × 2^18, cluster memory of cluster c at c × 2^21, by byte, and
the checks of each 8-byte word that is not good. -/
structure EngMem where
  loc : List (Nat × Byte) := []
  clu : List (Nat × Byte) := []
  locMark : List (Nat × Mark) := []
  cluMark : List (Nat × Mark) := []
  deriving DecidableEq, Repr

/-- A commit check under way (R351): the committer and the channels whose pending entries it takes. -/
structure CommitCheck where
  who : Nat
  chans : List Nat
  deriving DecidableEq, Repr

/-- A requester's own copy of EVF_COMMIT_STAT and EVF_COMMIT_CODE (R351, R363), with the TMP cycles in which DONE and REJECTED were set
last (R8). -/
structure CommitStat where
  done : Bool := false
  doneAt : Option Nat := none
  rejected : Bool := false
  rejectedAt : Option Nat := none
  channel : Nat := 0
  code : Nat := 0
  deriving DecidableEq, Repr

/-- The EVF beyond its registers (R351–R358): the commit check under way, the requesters' commit results, the TMP
cycle of the event each channel delivered last and whether its LOOP has been logged, the TMP cycle in which
each task input fired last, the TMP cycle in which each timer was started, and the words of the active set that a commit
replaced while events presented before it wait for their delivery, with the cycle of the commit. -/
structure Evf where
  check : Option CommitCheck := none
  stats : List (Nat × CommitStat) := []
  guards : List (Nat × Option Nat) := []
  fired : List (Nat × Option Nat) := []
  started : List (Nat × Nat) := []
  before : List (Nat × Nat × Nat) := []
  deriving DecidableEq, Repr

/-- A MOVE under way (R368): source and destination by ring or address, its length in bytes, No-Snoop, and whether Bus Master Enable
was clear when it began (R376). -/
structure DmaMove where
  srcMode : Nat
  dstMode : Nat
  src : Nat
  dst : Nat
  len : Nat
  noSnoop : Bool
  barred : Bool := false
  deriving DecidableEq, Repr

/-- A MOVE that a STOP cut off (R385, R386): the PIX cycle of the STOP, the MOVE, the blocks from its start that are surely written,
and the bytes that host memory had returned. -/
structure DmaCut where
  cycle : Nat
  move : DmaMove
  sure : Nat
  got : Nat
  deriving DecidableEq, Repr

/-- A DMA channel beyond its registers (R367–R386): the prefetch buffer (block address and bytes), the MOVE, WAIT (mode and
T) or SIGNAL (event, publish, ring) under way, whether it has come from END_WAIT, and the words and the MOVE of the
instruction decoded last. Beside them, for what coincides in one PIX cycle (R386): the cycle in which the WAIT began, that of the last
doorbell, that of the last entry of END_WAIT with whether it presented event c and whether it counted in DB_EMPTY, the MOVE that a
STOP cut off, and the cycle of the last SKIP with the MOVE it skipped. -/
structure DmaChan where
  buf : Option (Nat × List Byte) := none
  move : Option DmaMove := none
  wait : Option (Nat × Nat) := none
  signal : Option (Bool × Bool × Nat) := none
  fromEnd : Bool := false
  words : Nat := 1
  last : Option DmaMove := none
  waitAt : Nat := 0
  rung : Option Nat := none
  ended : Option (Nat × Bool × Bool) := none
  cut : Option DmaCut := none
  skipped : Option (Nat × DmaMove) := none
  deriving DecidableEq, Repr

/-- What a 64-byte block of device memory holds beyond its bytes (R395–R397): the bits that are wrong, or
POISON; `unknown` is a block of a channel trained from FENCED and not yet rewritten in full (R578). -/
inductive Flaw
  | good | oneLow | oneHigh | oneBoth | bad | tag | poison | unknown
  deriving DecidableEq, Repr

/-- One bank of a channel (R400, R401): the predictor, the last row, the open row, when it was last
accessed, and the row hits in succession. -/
structure Bank where
  pred : Nat := 2
  last : Option Nat := none
  openRow : Option Nat := none
  usedAt : Nat := 0
  hits : Nat := 0
  deriving DecidableEq, Repr

/-- An entry of a channel's activate table (R403): bank (with its rank), row and count. -/
structure Activate where
  bank : Nat
  row : Nat
  count : Nat
  deriving DecidableEq, Repr

/-- A request of a port at a channel's ingress: the port and the Tempo it was first seen. -/
structure IngressReq where
  port : Nat
  since : Nat
  deriving DecidableEq, Repr

/-- A memory channel beyond its registers (R400–R415): its banks, activate table, last request, refresh
window and high die temperature, retrain steps done with the last step's Tempo and a further retrain
asked for, whether an access while FENCED has been logged, the requests waiting at the ingress, the
running grant (port, transfers carried, Tempo of the last transfer), each level's round-robin pointer, the last slot arbitrated,
and how often its content has become undefined through training from FENCED. Beside them, for what coincides in one MEM cycle (R416): the
Tempo to which a retrain step closes the channel, the cycle of the last entry of self-refresh, and the activate table as it stood when a
refresh window ended, with the cycle. -/
structure MemChan where
  banks : List (Nat × Bank) := []
  acts : List Activate := []
  lastReq : Nat := 0
  winStart : Nat := 0
  hot : Bool := false
  steps : Nat := 0
  stepAt : Option Nat := none
  again : Bool := false
  fencedLogged : Bool := false
  trackAt : Nat := 0
  waiting : List IngressReq := []
  grant : Option (Nat × Nat × Nat) := none
  pointers : List (Nat × Option Nat) := []
  lastSlot : Option Nat := none
  gen : Nat := 0
  closedTo : Nat := 0
  srAt : Option Nat := none
  oldActs : Option (Nat × List Activate) := none
  deriving DecidableEq, Repr

/-- Device memory: its bytes and the flaws of its blocks, whether the boot zeroing has ended (R578), the channels, and how many
device resets have left the content undefined. -/
structure Mem where
  bytes : List (Nat × Byte) := []
  flaws : List (Nat × Flaw) := []
  zeroed : Bool := false
  chan : List (Nat × MemChan) := []
  resets : Nat := 0
  deriving DecidableEq, Repr

/-- A transaction in a port's transmitter (R437, R440): its words, and whether it is the mailbox's. -/
structure LinkTx where
  words : List DWord
  mbox : Bool := false
  deriving DecidableEq, Repr

/-- A lane of a receiver in training (R429): TS1 in succession with one LANE, that LANE and polarity, and whether it has
locked. -/
structure LaneTrain where
  count : Nat := 0
  lane : Nat := 0
  inverted : Bool := false
  locked : Bool := false
  deriving DecidableEq, Repr

/-- A credit class of a port (R438): the limit and what has been consumed as a transmitter, and as a receiver the words received,
the words freed, the words freed that no CREDIT frame has reported, and when the first of those was freed. -/
structure CreditClass where
  limit : Nat := 0
  consumed : Nat := 0
  received : Nat := 0
  freed : Nat := 0
  owed : Nat := 0
  owedAt : Nat := 0
  deriving DecidableEq, Repr

/-- A Fuvor port beyond its registers (R428–R442): when it entered its state, when it last left ACTIVE or failed, the rates not
failed, the rate to return to while a rate step runs and when its pause and its training began, the partner's lanes locked, its
width capability and its nonce, the lanes in training, the TS2 counted, invalid sync headers by lane with their Tempo, the
descrambler seeds, transactions waiting, the replay buffer, sequence numbers, whether a NAK is out, whether the ordered sets of a
WAKE are arriving, timers, credits, the TIME exchange, and the bytes sent since the SDS that began the data blocks (R435). Beside them:
the device's own nonce on the twin port (R430), whether the port has been ACTIVE since it was DOWN, and, for what coincides in one link word
cycle (R447), when it entered sleep, learned its endpoints and went DOWN, with the endpoints it then forgot. -/
structure FvlPort where
  since : Nat := 0
  leftAt : Option Nat := none
  rates : BitVec 6 := 0x3F
  back : Option Nat := none
  pauseAt : Option Nat := none
  roundAt : Nat := 0
  partnerLock : Nat := 0
  partnerCap : Nat := 0
  nonce : Nat := 0
  lanes : List (Nat × LaneTrain) := []
  ts2 : Nat := 0
  sync : List (Nat × Nat) := []
  seeds : List Nat := []
  txq : List LinkTx := []
  sent : List (Nat × LinkTx) := []
  seq : Nat := 0
  rxSeq : Nat := 0
  nakked : Bool := false
  waking : Bool := false
  unacked : Nat := 0
  unackedAt : Nat := 0
  timerAt : Nat := 0
  tries : Nat := 0
  credit : List (Nat × CreditClass) := []
  idleAt : Nat := 0
  timeDue : Bool := false
  timeAt : Nat := 0
  tag : Nat := 0
  ping : Option (Nat × Nat × Nat) := none
  txAt : Nat := 0
  ownNonce : Nat := 0
  up : Bool := false
  sleptAt : Option Nat := none
  learnedAt : Option Nat := none
  downAt : Option Nat := none
  forgot : List Nat := []
  deriving DecidableEq, Repr

/-- The FVL beyond its registers: the ports, the mailbox's TAG, port and start while a transaction is under way and whether it is a READ,
and whether a lost endpoint event has been logged since the ring last had room (R443, R444). -/
structure Fvl where
  port : List (Nat × FvlPort) := []
  mbox : Option (Nat × Nat × Nat) := none
  reading : Bool := false
  tag : Nat := 0
  lostLogged : Bool := false
  deriving DecidableEq, Repr

/-- An interrupt whose task has fired and whose MSI-X write has not gone out (R33): function, vector, and the Tempo by which it
does. -/
structure MsixWrite where
  f : Nat
  v : Nat
  due : Nat
  deriving DecidableEq, Repr

/-- The HIF beyond its registers (R33, R455, R458, R460, R462): Bus Master Enable by function, the functions in a Function Level
Reset, each BAR2's size as a power of two, the bits of GPIO_OUT set last with the Tempo, each ball's Tempo of its last accepted level
(one more than it; 0 with none yet), and the lengths of the I²C transfer under way. -/
structure Hif where
  bme : BitVec 6 := 0
  flr : BitVec 6 := 0
  bar2Log2 : List (Nat × Nat) := []
  msix : List MsixWrite := []
  masks : List (Nat × Nat × Nat) := []
  gpioSet : Nat × Nat := (0, 0)
  gpioAt : List (Nat × Nat) := []
  i2cLen : Nat × Nat := (0, 0)
  deriving DecidableEq, Repr

/-- A transmit stamp (R472): TS_ID, port, queue, seconds and nanoseconds. -/
structure TxStamp where
  id : Nat
  port : Nat
  queue : Nat
  sec : Nat
  ns : Nat
  deriving DecidableEq, Repr

/-- An Ethernet port beyond its registers (R467, R470): its own write count of the tile path, the start of the record in
progress (with none, frames are ignored until the next FIRST), and when the frame it sends last is over, in 2^-32 ns of the ETH
reference clock. -/
structure NetPort where
  at_ : Nat := 0
  start : Option Nat := none
  sending : Option Int := none
  deriving DecidableEq, Repr

/-- A pair of PTP time, in 2^-32 ns, and Tempo (R475). -/
structure MapPair where
  ptp : Int := 0
  tempo : Nat := 0
  rate : Nat := 0
  deriving DecidableEq, Repr

/-- The NET beyond its registers (R467–R475): the ports, the transmit stamps oldest first with each reader's latch, PTP time in
2^-32 ns at a Tempo, the Tempo of the last Sync from the master, whether the host has written the master's identity since
holdover began, the Tempo of the last cause of holdover, the mapping pairs newest first with the Tempo of the last, and each reader's latch of the mapping. -/
structure Net where
  port : List (Nat × NetPort) := []
  tsq : List TxStamp := []
  tsqLatch : List (Nat × List Nat) := []
  ptp : Int := 0
  ptpAt : Nat := 0
  syncAt : Nat := 0
  masterWritten : Bool := false
  causeAt : Option Nat := none
  pairs : List MapPair := []
  mapAt : Nat := 0
  snaps : List (Nat × MapPair) := []
  deriving DecidableEq, Repr

/-- A planned castling under way (R487): W_C, whether the partner has acknowledged the plan, when it was
sent, the first line of each bar at or past its switch point, once launched, and the heads released. -/
structure Castle where
  wco : Nat
  acked : Bool := false
  at_ : Nat := 0
  first : List (Nat × Option Nat) := []
  released : List Nat := []
  deriving DecidableEq, Repr

/-- This twin's signature of a head and a group of 64 lines (R483): mask and CRC so far, with the pipe, what a record takes from the
bank of the first line rendered, the first and last line rendered, T_k and position of the group's first line, and the Tempo of its
last render. -/
structure Sig where
  head : Nat
  group : Nat
  mask : DWord := 0
  crc : DWord := BitVec.allOnes 64
  pipe : Nat
  tag : PrintTag
  first : Nat
  last : Nat
  tk : Nat
  pos : Nat
  at_ : Nat
  deriving DecidableEq, Repr

/-- A signature received from the standby (R484): head, group, mask and CRC. -/
structure TheirSig where
  head : Nat
  group : Nat
  mask : DWord
  crc : DWord
  deriving DecidableEq, Repr

/-- The TWN beyond its registers (R476–R490): whether the partner is lost, the planned castling, the position from which each bar
fires after a forced one, the signatures of this twin and those received, the Tempo of the last valid heartbeat and of the last
one sent on the link and on Ethernet, the paths reported lost, the sequence number, the partner's last committed lines, and the
record bytes gathered for each mirrored ring. -/
structure Twn where
  lost : Bool := false
  castle : Option Castle := none
  fireFrom : List (Nat × Nat) := []
  sigs : List Sig := []
  theirs : List TheirSig := []
  linkAt : Nat := 0
  ethAt : Nat := 0
  linkGone : Bool := false
  ethGone : Bool := false
  sentLink : Nat := 0
  sentEth : Nat := 0
  seq : BitVec 32 := 0
  lines : List (Nat × Nat) := []
  ringBuf : List (Nat × List Byte) := []
  deriving DecidableEq, Repr

/-- A sampler (R522): the retirements left before the next tag, none before they are drawn, and whether a lost sample has been
logged since the buffer last had room. -/
structure Sampler where
  left : Option Nat := none
  lostLogged : Bool := false
  deriving DecidableEq, Repr

/-- The PMU beyond its registers (R520–R524): the samplers by cluster, the bytes counted in the running window by
port and direction, when that window began, and the Tempos up to which counters of cycles have counted. -/
structure Pmu where
  samp : List (Nat × Sampler) := []
  bytes : List (Nat × Nat) := []
  winAt : Nat := 0
  ticksAt : List (Nat × Nat) := []
  deriving DecidableEq, Repr

/-- The SEC beyond its registers (R503–R507): how many nonces have been drawn, the Tempo of the last GO that drew one, and the staged
block of the command under way with the nonce it uses. -/
structure Sec where
  nonces : Nat := 0
  goAt : Option Nat := none
  cmd : Option (List Byte × Nat) := none
  deriving DecidableEq, Repr

/-- The CAL beyond its registers (R513–R518): the Tempo of the sensors' last conversion, the sensors found invalid, whether a run
has set the BASE values, the strobe codes computed and not yet applied, and the Tempo of the last run's start. -/
structure Cal where
  convAt : Nat := 0
  bad : BitVec 8 := 0
  based : Bool := false
  codes : List Nat := []
  startAt : Option Nat := none
  deriving DecidableEq, Repr

/-- The register file as it stood when the running cycle of each clock domain began (R8), and the threshold store at the start of
the PIX cycle (R115), and what the slots of the error log rings written last held before (R551): the model's own field, by which a
command tells an update of its own cycle from an older one. -/
structure Past where
  tmp : List (Nat × Word) := []
  pix : List (Nat × Word) := []
  eng : List (Nat × Word) := []
  mem : List (Nat × Word) := []
  hif : List (Nat × Word) := []
  eth : List (Nat × Word) := []
  ts : List (Nat × Cell) := []
  logs : List (Nat × LogEntry) := []
  deriving DecidableEq, Repr

/-- The state of the device. Every `List (Nat × α)` is a sparse table in the canonical form of
`Sparse.wf`: an index that is not listed holds the default its reader names. -/
structure State where
  /-- Tempo, the 64-bit count of 0.25 ns (R35). -/
  tempo : DWord := 0
  /-- The register file: BAR0 word offset and value, where it is not the reset value (R4, R11). -/
  regs : List (Nat × Word) := []
  /-- The register file at the start of the running cycles (R8). -/
  past : Past := {}
  /-- The latched high words of R6, by requester and register. -/
  latch : List (Nat × Word) := []
  /-- The pending low words of R6, by requester and register. -/
  pendLow : List (Nat × Option Word) := []
  /-- The error log rings' entries, by ring and slot (R544). -/
  logs : List (Nat × LogEntry) := []
  /-- Each requester's latch of a log slot, by requester and ring (R545). -/
  logLatch : List (Nat × LogEntry) := []
  /-- Events presented at their sources and not yet delivered: source number and Tempo (R30, R355). -/
  presented : List (Nat × Nat) := []
  /-- What the device has sent or answered, in order. -/
  out : List Out := []
  /-- How many free values have been drawn; the model's own field, not the manual's. -/
  draws : Nat := 0
  /-- The boot and reset inputs (R532). -/
  boot : Boot := {}
  /-- The error status bit of the NET (R29), which no register map places (assumption 6). -/
  netError : Bool := false
  /-- The WTU beyond its registers. -/
  wtu : Wtu := {}
  /-- The CMP beyond its registers. -/
  cmp : Cmp := {}
  /-- The render pipes beyond their registers, by number. -/
  rp : List (Nat × Pipe) := []
  /-- The threshold store (R106); a cell never written holds an undefined value. -/
  ts : List (Nat × Cell) := []
  /-- The nozzle table and its update port. -/
  nt : Nt := {}
  /-- The FTU beyond its registers. -/
  ftu : Ftu := {}
  /-- The DGU beyond its registers. -/
  dgu : Dgu := {}
  /-- The camera ports beyond their registers, by number. -/
  cin : List (Nat × Cin) := []
  /-- The IPL beyond its registers. -/
  ipl : Ipl := {}
  /-- The RRU beyond its registers. -/
  rru : Rru := {}
  /-- The DFQ beyond its registers. -/
  dfq : Dfq := {}
  /-- The FAB beyond its registers. -/
  fab : Fab := {}
  /-- The Cregar engines beyond their registers, by number. -/
  eng : List (Nat × Engine) := []
  /-- The engines' local and cluster memories. -/
  emem : EngMem := {}
  /-- The EVF beyond its registers. -/
  evf : Evf := {}
  /-- The DMA channels beyond their registers, by number. -/
  dma : List (Nat × DmaChan) := []
  /-- Device memory and its channels (15). -/
  mem : Mem := {}
  /-- The FVL beyond its registers. -/
  fvl : Fvl := {}
  /-- The HIF beyond its registers. -/
  hif : Hif := {}
  /-- The NET beyond its registers. -/
  net : Net := {}
  /-- The TWN beyond its registers. -/
  twn : Twn := {}
  /-- The PMU beyond its registers. -/
  pmu : Pmu := {}
  /-- The SEC beyond its registers. -/
  sec : Sec := {}
  /-- The CAL beyond its registers. -/
  cal : Cal := {}
  /-- The commands waiting, first in, first out. -/
  pending : List Instr := []
  deriving DecidableEq, Repr

/-- The machine right after the device reset that follows power-on: every register at its reset value
(an unlisted offset of `regs` reads as the register map's reset value), every block as its chapter says
it is after reset, nothing placed in memory, no command waiting (R11, R533; assumption 1). -/
def State.reset : State := {}

/-- Why a command stops the machine. No meaning of this model raises a fault: the manual gives every
command of the table an effect, so the type is empty of reasons but for the one below. -/
inductive Fault
  /-- Raised by no command. It stands here because a closed type of reasons is asked for; safe. -/
  | none
  deriving DecidableEq, Repr

/-- Why a command has no meaning in the model. -/
inductive Refusal
  /-- Raised by an arm of `exec` whose command has no meaning yet; safe, since nothing is then proved of it. -/
  | notModelled (mnemonic : String)
  deriving DecidableEq, Repr

/-- What a command answers. -/
abbrev Res := Host.Outcome State Fault Refusal

end Sys2Proof.Machine
end

