-- ==== Sys2Proof/Machine/Ops.lean ====
section
/-! DEFINITION. The named operations: sparse tables in canonical form, register words and fields, time,
free values, errors and events. -/

namespace Sys2Proof.Machine

/-! ### Sparse tables -/

/-- The entry of a sparse table at `k`; an index that is not listed holds `d k`. -/
def Sparse.get {α : Type} (d : Nat → α) : List (Nat × α) → Nat → α
  | [], k => d k
  | (a, v) :: m, k => if a = k then v else Sparse.get d m k

/-- The table without its entry at `k`. -/
def Sparse.drop {α : Type} (m : List (Nat × α)) (k : Nat) : List (Nat × α) :=
  m.filter fun p => p.1 != k

/-- The table with an entry put in front of the first higher index. -/
def Sparse.ins {α : Type} (k : Nat) (v : α) : List (Nat × α) → List (Nat × α)
  | [] => [(k, v)]
  | (a, w) :: m => if k < a then (k, v) :: (a, w) :: m else (a, w) :: Sparse.ins k v m

/-- The table with `v` at `k`, in canonical form: writing what an unlisted index holds unlists it. -/
def Sparse.set {α : Type} [DecidableEq α] (d : Nat → α) (m : List (Nat × α)) (k : Nat) (v : α) :
    List (Nat × α) :=
  if v = d k then Sparse.drop m k else Sparse.ins k v (Sparse.drop m k)

/-- The canonical form: indices strictly rising, no entry equal to what an unlisted index holds. -/
def Sparse.wf {α : Type} [DecidableEq α] (d : Nat → α) : List (Nat × α) → Bool
  | [] => true
  | (a, v) :: m =>
    (decide (v ≠ d a) && m.all fun p => decide (a < p.1)) && Sparse.wf d m

/-- A list with `x` put before the first entry it does not follow. -/
def insertBy {α : Type} (le : α → α → Bool) (x : α) : List α → List α
  | [] => [x]
  | y :: l => if le x y then x :: y :: l else y :: insertBy le x l

/-- A list in the order of `le`; entries that are equal by it keep their order. -/
def sortBy {α : Type} (le : α → α → Bool) : List α → List α
  | [] => []
  | x :: l => insertBy le x (sortBy le l)

/-! ### Numbers -/

/-- The signed value of the low `w` bits of `n`. -/
def signed (w n : Nat) : Int :=
  if n % 2 ^ w < 2 ^ (w - 1) then ((n % 2 ^ w : Nat) : Int) else ((n % 2 ^ w : Nat) : Int) - (2 ^ w : Nat)

/-- The low `w` bits of a signed number. -/
def unsigned (w : Nat) (i : Int) : Nat := (i % (2 ^ w : Nat)).toNat

/-- Division rounded to the nearest, halves away from zero (R42). -/
def roundHalfAway (num : Int) (den : Nat) : Int :=
  if 0 ≤ num then (2 * num + den) / (2 * den) else -((2 * -num + den) / (2 * den))

/-- Division rounded to the nearest, halves up (R56). -/
def roundHalfUp (num : Int) (den : Int) : Int := (2 * num + den) / (2 * den)

/-- Bit `i` of `n`. -/
def bit (n i : Nat) : Bool := n / 2 ^ i % 2 == 1

/-- Bits [hi:lo] of `n`. -/
def bits (n hi lo : Nat) : Nat := n / 2 ^ lo % 2 ^ (hi - lo + 1)

/-- `n` with bits [hi:lo] replaced by the low bits of `v`. -/
def setBits (n hi lo v : Nat) : Nat :=
  2 ^ (hi + 1) * (n / 2 ^ (hi + 1)) + 2 ^ lo * (v % 2 ^ (hi - lo + 1)) + n % 2 ^ lo

/-- A truth value as a bit. -/
def b2n (b : Bool) : Nat := if b then 1 else 0

/-! ### The register map -/

/-- The instance numbers of offset `d` within a register of the given strides and counts, and what is
left of the offset. -/
def instOf : List (Nat × Nat) → Nat → Option (List Nat × Nat)
  | [], d => some ([], d)
  | (k, c) :: ds, d =>
    if d / k < c then (instOf ds (d % k)).map fun p => (d / k :: p.1, p.2) else none

/-- Whether the word at `off` belongs to register `r`; with its instance numbers and whether it is the
high word. -/
def RegDesc.hit (r : RegDesc) (off : Nat) : Option (List Nat × Bool) :=
  if off < r.base then none
  else match instOf r.dims (off - r.base) with
    | some (is, 0) => some (is, false)
    | some (is, 4) => if r.wide then some (is, true) else none
    | _ => none

/-- The register that a word offset belongs to, its instance numbers, and whether it is the high word. -/
def findReg (off : Nat) : Option (RegDesc × List Nat × Bool) :=
  (regsOfMiB (off / 0x100000)).findSome? fun r => (r.hit off).map fun p => (r, p.1, p.2)

/-- The value the fields of a register's reset column make up. -/
def RegDesc.reset (r : RegDesc) : Nat :=
  r.fields.foldl (fun n f => n + f.rst * 2 ^ f.lo) 0

/-- The default slot table of R410: the port of slot `i`, 0x3F where the slot is open. -/
def defaultSlot (i : Nat) : Nat :=
  let g := i / 16
  match i % 16 with
  | 0 => 3 * g % 8
  | 5 => (3 * g + 1) % 8
  | 10 => (3 * g + 2) % 8
  | 2 => 9
  | 8 => if g < 6 then 8 else 0x3F
  | _ => 0x3F

/-- The reset priority of an ingress port (R408). -/
def defaultPrio (p : Nat) : Nat :=
  if p ≤ 8 then 6 else if p = 9 then 5 else if p = 10 then 4 else if p = 11 then 1
  else if p ≤ 13 then 3 else if p = 14 then 5 else 2

/-- The local indices that a block's event table lists as raising an event, as ranges, by block
identifier (R64, R88, R118, R143, R172, R200, R225, R265, R266, R290, R319, R345, R361, R388, R418, R449,
R493, R527). -/
def eventRanges : Nat → List (Nat × Nat)
  | 1 => [(0, 3)]
  | 2 => [(0, 14), (16, 49)]
  | 3 => [(0, 9)]
  | 4 => [(0, 59)]
  | 5 => [(0, 6), (48, 50)]
  | 6 => [(0, 20)]
  | 7 => [(0, 50)]
  | 8 => [(0, 12)]
  | 9 => [(0, 5)]
  | 10 => [(0, 1), (4, 17)]
  | 11 => [(0, 49)]
  | 12 => [(0, 35)]
  | 13 => [(0, 34)]
  | 14 => [(0, 18)]
  | 15 => [(0, 7)]
  | 16 => [(0, 5), (8, 27)]
  | 17 => [(0, 45)]
  | 18 => [(0, 4)]
  | 19 => [(0, 7)]
  | 20 => [(0, 7), (16, 49)]
  | _ => []

/-- The source numbers the device implements (R30): the local indices each block's event table lists as
raising an event, and index 63 of every block. -/
def implemented (src : Nat) : Bool :=
  let i := src % 64
  let within (l : List (Nat × Nat)) : Bool := l.any fun p => p.1 ≤ i && i ≤ p.2
  1 ≤ src / 64 && src / 64 ≤ 20 && (i == 63 || within (eventRanges (src / 64)))

/-- The bits [31:0] of EVF_SRC_IMPLw: bit j is set when source 32w + j is implemented (R363). -/
def srcImplWord (w : Nat) : Nat :=
  (List.range 32).foldl (fun n j => n + 2 ^ j * b2n (implemented (32 * w + j))) 0

/-- The reset values that differ from instance to instance, by the register's first offset and its
instance numbers (R120, R144, R202, R268, R270, R408, R410, R363), and the values that one device fixes
(R499, R500, R529) or that the manual leaves undefined (R270, R531). -/
def resetPatch (base : Nat) (is : List Nat) (off : Nat) (dflt : Nat) : Nat :=
  match base, is with
  | 0x00300000, n :: _ => dflt + 2 ^ 8 * n
  | 0x00301100, _ :: _ :: i :: _ =>
    4 * i + 2 ^ 8 * (4 * i + 1) + 2 ^ 16 * (4 * i + 2) + 2 ^ 24 * (4 * i + 3)
  | 0x00301600, _ :: _ :: 0 :: _ => 1
  | 0x00301604, n :: _ :: 0 :: _ =>
    0x80808080 + 4 * n + 2 ^ 8 * (4 * n + 1) + 2 ^ 16 * (4 * n + 2) + 2 ^ 24 * (4 * n + 3)
  | 0x00600100, c :: _ => dflt + 2 ^ 4 * c
  | 0x00800400, s :: _ => dflt + 2 ^ 4 * s
  | 0x00401000, _ :: c :: _ => dflt + 2 ^ 4 * c
  | 0x00404000, _ => (Config.undefWord off).toNat % 2 ^ 32
  | 0x01540000, _ => (Config.undefWord off).toNat % 2 ^ 32
  | 0x00E08200, p :: _ => defaultPrio p
  | 0x00E09000, i :: _ => defaultSlot i
  | 0x00E09200, i :: _ => defaultSlot i
  | 0x00C00400, w :: _ => srcImplWord w
  | 0x00000000, _ => dflt + 2 ^ 16 * Config.fusedRev.toNat + 2 ^ 20 * (if Config.is128C then 2 else 1)
  | 0x00000010, _ => Config.fusedSerial.toNat
  | 0x00000200, _ => Config.fusedCertLen.toNat
  | 0x00002000, i :: _ => (Config.fusedCert i).toNat
  | _, _ => dflt

/-- The reset value of the register word at `off` (R11); 0 where no map assigns the offset (R10). -/
def regReset (off : Nat) : Word :=
  match findReg off with
  | none => 0
  | some (r, is, high) =>
    let v := resetPatch r.base is off r.reset
    BitVec.ofNat 32 (if high then v / 2 ^ 32 else v)

/-! ### Register words and fields -/

/-- The word at a BAR0 offset, as the register file holds it. -/
def State.word (s : State) (off : Nat) : Nat := (Sparse.get regReset s.regs off).toNat

/-- The register file with a word replaced. -/
def State.setWord (s : State) (off : Nat) (v : Nat) : State :=
  { s with regs := Sparse.set regReset s.regs off (BitVec.ofNat 32 v) }

/-- The register a field lies in, 64 bits for a field that reaches above bit 31 (R6). -/
def State.raw (s : State) (f : Fld) : Nat :=
  if f.hi < 32 then s.word f.off else s.word f.off + 2 ^ 32 * s.word (f.off + 4)

/-- The value of a field. -/
def State.get (s : State) (f : Fld) : Nat := bits (s.raw f) f.hi f.lo

/-- The state with a field replaced; every other bit of the register stays. -/
def State.put (s : State) (f : Fld) (v : Nat) : State :=
  let w := setBits (s.raw f) f.hi f.lo v
  if f.hi < 32 then s.setWord f.off w
  else (s.setWord f.off (w % 2 ^ 32)).setWord (f.off + 4) (w / 2 ^ 32)

/-- Whether a one-bit field is 1. -/
def State.on (s : State) (f : Fld) : Bool := s.get f == 1

/-- A field plus a count, wrapping at its width (R549). -/
def State.bump (s : State) (f : Fld) (n : Nat := 1) : State := s.put f (s.get f + n)

/-- A field as a signed number of its width. -/
def State.getInt (s : State) (f : Fld) : Int := signed (f.hi - f.lo + 1) (s.get f)

/-- A field set to the low bits of a signed number. -/
def State.putInt (s : State) (f : Fld) (v : Int) : State := s.put f (unsigned (f.hi - f.lo + 1) v)

/-! ### Clock domains and their cycles (R8, R12, R17) -/

/-- The clock domains that hold a copy of Tempo (R17). -/
inductive Domain
  | tmp | pix | eng | mem | hif | eth
  deriving DecidableEq, Repr

/-- The number of the cycle of a domain's clock in which Tempo `t` lies: TMP 500 MHz, PIX and HIF 1 GHz, ENG 1.6 GHz, MEM
667 MHz, ETH 390.625 MHz (R17), all counted from Tempo 0. DESIGN CHOICE (assumption 81): the phases of the clocks are open. -/
def Domain.cycleOf (d : Domain) (t : Nat) : Nat :=
  match d with
  | .tmp => t / 8
  | .pix => t / 4
  | .eng => 2 * t / 5
  | .mem => t / 6
  | .hif => t / 4
  | .eth => 25 * t / 256

/-- The domain of the register at an offset (R12, R24). -/
def domainOf (off : Nat) : Domain :=
  match off / 0x100000 with
  | 0 => .hif
  | 1 | 5 | 12 | 22 | 23 => .tmp
  | 6 => if off < 0x00608000 then .tmp else .pix
  | 11 => .eng
  | 14 => .mem
  | 20 => if off < 0x01480000 then .hif else .eth
  | _ => .pix

/-- The register file at the start of a domain's running cycle. -/
def Past.of (p : Past) : Domain → List (Nat × Word)
  | .tmp => p.tmp
  | .pix => p.pix
  | .eng => p.eng
  | .mem => p.mem
  | .hif => p.hif
  | .eth => p.eth

/-- The register file of one domain replaced. -/
def Past.put (p : Past) (d : Domain) (r : List (Nat × Word)) : Past :=
  match d with
  | .tmp => { p with tmp := r }
  | .pix => { p with pix := r }
  | .eng => { p with eng := r }
  | .mem => { p with mem := r }
  | .hif => { p with hif := r }
  | .eth => { p with eth := r }

/-- Tempo goes from `a` to `b`: each domain that enters another cycle begins it with the registers, and the threshold store, as
they are. -/
def Past.roll (p : Past) (regs : List (Nat × Word)) (ts : List (Nat × Cell)) (a b : Nat) : Past :=
  let keep := fun (d : Domain) => if d.cycleOf a = d.cycleOf b then p.of d else regs
  { tmp := keep .tmp, pix := keep .pix, eng := keep .eng, mem := keep .mem, hif := keep .hif, eth := keep .eth,
    ts := if Domain.cycleOf .pix a = Domain.cycleOf .pix b then p.ts else ts
    logs := p.logs }

/-- The state with the registers as they stood when the running cycle of domain `d` began. -/
def State.atCycle (s : State) (d : Domain) : State := { s with regs := s.past.of d }

/-- The value of a field when the running cycle of its domain began: what a decision or an access of this cycle sees where an
update of the same cycle does not yet count (R8). -/
def State.was (s : State) (f : Fld) : Nat := (s.atCycle (domainOf f.off)).get f

/-- What `was` answers for a field is replaced, so that a second access in the cycle finds the first. -/
def State.putPast (s : State) (f : Fld) (v : Nat) : State :=
  let d := domainOf f.off
  { s with past := s.past.put d ((s.atCycle d).put f v).regs }

/-- Hardware sets bits that software clears by writing 1: set in the cycle of the clearing, they stay (R8). -/
def State.flagBits (s : State) (f : Fld) (m : Nat) : State :=
  (s.put f (s.get f ||| m)).putPast f (s.was f ^^^ (s.was f &&& m))

/-- Hardware sets a flag that software clears by writing 1: set in the cycle of the clearing, it stays (R8). -/
def State.flag (s : State) (f : Fld) : State := (s.put f 1).putPast f 0

/-! ### Time, free values and output -/

/-- Little-endian bytes of a number (R4). -/
def toBytes (n : Nat) (v : Nat) : List Byte :=
  match n with
  | 0 => []
  | n + 1 => BitVec.ofNat 8 v :: toBytes n (v / 256)

/-- The write of a function's MSI-X vector, as its table entry stands (R33, R454). -/
def State.msixWrite (s : State) (f v : Nat) : Out :=
  .hostWrite f false (s.get (F.MSIX_ADDR_LO f v) + 2 ^ 32 * s.get (F.MSIX_ADDR_HI f v)) (toBytes 4 (s.get (F.MSIX_DATA f v)))

/-- Tempo as a number. -/
def State.now (s : State) : Nat := s.tempo.toNat

/-- The TMP cycle Tempo is in (R35). -/
def State.cycle (s : State) : Nat := s.now / 8

/-- Tempo moves on by `dt` units (R35) and nothing happens at an encoder input meanwhile: domains enter new cycles, and the interrupt writes that are due go out (R33). -/
def State.pass (s : State) (dt : Nat) : State :=
  let t := s.tempo + BitVec.ofNat 64 dt
  { s with
    tempo := t
    past := s.past.roll s.regs s.ts s.tempo.toNat t.toNat
    out := s.out ++ (s.hif.msix.filter fun m => decide (m.due ≤ t.toNat)).map fun m => s.msixWrite m.f m.v
    hif := { s.hif with msix := s.hif.msix.filter fun m => decide (t.toNat < m.due) } }

/-- The registers count as settled: no update of them falls in a running cycle. -/
def State.settled (s : State) : State :=
  { s with past := {
      tmp := s.regs, pix := s.regs, eng := s.regs, mem := s.regs, hif := s.regs, eth := s.regs, ts := s.ts } }

/-- A fresh free value of 64 bits, and the state that has drawn it. -/
def State.draw (s : State) : DWord × State :=
  (Config.freeValue s.draws, { s with draws := s.draws + 1 })

/-- Something the device shows outside. -/
def State.emit (s : State) (o : Out) : State := { s with out := s.out ++ [o] }

/-- The least and greatest lag of a domain's copy, in Tempo units (R18), the greatest rounded down. -/
def Domain.lag : Domain → Nat × Nat
  | .tmp => (0, 0)
  | .pix => (8, 20)
  | .eng => (5, 15)
  | .mem => (12, 26)
  | .hif => (12, 26)
  | .eth => (21, 38)

/-- The copy of Tempo that a domain holds: Tempo at a TMP edge within the lag range before now (R17);
which edge, where the range holds two, is free. -/
def State.tempoCopy (s : State) (d : Domain) : Nat :=
  match d with
  | .tmp => s.now / 8 * 8
  | _ =>
    let newest := (s.now - d.lag.1) / 8 * 8
    let older := newest - 8 * (Config.copyLag d.lag.1 s.now % 3)
    if s.now - d.lag.2 ≤ older then older else newest

/-! ### Events -/

/-- Whether a source has presented its event in this TMP cycle (R30, R355). -/
def State.hasRaised (s : State) (src : Nat) : Bool := s.presented.any fun p => p.1 == src && p.2 / 8 == s.cycle

/-- The PMU counters that are enabled and not frozen, with their selections: only a configuration that has been written
can have EN set (R520, R521). -/
def State.pmuCounters (s : State) : List (Nat × Nat) :=
  if s.regs.any fun p => p.1 == 0x01500000 && bit p.2.toNat 0 then []
  else s.regs.filterMap fun p =>
    if 0x01500100 ≤ p.1 && p.1 < 0x01500300 && p.1 % 16 == 0 && bit p.2.toNat 0 then
      some ((p.1 - 0x01500100) / 16, p.2.toNat) else none

/-- The counters whose selection names an event code of an instance of a unit (R520); a code from 0x80 names a source of the
unit whatever the instance. -/
def State.pmuFor (s : State) (unit inst event : Nat) : List Nat :=
  s.pmuCounters.filterMap fun p =>
    if bits p.2 12 8 == unit && bits p.2 31 24 == event && (0x80 ≤ event || bits p.2 23 16 == inst) then some p.1 else none

/-- A source presents its event: at most one per source and TMP cycle (R30, R355). Counters that count its raises add 1, and
one that wraps at 2^48 raises its own event (R520, R521). -/
def State.raiseAux : Nat → State → Nat → State
  | 0, s, src => if s.hasRaised src then s else { s with presented := s.presented ++ [(src, s.now)] }
  | fuel + 1, s, src =>
    if s.hasRaised src then s
    else
      (s.pmuFor (src / 64) 0 (0x80 + src % 64)).foldl (fun (s : State) c =>
        let v := s.get (F.PMU_CNT_VALUE c) + 1
        if 2 ^ 48 ≤ v then
          ((s.put (F.PMU_CNT_VALUE c) 0).flagBits F.PMU_OVF (2 ^ c)).raiseAux fuel (1088 + c)
        else s.put (F.PMU_CNT_VALUE c) v) { s with presented := s.presented ++ [(src, s.now)] }

/-- A source presents its event; 33 counters cannot all wrap in succession. -/
def State.raise (s : State) (src : Nat) : State := s.raiseAux 33 src

/-- An event that a source presented in this TMP cycle is withdrawn before anything has seen it. -/
def State.withdrawEvent (s : State) (src : Nat) : State :=
  (s.pmuFor (src / 64) 0 (0x80 + src % 64)).foldl (fun (s : State) c =>
      s.put (F.PMU_CNT_VALUE c) (s.get (F.PMU_CNT_VALUE c) - 1))
    { s with presented := s.presented.filter fun p => !(p.1 == src && p.2 / 8 == s.cycle) }

/-- A counter wraps (R521). -/
def State.pmuWrap (s : State) (c : Nat) : State :=
  ((s.put (F.PMU_CNT_VALUE c) 0).flagBits F.PMU_OVF (2 ^ c)).raise (1088 + c)

/-- An event of a unit is counted `n` times (R520). -/
def State.tally (s : State) (unit inst event : Nat) (n : Nat := 1) : State :=
  (s.pmuFor unit inst event).foldl (fun (s : State) c =>
    let v := s.get (F.PMU_CNT_VALUE c) + n
    if 2 ^ 48 ≤ v then (s.pmuWrap c).put (F.PMU_CNT_VALUE c) (v - 2 ^ 48) else s.put (F.PMU_CNT_VALUE c) v) s

/-- Bytes counted in the running bandwidth window (R524): slot 2p of a memory port read, 2p + 1 written, 64 + 2p of a Fuvor
port sent, 65 + 2p received. -/
def State.countBytes (s : State) (slot n : Nat) : State :=
  if s.on F.PMU_BW_CFG_EN then
    { s with pmu := { s.pmu with bytes := Sparse.set (fun _ => 0) s.pmu.bytes slot (Sparse.get (fun _ => 0) s.pmu.bytes slot + n) } }
  else s

/-! ### Errors -/

/-- Where a block logs its errors: its identifier (R26), the instance field of its codes (R27, R28), its
error log ring (R544), its error status bit (R29; the NET's has no place in any map, so it is state
of its own), and the domain whose Tempo copy the entry holds. -/
structure Site where
  block : Nat
  inst : Nat
  ring : Nat
  flag : Option Fld
  dom : Domain
  deriving DecidableEq, Repr

/-! One site per block and instance (R26, R28; the ring offsets are those the chapters give). -/

def siteSec : Site := ⟨0x01, 0, 0x00000F00, some F.SEC_ERR, .hif⟩
def siteWtu (i : Nat) : Site := ⟨0x02, i, 0x00100F00, some F.WTU_ERR, .tmp⟩
def siteCmp : Site := ⟨0x03, 0, 0x00200F00, some F.CMP_ERR, .pix⟩
def siteRp (n : Nat) : Site := ⟨0x04, n, 0x00300F00 + 0x10000 * n, some (F.RP_ERR n), .pix⟩
def siteRru : Site := ⟨0x04, 8, 0x00400F00, some F.RRU_ERR, .pix⟩
def siteFtu : Site := ⟨0x05, 0xF, 0x00500F00, some F.FTU_ERR, .tmp⟩
def siteDgu : Site := ⟨0x06, 0, 0x00600F00, some F.DGU_ERR, .tmp⟩
def siteHb : Site := ⟨0x06, 1, 0x00608F00, some F.DGU_HB_ERR, .pix⟩
def siteCin (n : Nat) : Site := ⟨0x07, n, 0x00700F00 + n * 0x1000, some (F.CIN_PORT_ERR n), .pix⟩
def siteIpl : Site := ⟨0x08, 0, 0x00800F00, some F.IPL_ERR, .pix⟩
def siteDfq : Site := ⟨0x09, 0, 0x00900F00, some F.DFQ_ERR, .pix⟩
def siteFab : Site := ⟨0x0A, 0, 0x00A00F00, some F.FAB_ERR, .pix⟩
def siteEng : Site := ⟨0x0B, 0xF, 0x00B00F00, some F.ENG_ERR, .eng⟩
def siteEvf : Site := ⟨0x0C, 0xF, 0x00C00F00, some F.EVF_ERR, .tmp⟩
def siteDma : Site := ⟨0x0D, 0xF, 0x00D00F00, some F.DMA_ERR, .pix⟩
def siteMem (n : Nat) : Site := ⟨0x0E, n, 0x00E08F00, some F.MEM_ERR, .mem⟩
def siteFvl : Site := ⟨0x0F, 0xF, 0x00F00F00, some F.FVL_ERR, .pix⟩
def siteNet (n : Nat) : Site := ⟨0x10, n, 0x01480F00, none, .eth⟩
def sitePmu (c : Nat) : Site := ⟨0x11, c, 0x01500F00, some F.PMU_ERR, .pix⟩
def siteCal : Site := ⟨0x12, 0, 0x01600F00, some F.CAL_ERR, .tmp⟩
def siteTwn : Site := ⟨0x13, 0, 0x01700F00, some F.TWN_ERR, .tmp⟩
def siteHif : Site := ⟨0x14, 0, 0x01400F00, some F.HIF_ERR, .hif⟩

/-- The error code of R27. -/
def errCode (block cls inst cause : Nat) : Nat :=
  2 ^ 24 * block + 2 ^ 16 * cls + 2 ^ 12 * inst + cause

/-- The cause number of an entry (R27). -/
def LogEntry.cause (e : LogEntry) : Nat := e.code.toNat % 2 ^ 12

/-- An entry put at place `n` of a ring, or before the entries of its own cycle whose causes are higher (R29). -/
def logPlace (ring : Nat) : Nat → List (Nat × LogEntry) → Nat → LogEntry → List (Nat × LogEntry)
  | 0, logs, n, e => Sparse.set (fun _ => {}) logs (ring + n % 256) { e with number := BitVec.ofNat 32 n }
  | fuel + 1, logs, n, e =>
    let p := Sparse.get (fun _ => {}) logs (ring + (n + 255) % 256)
    if p.cycle = e.cycle && p.number == BitVec.ofNat 32 (n + 2 ^ 32 - 1) && e.cause < p.cause then
      logPlace ring fuel (Sparse.set (fun _ => {}) logs (ring + n % 256) { p with number := BitVec.ofNat 32 n })
        ((n + 2 ^ 32 - 1) % 2 ^ 32) e
    else Sparse.set (fun _ => {}) logs (ring + n % 256) { e with number := BitVec.ofNat 32 n }

/-- An entry written into an error log ring: it takes slot LOG_WR mod 256, and where that slot's entry
is unread it is overwritten, counted in LOG_LOST (R544, R545). -/
def State.logPush (s : State) (ring cycle code tempo : Nat) (details : List Nat) : State :=
  let n := s.get (F.LOG_WR ring)
  let lost := decide (256 ≤ (n + 2 ^ 32 - s.get (F.LOG_RD ring)) % 2 ^ 32)
  let e : LogEntry :=
    { code := BitVec.ofNat 32 code, tempo := BitVec.ofNat 64 tempo, details := details.map (BitVec.ofNat 32), cycle := some cycle }
  let slot := ring + n % 256
  let s := { s with
    logs := logPlace ring 255 s.logs n e
    past := { s.past with logs := Sparse.set (fun _ => {}) s.past.logs slot (Sparse.get (fun _ => {}) s.logs slot) } }
  let s := if lost then (s.bump (F.LOG_LOST ring)).flag (F.LOG_OVERWRITE ring) else s
  s.bump (F.LOG_WR ring)

/-- A block detects an error: status bit, log entry, error event; the errors of one cycle stand in the order of their causes, and
raise one event (R29). -/
def State.logErr (s : State) (e : Site) (cls cause : Nat) (details : List Nat := []) : State :=
  let s := match e.flag with
    | some f => s.flag f
    | none => { s with netError := true }
  let s := s.logPush e.ring (e.dom.cycleOf s.now) (errCode e.block cls e.inst cause) (s.tempoCopy e.dom) details
  s.raise (e.block * 64 + 63)

end Sys2Proof.Machine
end

