-- ==== Sys2Proof/Machine/Glitch.lean ====
section
/-! DEFINITION. The encoder inputs of the WTU up to their filtered levels (02 R37, R41, R43, R44), and the passing of Tempo, in
which their pulses are rejected. -/

namespace Sys2Proof.Machine

/-! ### Decoders -/

def State.dec (s : State) (n : Nat) : Decoder := Sparse.get (fun _ => {}) s.wtu.dec n

def State.setDec (s : State) (n : Nat) (d : Decoder) : State :=
  { s with wtu := { s.wtu with dec := Sparse.set (fun _ => {}) s.wtu.dec n d } }

/-- The number of the WCO source decoder (R46). -/
def State.src (s : State) : Nat := s.get F.WTU_CTRL_WCO_SRC

/-- The motion states of R41. -/
def stStill : Nat := 0
def stFwdStart : Nat := 1
def stForward : Nat := 2
def stRevStart : Nat := 3
def stReverse : Nat := 4
def stFrozen : Nat := 5

/-- The motion state of decoder `n`. -/
def State.motion (s : State) (n : Nat) : Nat := s.get (F.WTU_ENC_STAT_STATE n)

/-- Decoder `n` enters a motion state; where it is the source, WTU_STATUS shows it, entering STILL raises event 10 and entering
FORWARD or REVERSE event 11 (R41, R64, R66). -/
def State.setMotion (s : State) (n m : Nat) : State :=
  let old := s.motion n
  let s := s.put (F.WTU_ENC_STAT_STATE n) m
  let s := if n = s.src then s.put F.WTU_STATUS_STATE m else s
  if n = s.src && old != m then
    if m = stStill then s.raise (128 + 10)
    else if m = stForward || m = stReverse then s.raise (128 + 11)
    else s
  else s

/-- A condition of decoder `n` sets its flag, is logged with the raw count, and raises the decoder's
status event (R64, R65). -/
def State.decError (s : State) (n : Nat) (flag : Fld) (cls cause : Nat) : State :=
  ((s.put flag 1).logErr (siteWtu n) cls cause [s.get (F.WTU_ENC_RAW n)]).raise (128 + n)

/-- An over-rate condition: flag, cause 0x020, and FORWARD or REVERSE goes to FROZEN; the clean count
starts again (R44). -/
def State.overRate (s : State) (n : Nat) : State :=
  let s := s.decError n (F.WTU_ENC_STAT_OVER_RATE n) 0x03 0x020
  let m := s.motion n
  let s := s.setDec n { s.dec n with clean := 0 }
  if s.on (F.WTU_ENC_CFG_EN n) && (m = stForward || m = stReverse) then s.setMotion n stFrozen else s

/-! ### Input lines -/

/-- Whether a TMP edge has sampled the line's raw level since its last edge (R37). -/
def EncLine.sampled (l : EncLine) (now : Nat) : Bool := decide (l.rawSince / 8 < now / 8)

/-- The line with its run of equal samples as it stands at Tempo `now`: a level that no TMP edge has sampled is not seen (R37). -/
def EncLine.seen (l : EncLine) (now : Nat) : EncLine :=
  if l.sampled now && l.raw != l.smp then { l with smp := l.raw, runStamp := l.rawSince, runCycle := l.rawSince / 8 + 1 } else l

/-- The TMP cycle at which a line's changed level is accepted (R37). -/
def EncLine.acceptCycle (l : EncLine) (filt : Nat) : Nat := l.runCycle + filt

/-- Whether a line's changed level has been sampled long enough to be accepted by Tempo `now`. -/
def EncLine.due (l : EncLine) (filt now : Nat) : Bool :=
  (l.seen now).smp != l.level && (l.seen now).acceptCycle filt ≤ now / 8

/-- The Tempo of the TMP edge that samples the old level again after a pulse, where the line shows one: the pulse has been sampled
on fewer edges than it takes to be accepted, or it would have been, and is then rejected (R37). -/
def EncLine.rejectAt (l : EncLine) : Option Nat :=
  if l.smp != l.level && l.raw == l.level then some (8 * (l.rawSince / 8 + 1)) else none

/-- A line's accepted transition (R37, R43, R44). -/
def EncLine.accept (l : EncLine) (now : Nat) : EncLine :=
  let l := l.seen now
  { l with
    level := l.smp, rejects := 0, lastAcc := now, accs := (now :: l.accs).take 4, stuckSeen := false,
    levelSeen := if l.smp then l.levelSeen else false }

/-- A rejected pulse: counted, and the fourth in succession and every further one is an over-rate
condition (R37, R44). -/
def State.reject (s : State) (n : Nat) (rejects : Nat) : State :=
  let s := s.bump (F.WTU_ENC_GLITCH_COUNT n)
  if 4 ≤ rejects then s.overRate n else s

def Decoder.line (d : Decoder) : EncInput → EncLine
  | .a => d.a
  | .b => d.b
  | .z => d.z

def Decoder.setLine (d : Decoder) (i : EncInput) (l : EncLine) : Decoder :=
  match i with
  | .a => { d with a := l }
  | .b => { d with b := l }
  | .z => { d with z := l }

/-! ### Repeaters (R55) -/

/-- The levels that repeater `r` drives on REP_A, REP_B and REP_Z. -/
def State.repeaterOut (s : State) (r : Nat) : Bool × Bool × Bool :=
  if s.on (F.WTU_REP_CFG_EN r) then
    let d := s.dec (s.get (F.WTU_REP_CFG_SRC r))
    let lv := fun l : EncLine => if s.on (F.WTU_REP_CFG_MODE r) then l.level else l.raw
    if s.on (F.WTU_REP_CFG_SWAP_AB r) then (lv d.b, lv d.a, lv d.z) else (lv d.a, lv d.b, lv d.z)
  else (false, false, false)

/-- A repeater shows the levels that it drives. -/
def State.driveRepeater (s : State) (r : Nat) : State :=
  let o := s.repeaterOut r
  s.emit (.repeater r o.1 o.2.1 o.2.2)

/-- The repeaters whose levels have changed since `old` drive the new ones. -/
def State.driveRepeaters (s old : State) : State :=
  ((List.range 4).filter fun r => decide (old.repeaterOut r ≠ s.repeaterOut r)).foldl State.driveRepeater s

/-! ### Input edges -/

/-- An input edge (R37): the line's raw level changes, and the edge is stamped; a repeater in raw mode passes it on (R55). -/
def State.inputEdge (s : State) (n : Nat) (line : EncInput) : State :=
  let d := s.dec n
  let l := (d.line line).seen s.now
  (s.setDec n (d.setLine line { l with raw := !l.raw, rawSince := s.now })).driveRepeaters s

/-! ### The passing of Tempo -/

/-- A pulse on a line ends at the present TMP edge before it was accepted: it is rejected and counted (R37). Rejections of Z take
no part in R44, which speaks of the decoder's counting lines. -/
def State.rejectPulse (s : State) (n : Nat) (line : EncInput) : State :=
  let d := s.dec n
  let l := (d.line line).seen s.now
  let l := { l with rejects := l.rejects + 1 }
  let s := s.setDec n (d.setLine line l)
  if line == .z then s.bump (F.WTU_ENC_GLITCH_COUNT n) else s.reject n l.rejects

/-- The lines with a pulse to reject, each with the TMP edge at which it is. -/
def State.pulses (s : State) : List (Nat × Nat × EncInput) :=
  s.wtu.dec.flatMap fun p => [EncInput.a, .b, .z].filterMap fun i => ((p.2.line i).rejectAt).map fun t => (t, p.1, i)

/-- Tempo moves on to `target`; the pulses that end on the way are rejected in the order of their TMP edges (R37). -/
def State.passTo : Nat → State → Nat → State
  | 0, s, target => s.pass (target - s.now)
  | fuel + 1, s, target =>
    match (sortBy (fun x y => decide (x.1 ≤ y.1)) s.pulses).head? with
    | some (t, n, i) => if t ≤ target then ((s.pass (t - s.now)).rejectPulse n i).passTo fuel target else s.pass (target - s.now)
    | none => s.pass (target - s.now)

/-- Tempo moves on by `dt` units (R35). Four decoders have twelve lines, each with at most one pulse to reject. -/
def State.wait (s : State) (dt : Nat) : State := if s.pulses = [] then s.pass dt else s.passTo 12 (s.now + dt)

end Sys2Proof.Machine
end

