-- ==== Sys2Proof/Machine/Access.lean ====
section
/-! DEFINITION. Who may reach which register (R21–R24, R519, R541), the 64-bit access protocol (R6), and
the common form of a command that is a register access. -/

namespace Sys2Proof.Machine

/-- A requester as a number, for the tables kept per requester (R7). -/
def reqCode : Requester → Nat
  | .pf f => f.val
  | .secDom => 8
  | .fab => 9
  | .uart => 10
  | .eng e => 16 + e.val
  | .dma c => 256 + c.val

/-- Whether engine `e` runs in the secure management domain (R510): its cluster is set in SEC_DOMAIN. -/
def State.secureEngine (s : State) (e : Nat) : Bool := bit (s.get F.SEC_DOMAIN_CLUSTERS) (e / 16)

/-- The owner of DMA channel `c` (R364): 0 to 5 a function, 6 the secure management domain; 7 acts as 0. -/
def State.dmaOwner (s : State) (c : Nat) : Nat :=
  let o := s.get (F.DMA_CH_OWN_OWNER c)
  if o = 7 then 0 else o

/-- Whether a requester is the secure management domain: code of its engines, the boot ROM, or a DMA
channel that the domain owns (R23, R364, R510). -/
def State.isSecure (s : State) : Requester → Bool
  | .secDom => true
  | .eng e => s.secureEngine e.val
  | .dma c => s.dmaOwner c.val == 6
  | _ => false

/-- The rights mask as cluster `c` keeps it (R326): a write reaches the cluster's copy within 30 ns. -/
def State.maskCopy (s : State) (c : Nat) : Nat :=
  match s.hif.masks.find? fun p => p.1 == c with
  | some (_, t, old) => if s.now < t then old else s.get (F.HIF_CLRIGHTS c)
  | none => s.get (F.HIF_CLRIGHTS c)

/-- The functions whose rights a requester holds, bit f for PFf (R21, R23, R304, R365, R541). -/
def State.rights (s : State) : Requester → Nat
  | .pf f => 2 ^ f.val
  | .secDom => 1
  | .eng e => if s.secureEngine e.val then 1 else s.maskCopy (e.val / 16)
  | .dma c => if s.dmaOwner c.val = 6 then 1 else 2 ^ s.dmaOwner c.val
  | .fab => s.fab.rights.toNat
  | .uart => 1

/-- The owner of a range of BAR0 that has one (R24). -/
def rangeOwner (off : Nat) : Option Nat :=
  if off < 0x00200000 then some 0
  else if off < 0x00380000 then some 1
  else if off < 0x00400000 then none
  else if off < 0x00500000 then some 2
  else if off < 0x00608000 then some 1
  else if off < 0x00610000 then some 2
  else if off < 0x00700000 then none
  else if off < 0x00710000 then some 2
  else if off < 0x00800000 then none
  else if off < 0x00A00000 then some 2
  else if off < 0x00B00000 then some 1
  else if off < 0x00C00000 then some 3
  else if off < 0x00E00000 then some 0
  else if off < 0x01000000 then some 0
  else if off < 0x01400000 then some 1
  else if off < 0x01480000 then some 0
  else if off < 0x01500000 then some 4
  else if off < 0x01700000 then some 0
  else if off < 0x01800000 then some 5
  else none

/-- Whether a channel's entry counts as owned by function `f`: its OWNER field names it (R22, R350). -/
def ownedBy (owner f : Nat) : Bool := owner == f || f == 0

/-- Whether function `f` has access of its own to the EVF register at `off` (R22, R350, R358, R363). The active copy and the status of
a channel are open to the OWNER of the active entry, where R22 says only the channel's owner (DESIGN CHOICE, assumption 90). -/
def State.ownsEvf (s : State) (f off : Nat) : Bool :=
  if off < 0x00C0000C || (0x00C00400 ≤ off && off < 0x00C00500) then true
  else if off < 0x00C01000 then f == 0
  else if off < 0x00C05000 then ownedBy (s.get (F.EVF_CH_CFG_OWNER ((off - 0x00C01000) / 0x20))) f
  else if off < 0x00C09000 then ownedBy (s.get (F.EVF_CH_ACT_CFG_OWNER ((off - 0x00C05000) / 0x20))) f
  else if off < 0x00C0B000 then ownedBy (s.get (F.EVF_CH_ACT_CFG_OWNER ((off - 0x00C09000) / 0x10))) f
  else if off < 0x00C0B200 then ownedBy (s.get (F.EVF_TMR_CFG_OWNER ((off - 0x00C0B000) / 0x10))) f
  else if 0x00C10000 ≤ off && off < 0x00C12000 then
    let t := (off - 0x00C10000) / 4
    f == 0 || (t < 1536 && f == 3) || (1856 ≤ t && (t - 1856) / 32 == f)
  else f == 0

/-- Whether function `f` has access of its own to the DMA register at `off` (R22, R364). -/
def State.ownsDma (s : State) (f off : Nat) : Bool :=
  if 0x00D01000 ≤ off && off < 0x00D02000 then ownedBy (s.dmaOwner ((off - 0x00D01000) / 0x80)) f
  else f == 0

/-- Whether function `f` owns the register at `off` (R21, R22, R24, R454, R495). -/
def State.owns (s : State) (f off : Nat) : Bool :=
  if 0x00C00000 ≤ off && off < 0x00D00000 then s.ownsEvf f off
  else if 0x00D00000 ≤ off && off < 0x00E00000 then s.ownsDma f off
  else if 0x01440000 ≤ off && off < 0x01446000 then f == 0 || (off - 0x01440000) / 0x1000 == f
  else if 0x01400200 ≤ off && off < 0x014002C0 && off % 0x20 < 8 then f == 0 || (off - 0x01400200) / 0x20 == f
  else rangeOwner off == some f

/-- Whether an EVF channel's entry is closed to all but the secure management domain: SECURE is 1 in
either set (R350). -/
def State.evfSecure (s : State) (n : Nat) : Bool :=
  s.on (F.EVF_CH_CFG_SECURE n) || s.on (F.EVF_CH_ACT_CFG_SECURE n)

/-- The EVF channel whose pending entry, active copy or status the offset belongs to. -/
def evfChannelOf (off : Nat) : Option Nat :=
  if 0x00C01000 ≤ off && off < 0x00C05000 then some ((off - 0x00C01000) / 0x20)
  else if 0x00C05000 ≤ off && off < 0x00C09000 then some ((off - 0x00C05000) / 0x20)
  else if 0x00C09000 ≤ off && off < 0x00C0B000 then some ((off - 0x00C09000) / 0x10)
  else none

/-- PF0 itself, or the management UART, which holds its rights (R541). -/
def actsAsPf0 : Requester → Bool
  | .pf f => f.val == 0
  | .uart => true
  | _ => false

/-- Whether a requester holds the rights of PF0, in the sense of R358: PF0, the secure management domain, the management UART, and the
FAB when the image rights include PF0. A cluster whose mask includes PF0 and a DMA channel that PF0 owns are not among those R358
names; the same requesters are taken to be those that R364 lets write OWNER (DEDUCED, assumption 112). -/
def State.holdsPf0 (s : State) (who : Requester) : Bool :=
  s.isSecure who || actsAsPf0 who || (who == .fab && bit (s.rights who) 0)

/-- Whether the registers of the domain of R519, R457, R364 or R350 close the offset to a requester whose
function rights would allow the access. -/
def State.closedTo (s : State) (who : Requester) (off : Nat) (write : Bool) : Bool :=
  let pmu := 0x01500000 ≤ off && off < 0x01600000
  let masks := off == 0x01400040 || (0x01400100 ≤ off && off < 0x01400130)
  let evf := match evfChannelOf off with
    | some n => s.evfSecure n && !s.isSecure who && (write || bit (s.rights who) 0 == false)
    | none => false
  let plainEngine := match who with
    | .eng e => !s.secureEngine e.val
    | _ => false
  let owner := 0x00D00100 ≤ off && off < 0x00D00180
  (pmu && plainEngine) || (masks && write && !(s.isSecure who || actsAsPf0 who)) || (owner && write && !s.holdsPf0 who) || evf

/-- Whether R512 opens a control register of an engine to a requester beside PF3: the control words of all engines, and the
registers of a secure engine. -/
def State.engGrant (s : State) (who : Requester) (off : Nat) : Bool :=
  (s.isSecure who || (actsAsPf0 who && !s.on F.SEC_FUSE_SECURE_BOOT))
    && ((0x00B00040 ≤ off && off < 0x00B00098)
      || (0x00B01000 ≤ off && off < 0x00B04000 && s.secureEngine ((off - 0x00B01000) / 0x40)))

/-- Whether the rights of a requester cover the register at `off` (R21): one of the functions whose rights it holds owns it,
it reads with the rights of PF0, or a grant names it. An offset in no assigned range has no owner and is open (R10). -/
def State.granted (s : State) (who : Requester) (off : Nat) (write : Bool) : Bool :=
  if rangeOwner off == none then true
  else
    let m := s.rights who
    (List.range 6).any (fun f => bit m f && s.owns f off)
      || (!write && bit m 0)
      || s.engGrant who off
      || (s.isSecure who && 0x00D01000 ≤ off && off < 0x00D02000 && s.dmaOwner ((off - 0x00D01000) / 0x80) == 6)

/-- Whether a requester may read or write the register at `off` (R21, R350, R457, R519). The UART is held to the SEC range
while secure boot is on (R541). -/
def State.allowed (s : State) (who : Requester) (off : Nat) (write : Bool) : Bool :=
  if who == .uart && s.on F.SEC_FUSE_SECURE_BOOT then
    if write then 0x1000 ≤ off && off ≤ 0x1100 else off < 0x00100000
  else !s.closedTo who off write && s.granted who off write

/-- A refused access is counted and logged by the HIF with the requesting function and the offset (R21,
R494, R495). A requester that is no function stands in the entry by its number of `reqCode` (DESIGN CHOICE, assumption 89). -/
def State.refuse (s : State) (who : Requester) (off : Nat) : State :=
  (s.bump F.HIF_REFUSED).logErr siteHif 0x05 0x050 [reqCode who, off]

/-- Whether the unit that holds the register failed its built-in check and is held in reset: its
registers then read 0 and discard writes (R542 and the text before it). -/
def State.unitHeld (s : State) (off : Nat) : Bool :=
  let b := off / 0x100000
  let id := match b with
    | 1 => 2 | 2 => 3 | 3 => 4 | 4 => 4 | 5 => 5 | 6 => 6 | 7 => 7 | 8 => 8 | 9 => 9 | 10 => 10
    | 11 => 11 | 12 => 12 | 13 => 13 | 14 => 14 | 15 => 15 | 16 => 4 | 20 => 20 | 21 => 17 | 22 => 18
    | 23 => 19 | _ => 0
  s.boot.failedUnits.getLsbD (if b = 20 && 0x01480000 ≤ off then 16 else id)

/-- Whether a reset holds the device (R518, R532): commands then only let time pass. -/
def State.held (s : State) : Bool := s.boot.step == 0

/-- Whether a function is in a Function Level Reset. -/
def State.inFlr (s : State) (f : Nat) : Bool := s.hif.flr.getLsbD f

/-- Whether a requester is a function in its Function Level Reset: the HIF then answers its requests as the PCIe base
specification requires (R458), and none of them acts. -/
def State.inReset (s : State) : Requester → Bool
  | .pf f => s.inFlr f.val
  | _ => false

/-- A command that is a register write: Tempo moves on; an access that the rights refuse is logged and
discarded; a write to a unit held in reset is discarded; otherwise the write's effect happens. -/
def regCmd (dt : Nat) (who : Requester) (off : Nat) (effect : State → State) (s : State) : Res :=
  let s := s.wait dt
  if s.held || s.inReset who then .next s
  else if s.allowed who off true then
    if s.unitHeld off then .next s else .next (effect s)
  else .next (s.refuse who off)

/-- A command that is a register read: as a write, and a refused read returns 0 (R21). -/
def readCmd (dt : Nat) (who : Requester) (off : Nat) (effect : State → State) (s : State) : Res :=
  let s := s.wait dt
  if s.held then .next s
  else if s.inReset who then .next (s.emit (.unsupported who off))
  else if s.allowed who off false then
    if s.unitHeld off then .next (s.emit (.readData who off 0)) else .next (effect s)
  else .next ((s.refuse who off).emit (.readData who off 0))

/-- A command that is an event of the device itself: Tempo moves on, and where the manual's condition
for the event holds it happens; otherwise nothing else does (assumption 7). -/
def evCmd (dt : Nat) (guard : State → Bool) (effect : State → State) (s : State) : Res :=
  let s := s.wait dt
  if guard s && !s.held then .next (effect s) else .next s

/-! ### The splice lock (R309) -/

/-- Whether the FAB's lock holds the state of station `i` (R309). -/
def State.stationLocked (s : State) (i : Nat) : Bool := s.on F.FAB_STAT_LOCKED && s.fab.todo.contains i

/-- A write to locked state is discarded and logged by the FAB (R309). -/
def State.lockedWrite (s : State) (i off : Nat) : State := s.logErr siteFab 0x01 0x002 [i, off]

/-! ### 64-bit registers (R6) -/

/-- A cell never written holds an undefined value. -/
def tsDefault (i : Nat) : Cell := { bits := Config.undefWord (2 ^ 40 + i) }

def State.tsCell (s : State) (i : Nat) : Cell := Sparse.get tsDefault s.ts i

/-- The index of a requester's latch or pending low word of the register at `off`: one for each requester and register, where R6 and
R7 say only that they are kept for each requester (DESIGN CHOICE, assumption 88). -/
def latchKey (who : Requester) (off : Nat) : Nat := 2 ^ 26 * reqCode who + off

/-- The pending low word of a requester for the register at `off`. -/
def State.pendingLow (s : State) (who : Requester) (off : Nat) : Option Word :=
  Sparse.get (fun _ => none) s.pendLow (latchKey who off)

/-- A low-word write: it becomes the requester's pending low word, replacing an earlier one. -/
def State.putLow (s : State) (who : Requester) (off : Nat) (lo : Option Word) : State :=
  { s with pendLow := Sparse.set (fun _ => none) s.pendLow (latchKey who off) lo }

/-- The low word that a register holds at this moment: of RP_TS_DATA, that of the threshold cell ADDR names (R6, R108). -/
def State.currentLow (s : State) (off : Nat) : Nat :=
  if off = O.RP_TS_DATA then (s.tsCell (s.get F.RP_TS_ADDR)).bits.toNat % 2 ^ 32 else s.word off

/-- The 64-bit value a high-word write makes: the pending low word, or else the register's current one. -/
def State.joined (s : State) (who : Requester) (off : Nat) (hi : Word) : Nat :=
  let lo := match s.pendingLow who off with
    | some w => w.toNat
    | none => s.currentLow off
  2 ^ 32 * hi.toNat + lo

/-- A high-word write consumes the requester's pending low word. -/
def State.consumeLow (s : State) (who : Requester) (off : Nat) : State := s.putLow who off none

/-- The high word latched by a requester's last low-word read, 0 before the first. -/
def State.latched (s : State) (who : Requester) (off : Nat) : Word :=
  Sparse.get (fun _ => 0) s.latch (latchKey who off)

/-- A low-word read latches the high word for its requester. -/
def State.latchHigh (s : State) (who : Requester) (off : Nat) (hi : Nat) : State :=
  { s with latch := Sparse.set (fun _ => 0) s.latch (latchKey who off) (BitVec.ofNat 32 hi) }

end Sys2Proof.Machine
end

