-- ==== Sys2Proof/Machine/Mem.lean ====
section
/-! DEFINITION. Device memory (15): the address map, inline ECC, and the one read and the one write that
every block's accesses go through. -/

namespace Sys2Proof.Machine

/-- CH_LOG2 as it acts: 1 to 4 (R406). -/
def State.chLog2 (s : State) : Nat :=
  let m := s.get F.MEM_CHMAP_CH_LOG2
  if m = 0 then 1 else min m 4

/-- DEVMEM_TOP of a variant of the given capacity in GiB with ECC off (R391). -/
def State.topOf (s : State) (gib : Nat) : Nat :=
  let all := 2 ^ 30 * gib
  let usable := if s.on F.MEM_CTRL_ECC_EN then all / 16 * 15 else all
  usable * 2 ^ s.chLog2 / 16

/-- DEVMEM_TOP (R391). -/
def State.devmemTop (s : State) : Nat := if Config.is128C then s.topOf 128 else s.topOf 64

/-- Whether a device address lies below DEVMEM_TOP. -/
def State.belowTop (s : State) (d : Nat) : Bool :=
  decide (d < s.topOf 64) || (Config.is128C && decide (d < s.topOf 128))

/-- The physical channel of a device address (R392). -/
def State.channelOf (s : State) (d : Nat) : Nat :=
  let g := d / 256
  let j := (g ^^^ (g / 16) ^^^ (g / 256) ^^^ (g / 4096)) % 2 ^ s.chLog2
  s.get F.MEM_CHMAP_LIST / 2 ^ (4 * j) % 16

/-- The channel-local data offset of a device address (R392). -/
def State.localOf (s : State) (d : Nat) : Nat := d / 256 / 2 ^ s.chLog2 * 256 + d % 256

/-- The physical channel address of a device address (R393). -/
def State.physOf (s : State) (d : Nat) : Nat :=
  let l := s.localOf d
  if s.on F.MEM_CTRL_ECC_EN then
    let q := l / 64
    (q / 15 * 16 + q % 15) * 64 + l % 64
  else l

/-- The bank, with its rank as bit 4, of a physical channel address (R394); below 2^31 the two variants agree. -/
def bankOf (p : Nat) : Nat :=
  let rank := if p < 2 ^ 31 then 0 else if Config.is128C then p / 2 ^ 32 % 2 else p / 2 ^ 31 % 2
  ((p / 2 ^ 11 % 16) ^^^ (p / 2 ^ 15 % 16)) + 16 * rank

/-- The row of a physical channel address (R394). -/
def rowOf (p : Nat) : Nat := if p < 2 ^ 31 then p / 2 ^ 15 else if Config.is128C then p / 2 ^ 15 % 2 ^ 17 else p / 2 ^ 15 % 2 ^ 16

def State.chan (s : State) (n : Nat) : MemChan := Sparse.get (fun _ => {}) s.mem.chan n

def State.setChan (s : State) (n : Nat) (c : MemChan) : State :=
  { s with mem := { s.mem with chan := Sparse.set (fun _ => {}) s.mem.chan n c } }

/-- What an unlisted byte reads as: zero once memory has been zeroed (R578), and undefined with ECC off or
in a channel trained from FENCED since. -/
def State.byteDefault (s : State) (d : Nat) : Byte :=
  let g := (s.chan (s.channelOf d)).gen
  if s.mem.zeroed && g == 0 then 0
  else BitVec.ofNat 8 (Config.undefWord (2 ^ 64 * (2 ^ 32 * s.mem.resets + g) + 2 ^ 42 + d)).toNat

/-- What an unlisted block's flaw is. -/
def State.flawDefault (s : State) (b : Nat) : Flaw :=
  if s.mem.zeroed && (s.chan (s.channelOf (64 * b))).gen == 0 then .good else .unknown

/-- One byte of device memory, as stored. -/
def State.byteAt (s : State) (d : Nat) : Byte := Sparse.get s.byteDefault s.mem.bytes d

/-- The flaw of the block that holds a device address. -/
def State.flawAt (s : State) (b : Nat) : Flaw := Sparse.get s.flawDefault s.mem.flaws b

def State.setFlaw (s : State) (b : Nat) (f : Flaw) : State :=
  { s with mem := { s.mem with flaws := Sparse.set s.flawDefault s.mem.flaws b f } }

/-- One byte stored. -/
def State.setByte (s : State) (d : Nat) (v : Byte) : State :=
  { s with mem := { s.mem with bytes := Sparse.set s.byteDefault s.mem.bytes d v } }

/-- Bytes stored from an address upward. -/
def State.setBytes (s : State) (d : Nat) : List Byte → State
  | [] => s
  | v :: vs => (s.setByte d v).setBytes (d + 1) vs

/-- The number little-endian bytes make (R4). -/
def ofBytes : List Byte → Nat
  | [] => 0
  | b :: bs => b.toNat + 256 * ofBytes bs

/-- An access that a fenced or unopened channel turns away: counted, and the first one after each entry to
FENCED logged (R399, R405). -/
def State.turnAway (s : State) (d : Nat) : State :=
  let n := s.channelOf d
  let s := s.bump (F.MC_FENCED_ACC n)
  let c := s.chan n
  if s.on F.MEM_CTRL_OPEN && !c.fencedLogged then
    (s.setChan n { c with fencedLogged := true }).logErr (siteMem n) 0x06 0x030
  else s

/-- Whether the memory serves an address: open, and its channel carries traffic (R399, R405, R407). -/
def State.serves (s : State) (d : Nat) : Bool :=
  let st := s.get (F.MC_STAT_STATE (s.channelOf d))
  s.on F.MEM_CTRL_OPEN && (st == 2 || st == 3)

/-- The MEM cycle that runs now. -/
def State.memCycle (s : State) : Nat := Domain.mem.cycleOf s.now

/-- A request that channel `n` receives wakes it from self-refresh and restarts its idle time (R402); an entry of the same MEM cycle has not
happened (R416). -/
def State.wakeChannel (s : State) (n : Nat) : State :=
  let c := s.chan n
  let s := if c.srAt == some s.memCycle && s.on (F.MC_STAT_SR n) then s.put (F.MC_SR_ENTRIES n) (s.get (F.MC_SR_ENTRIES n) - 1) else s
  (s.put (F.MC_STAT_SR n) 0).setChan n { c with lastReq := s.now }

/-! ### Rows and activates (R400–R403) -/

def MemChan.bank (c : MemChan) (b : Nat) : Bank := Sparse.get (fun _ => {}) c.banks b

def MemChan.setBank (c : MemChan) (b : Nat) (v : Bank) : MemChan :=
  { c with banks := Sparse.set (fun _ => {}) c.banks b v }

/-- The first entry with the smallest count of an activate table, as its place and count. -/
def leastEntry (l : List Activate) : Nat × Nat :=
  let m := (l.map (·.count)).min?.getD 0
  (l.findIdx fun a => a.count == m, m)

/-- An activate is counted (R403): true where the count reaches the threshold and the neighbours are refreshed. -/
def countActivate (thresh bank row : Nat) (l : List Activate) : Bool × List Activate :=
  let counts := l.map (·.count)
  let new : Activate := { bank := bank, row := row, count := 0 }
  let r : Nat × Nat × List Activate :=
    match l.findIdx? fun a => a.bank == bank && a.row == row with
    | some i => (i, counts.getD i 0 + 1, l)
    | none =>
      if l.length < 512 then (l.length, 1, l ++ [new])
      else ((leastEntry l).1, (leastEntry l).2 + 1, l)
  let full := decide (thresh ≤ r.2.1)
  (full, r.2.2.set r.1 { new with count := if full then 0 else r.2.1 })

/-- The activate table after an activate, and whether the neighbours are refreshed (R403). In the MEM cycle in which a refresh window ends,
the count that the window's table would have reached decides (R416). -/
def State.activated (s : State) (n b row : Nat) : Bool × List Activate :=
  let c := s.chan n
  let thresh := max 1 (s.get F.MEM_RD_THRESH)
  let r := countActivate thresh b row c.acts
  match c.oldActs with
  | some (t, old) => (r.1 || (t == s.memCycle && (countActivate thresh b row old).1), r.2)
  | none => r

/-- The predictor after an access (R400). -/
def Bank.predict (b : Bank) (row : Nat) : Nat :=
  match b.last with
  | some r => if r = row then min 3 (b.pred + 1) else b.pred - 1
  | none => b.pred

/-- What the counters of a channel show of an access: a row hit or miss, a neighbour refresh, and the hit cap. -/
def State.rowCounts (s : State) (n : Nat) (hit full capped : Bool) : State :=
  let s := s.bump (if hit then F.MC_ROW_HITS n else F.MC_ROW_MISSES n)
  let s := if full then s.bump (F.MC_RD_REFRESHES n) else s
  if capped then s.bump (F.MC_CAP_EVENTS n) else s

/-- An access to row `row` of bank `b` of a channel (R400–R403): a hit on the open row or an activate, the predictor,
whether the row stays open, and the hit cap. True where it hits. -/
def State.access (s : State) (n b row : Nat) (q : RowQueue) : Bool × State :=
  let c := s.chan n
  let k := c.bank b
  let hit := k.openRow == some row
  let r := if hit || !s.on F.MEM_RD_EN then (false, c.acts) else s.activated n b row
  let hits := if hit then k.hits + 1 else 0
  let capped := hit && max 1 (s.get F.MEM_PAGE_HIT_CAP) ≤ hits && q.olderOther
  let pred := k.predict row
  let stays := 2 ≤ pred || q.sameRow
  (hit, (s.rowCounts n hit r.1 capped).setChan n ({ c with acts := r.2 }.setBank b {
    pred := pred, last := some row, openRow := if stays then some row else none, usedAt := s.now,
    hits := if capped || !stays then 0 else hits }))

/-- What else waits in the channel's queue at an access: as the command says, and free for an access that no command describes. -/
def State.rowQueue (s : State) (q : Option RowQueue) : RowQueue × State :=
  match q with
  | some q => (q, s)
  | none =>
    let (v, s) := s.draw
    (⟨bit v.toNat 0, bit v.toNat 1⟩, s)

/-- A read (`kind` 0) or a write (1) of a block of device memory at `d`: it wakes the channel and accesses the row, and the PMU counts it
(R520). -/
def State.memAccess (s : State) (d kind : Nat) (q : Option RowQueue := none) : State :=
  let n := s.channelOf d
  let p := s.physOf d
  let r := s.rowQueue q
  let a := ((r.2.wakeChannel n).tally 0x0E n kind).access n (bankOf p) (rowOf p) r.1
  a.2.tally 0x0E n (if a.1 then 2 else 3)

/-- What a free value makes of a block of undefined content (R578): any flaw that its stored bits can show (R396). -/
def flawOf (v : DWord) : Flaw :=
  match v.toNat % 7 with
  | 0 => .good
  | 1 => .oneLow
  | 2 => .oneHigh
  | 3 => .oneBoth
  | 4 => .bad
  | 5 => .tag
  | _ => .poison

/-- The flaw that an access finds in block `b`. Undefined content has one that is free, and shows the same at every access from
then on (R396, R578). -/
def State.findFlaw (s : State) (b : Nat) : Flaw × State :=
  match s.flawAt b with
  | .unknown =>
    let (v, s) := s.draw
    (flawOf v, s.setFlaw b (flawOf v))
  | f => (f, s)

/-- The ECC check of one 64-byte block on a read (R396, R398): true where the read completes with data. -/
def State.readBlock (s : State) (b : Nat) (q : Option RowQueue := none) : Bool × State :=
  let d := 64 * b
  let n := s.channelOf d
  if !s.belowTop d then (false, s)
  else if !s.serves d then (false, s.turnAway d)
  else if !s.on F.MEM_CTRL_ECC_EN then (true, s.memAccess d 0 q)
  else
    let (f, s) := (s.memAccess d 0 q).findFlaw b
    let fail := fun (s : State) (cause : Nat) =>
      ((s.bump (F.MC_ECC_UNCORR n)).put (F.MC_LAST_UNCORR n) d).logErr (siteMem n) 0x02 cause
        [d % 2 ^ 32, d / 2 ^ 32]
    match f with
    | .good | .unknown => (true, s)
    | .oneLow => (true, s.bump (F.MC_ECC_CORR n))
    | .oneHigh => (true, s.bump (F.MC_ECC_CORR n))
    | .oneBoth => (true, s.bump (F.MC_ECC_CORR n) 2)
    | .bad => (false, fail s 0x010)
    | .tag => (false, fail s 0x011)
    | .poison => (false, (s.bump (F.MC_ECC_UNCORR n)).put (F.MC_LAST_UNCORR n) d)

/-- The blocks an access of `n` bytes at `d` touches. -/
def blocksOf (d n : Nat) : List Nat :=
  if n = 0 then [] else (List.range ((d + n - 1) / 64 - d / 64 + 1)).map (d / 64 + ·)

/-- A read of `n` bytes by a port (R396), the caches as they stand: none where any block completes as poison. -/
def State.memGet (s : State) (port d n : Nat) (q : Option RowQueue := none) : Option (List Byte) × State :=
  let s := s.countBytes (2 * port) n
  let (ok, s) := (blocksOf d n).foldl (fun (a : Bool × State) b =>
    let (ok, s) := a.2.readBlock b q
    (a.1 && ok, s)) (true, s)
  (if ok then some ((List.range n).map fun i => s.byteAt (d + i)) else none, s)

/-- A read of `n` bytes block by block up to the first block that completes as poison: the bytes before it; the caches as they stand. -/
def State.memGetTo (s : State) (port d n : Nat) : List Byte × State :=
  let s := s.countBytes (2 * port) n
  let (good, _, s) := (blocksOf d n).foldl (fun (a : Nat × Bool × State) b =>
    if a.2.1 then
      let (ok, s) := a.2.2.readBlock b
      (if ok then a.1 + 1 else a.1, ok, s)
    else a) (0, true, s)
  ((List.range (min n (64 * (d / 64 + good) - d))).map fun i => s.byteAt (d + i), s)

/-- The bytes stored at an address, without a read's side effects. -/
def State.peek (s : State) (d n : Nat) : List Byte := (List.range n).map fun i => s.byteAt (d + i)

/-- The number stored at an address, without a read's side effects. -/
def State.peekNat (s : State) (d n : Nat) : Nat := ofBytes (s.peek d n)

/-- A read-modify-write whose read is uncorrectable stores POISON = 1 and logs cause 0x012 (R397). -/
def State.poisonWrite (s : State) (d : Nat) : State :=
  (s.setFlaw (d / 64) .poison).logErr (siteMem (s.channelOf d)) 0x02 0x012 [d % 2 ^ 32, d / 2 ^ 32]

/-- What a write leaves of a block's flaw (R397): all 64 bytes renew the check bits and clear POISON; fewer are a
read-modify-write, and one that reads uncorrectable stores POISON = 1 and logs cause 0x012. A write that the requester marks as poison sets POISON. -/
def State.checkWrite (s : State) (d : Nat) (full poison : Bool) : State :=
  if !s.on F.MEM_CTRL_ECC_EN then s
  else if poison then s.setFlaw (d / 64) .poison
  else if full then s.setFlaw (d / 64) .good
  else
    let (f, s) := s.findFlaw (d / 64)
    match f with
    | .bad | .tag | .poison => s.poisonWrite d
    | _ => s.setFlaw (d / 64) .good

/-- Bytes of one block written (R397, R579). -/
def State.writeBlock (s : State) (d : Nat) (vs : List Byte) (poison : Bool) : Bool × State :=
  if !s.belowTop d then (false, s)
  else if !s.serves d then (false, s.turnAway d)
  else
    let s := s.memAccess d 1
    (true, (s.setBytes d vs).checkWrite d (decide (vs.length = 64)) poison)

/-- A write of bytes, block by block (R397, R579): false where any block returns a write error. -/
def State.memWriteAux (s : State) (d : Nat) (vs : List Byte) (poison : Bool) : Nat → Bool × State
  | 0 => (true, s)
  | fuel + 1 =>
    if vs = [] then (true, s)
    else
      let k := min vs.length (64 - d % 64)
      let (ok, s) := s.writeBlock d (vs.take k) poison
      let (ok', s) := s.memWriteAux (d + k) (vs.drop k) poison fuel
      (ok && ok', s)

def State.memPut (s : State) (port d : Nat) (vs : List Byte) (poison : Bool := false) : Bool × State :=
  (s.countBytes (2 * port + 1) vs.length).memWriteAux d vs poison (vs.length + 1)

/-- Bytes of a block stored under byte enables. -/
def State.setEnabled (s : State) (d : Nat) : List (Option Byte) → State
  | [] => s
  | some v :: l => (s.setByte d v).setEnabled (d + 1) l
  | none :: l => s.setEnabled (d + 1) l

/-- A write request for one block (R397, R579). -/
def State.writeEnabled (s : State) (port d : Nat) (data : List (Option Byte)) (poison : Bool) (q : Option RowQueue := none) :
    Bool × State :=
  let data := data.take 64
  if !s.belowTop d then (false, s)
  else if !s.serves d then (false, s.turnAway d)
  else
    let full := data.length == 64 && data.all (·.isSome)
    let s := (s.countBytes (2 * port + 1) (data.filter (·.isSome)).length).memAccess d 1 q
    (true, (s.setEnabled d data).checkWrite d full poison)

/-! ### The data caches of the Cregar engines (R328)

An engine's cache can evict any line at any time, and a write-back that has been started lands at some time. Nothing but an access of
device memory can tell when, so each access first settles, for the blocks it touches, what has landed by then. -/

def State.engine (s : State) (e : Nat) : Engine := Sparse.get (fun _ => {}) s.eng e
def State.setEngine (s : State) (e : Nat) (g : Engine) : State := { s with eng := Sparse.set (fun _ => {}) s.eng e g }

/-- The memory-fabric port of an engine's cluster (R408). -/
def engPort (e : Nat) : Nat := 16 + e / 16

def State.dline (s : State) (e b : Nat) : Option DLine :=
  ((s.engine e).dc.find? fun p => p.1 == b).map (·.2)

def State.putLine (s : State) (e b : Nat) (l : DLine) : State :=
  let g := s.engine e
  s.setEngine e { g with dc := (b, l) :: g.dc.filter fun p => p.1 != b }

def State.dropLine (s : State) (e b : Nat) : State :=
  let g := s.engine e
  s.setEngine e { g with dc := g.dc.filter fun p => p.1 != b }

/-- The dirty bytes of a line, under their enables. -/
def DLine.dirtyBytes (l : DLine) : List (Option Byte) :=
  (List.range 64).map fun i => if l.dirty.getLsbD i then some (l.bytes.getD i 0) else none

/-- A write-back lands in device memory: the dirty bytes of the line, as poison where the line was uncorrectable. -/
def State.landLine (s : State) (e b : Nat) (l : DLine) : State :=
  let s := (s.writeEnabled (engPort e) (64 * b) l.dirtyBytes (l.mark == .uncorrectable)).2
  s.tally 0x0B e 8

/-- The write-backs started that satisfy `which` land, oldest first. -/
def State.landAll (s : State) (e : Nat) (which : Nat → Bool) : State :=
  let wb := (s.engine e).wb
  let s := s.setEngine e { s.engine e with wb := wb.filter fun p => !which p.1 }
  (wb.filter fun p => which p.1).foldl (fun (s : State) p => s.landLine e p.1 p.2) s

/-- A write-back of a line is started: nothing is written for a line with no dirty byte. -/
def State.startBack (s : State) (e b : Nat) (l : DLine) : State :=
  if l.dirty = 0 then s
  else s.setEngine e { s.engine e with wb := (s.engine e).wb ++ [(b, l)] }

/-- Whether a line's dirty bytes are lost (R332). -/
def DLine.lost (l : DLine) : Bool := l.mark == .uncorrectable && l.dirty != 0

/-- What has become of block `b` in engine `e`'s cache by now is free: its started write-backs may have landed, oldest first, and its
line may have been evicted and may have landed too. A line whose dirty bytes are lost leaves only at an instruction of its engine,
which faults then (R332). -/
def State.settleLine (s : State) (e b : Nat) : State :=
  let (v, s) := s.draw
  let s := if bit v.toNat 0 then s.landAll e (· == b) else s
  match s.dline e b with
  | some l =>
    if bit v.toNat 1 && !l.lost then
      let s := (s.dropLine e b).startBack e b l
      if bit v.toNat 2 then s.landAll e (· == b) else s
    else s
  | none => s

/-- The blocks that engine `e`'s cache and its write-backs hold. -/
def State.heldBlocks (s : State) (e : Nat) : List Nat :=
  let g := s.engine e
  (g.wb.map (·.1) ++ g.dc.map (·.1)).eraseDups

/-- The caches settle the blocks of an access of `n` bytes at `d`, but for the cache of the engine that makes it. -/
def State.settle (s : State) (d n : Nat) (own : Option Nat := none) : State :=
  (s.eng.filter fun p => own != some p.1).foldl (fun (s : State) p =>
    ((s.heldBlocks p.1).filter fun b => decide (d / 64 ≤ b) && decide (64 * b < d + n)).foldl (fun (s : State) b => s.settleLine p.1 b) s) s

/-- The cache of engine `e` settles all it holds. -/
def State.settleEngine (s : State) (e : Nat) : State := (s.heldBlocks e).foldl (fun (s : State) b => s.settleLine e b) s

/-! ### Reads and writes of memory by every block -/

/-- A read of `n` bytes by a port (R396): none where any block completes as poison. -/
def State.memRead (s : State) (port d n : Nat) : Option (List Byte) × State := (s.settle d n).memGet port d n

/-- A read of `n` bytes block by block up to the first block that completes as poison: the bytes before it. -/
def State.memReadTo (s : State) (port d n : Nat) : List Byte × State := (s.settle d n).memGetTo port d n

/-- A read of a little-endian number of `n` bytes. -/
def State.memReadNat (s : State) (port d n : Nat) : Option Nat × State :=
  let (r, s) := s.memRead port d n
  (r.map ofBytes, s)

/-- A write of bytes by a port (R397, R579): false where any block returns a write error. -/
def State.memWrite (s : State) (port d : Nat) (vs : List Byte) (poison : Bool := false) : Bool × State :=
  (s.settle d vs.length).memPut port d vs poison

/-- A write of a number as `n` little-endian bytes. -/
def State.memWriteNat (s : State) (port d n v : Nat) : Bool × State := s.memWrite port d (toBytes n v)

/-- CRC-32 of RFC 1952 over bytes (R73): reflected polynomial 0xEDB88320. -/
def crc32Byte (c : Nat) (b : Nat) : Nat :=
  let step := fun (c : Nat) (_ : Nat) => if c % 2 = 1 then (c / 2) ^^^ 0xEDB88320 else c / 2
  (List.range 8).foldl step (c ^^^ b)

def crc32 (bs : List Byte) : Nat :=
  (bs.foldl (fun c b => crc32Byte c b.toNat) 0xFFFFFFFF) ^^^ 0xFFFFFFFF

end Sys2Proof.Machine
end

