-- ==== Sys2Proof/Machine/Crypto.lean ====
section
/-! DEFINITION. SHA-384 (FIPS 180-4) and ECDSA over P-384 (FIPS 186-5), signing and verification, which the manual names for image
digests and signatures, owner keys and secure code (11 R301, R304; 18 R498–R511). Their text is the standards', not the manual's
(PRESUMED, assumption 60). -/

namespace Sys2Proof.Machine

/-! ### SHA-384 -/

def sha512K0 : List Nat :=
  [0x428A2F98D728AE22, 0x7137449123EF65CD, 0xB5C0FBCFEC4D3B2F, 0xE9B5DBA58189DBBC,
   0x3956C25BF348B538, 0x59F111F1B605D019, 0x923F82A4AF194F9B, 0xAB1C5ED5DA6D8118,
   0xD807AA98A3030242, 0x12835B0145706FBE, 0x243185BE4EE4B28C, 0x550C7DC3D5FFB4E2,
   0x72BE5D74F27B896F, 0x80DEB1FE3B1696B1, 0x9BDC06A725C71235, 0xC19BF174CF692694,
   0xE49B69C19EF14AD2, 0xEFBE4786384F25E3, 0x0FC19DC68B8CD5B5, 0x240CA1CC77AC9C65]

def sha512K1 : List Nat :=
  [0x2DE92C6F592B0275, 0x4A7484AA6EA6E483, 0x5CB0A9DCBD41FBD4, 0x76F988DA831153B5,
   0x983E5152EE66DFAB, 0xA831C66D2DB43210, 0xB00327C898FB213F, 0xBF597FC7BEEF0EE4,
   0xC6E00BF33DA88FC2, 0xD5A79147930AA725, 0x06CA6351E003826F, 0x142929670A0E6E70,
   0x27B70A8546D22FFC, 0x2E1B21385C26C926, 0x4D2C6DFC5AC42AED, 0x53380D139D95B3DF,
   0x650A73548BAF63DE, 0x766A0ABB3C77B2A8, 0x81C2C92E47EDAEE6, 0x92722C851482353B]

def sha512K2 : List Nat :=
  [0xA2BFE8A14CF10364, 0xA81A664BBC423001, 0xC24B8B70D0F89791, 0xC76C51A30654BE30,
   0xD192E819D6EF5218, 0xD69906245565A910, 0xF40E35855771202A, 0x106AA07032BBD1B8,
   0x19A4C116B8D2D0C8, 0x1E376C085141AB53, 0x2748774CDF8EEB99, 0x34B0BCB5E19B48A8,
   0x391C0CB3C5C95A63, 0x4ED8AA4AE3418ACB, 0x5B9CCA4F7763E373, 0x682E6FF3D6B2B8A3,
   0x748F82EE5DEFB2FC, 0x78A5636F43172F60, 0x84C87814A1F0AB72, 0x8CC702081A6439EC]

def sha512K3 : List Nat :=
  [0x90BEFFFA23631E28, 0xA4506CEBDE82BDE9, 0xBEF9A3F7B2C67915, 0xC67178F2E372532B,
   0xCA273ECEEA26619C, 0xD186B8C721C0C207, 0xEADA7DD6CDE0EB1E, 0xF57D4F7FEE6ED178,
   0x06F067AA72176FBA, 0x0A637DC5A2C898A6, 0x113F9804BEF90DAE, 0x1B710B35131C471B,
   0x28DB77F523047D84, 0x32CAAB7B40C72493, 0x3C9EBE0A15C9BEBC, 0x431D67C49C100D4C,
   0x4CC5D4BECB3E42B6, 0x597F299CFC657E2A, 0x5FCB6FAB3AD6FAEC, 0x6C44198C4A475817]

/-- The round constants. -/
def sha512K : List Nat := sha512K0 ++ sha512K1 ++ sha512K2 ++ sha512K3

/-- The initial hash value. -/
def sha384H : List Nat :=
  [0xCBBB9D5DC1059ED8, 0x629A292A367CD507, 0x9159015A3070DD17, 0x152FECD8F70E5939,
   0x67332667FFC00B31, 0x8EB44A8768581511, 0xDB0C2E0D64F98FA7, 0x47B5481DBEFA4FA4]

def rotr64 (n x : Nat) : Nat := x / 2 ^ n + 2 ^ (64 - n) * (x % 2 ^ n)
def wrap64 (x : Nat) : Nat := x % 2 ^ 64
def not64 (x : Nat) : Nat := 2 ^ 64 - 1 - x

/-- The message schedule, newest word first: `n` more words after the sixteen of the block. -/
def shaSchedule (w : List Nat) : Nat → List Nat
  | 0 => w
  | n + 1 =>
    let a := w.getD 14 0
    let b := w.getD 1 0
    let s0 := rotr64 1 a ^^^ rotr64 8 a ^^^ (a / 2 ^ 7)
    let s1 := rotr64 19 b ^^^ rotr64 61 b ^^^ (b / 2 ^ 6)
    shaSchedule (wrap64 (w.getD 15 0 + s0 + w.getD 6 0 + s1) :: w) n

/-- One round on the working variables. -/
def shaRound (v : List Nat) (kw : Nat × Nat) : List Nat :=
  match v with
  | [a, b, c, d, e, f, g, h] =>
    let s1 := rotr64 14 e ^^^ rotr64 18 e ^^^ rotr64 41 e
    let ch := (e &&& f) ^^^ (not64 e &&& g)
    let t1 := h + s1 + ch + kw.1 + kw.2
    let s0 := rotr64 28 a ^^^ rotr64 34 a ^^^ rotr64 39 a
    let maj := (a &&& b) ^^^ (a &&& c) ^^^ (b &&& c)
    [wrap64 (t1 + s0 + maj), a, b, c, wrap64 (d + t1), e, f, g]
  | _ => v

/-- A number of bytes, most significant first. -/
def beOf (bs : List Byte) : Nat := bs.foldl (fun a b => 256 * a + b.toNat) 0

/-- One block of 128 bytes. -/
def shaBlock (h : List Nat) (block : List Byte) : List Nat :=
  let w := (List.range 16).map fun i => beOf ((block.drop (8 * i)).take 8)
  let sched := (shaSchedule w.reverse 64).reverse
  let v := (sha512K.zip sched).foldl shaRound h
  (h.zip v).map fun p => wrap64 (p.1 + p.2)

/-- The padding of a message of `n` bytes. -/
def shaPad (n : Nat) : List Byte :=
  [0x80] ++ List.replicate ((239 - n % 128) % 128) 0 ++ (toBytes 16 (8 * n)).reverse

/-- The 48 bytes of SHA-384 of a message. -/
def sha384 (msg : List Byte) : List Byte :=
  let m := msg ++ shaPad msg.length
  let h := (List.range (m.length / 128)).foldl (fun h i => shaBlock h ((m.drop (128 * i)).take 128)) sha384H
  (h.flatMap fun w => (toBytes 8 w).reverse).take 48

/-! ### P-384 -/

/-- The field's prime, the curve's coefficient b (a is −3), and the order of the base point. -/
def p384P : Nat := 2 ^ 384 - 2 ^ 128 - 2 ^ 96 + 2 ^ 32 - 1
def p384B : Nat :=
  0xb3312fa7e23ee7e4988e056be3f82d19181d9c6efe8141120314088f5013875ac656398d8a2ed19d2a85c8edd3ec2aef
def p384N : Nat :=
  0xffffffffffffffffffffffffffffffffffffffffffffffffc7634d81f4372ddf581a0db248b0a77aecec196accc52973
def p384G : Nat × Nat :=
  (0xaa87ca22be8b05378eb1c71ef320ad746e1d3b628ba79b9859f741e082542a385502f25dbf55296c3a545e3872760ab7,
   0x3617de4a96262c6f5d9e98bf9292dc29f8f41dbd289a147ce9da3113b5f0b8c00a60b1ce1d7e819d7a431d7c90ea0e5f)

/-- `b ^ e` modulo `m` for an exponent below 2^384. -/
def powMod (m b e : Nat) : Nat :=
  (List.range 384).foldl (fun r i =>
    let r := r * r % m
    if bit e (383 - i) then r * b % m else r) 1

/-- The inverse modulo a prime. -/
def invMod (m a : Nat) : Nat := powMod m (a % m) (m - 2)

/-- The sum of two points; none is the point at infinity. -/
def p384Add (a b : Option (Nat × Nat)) : Option (Nat × Nat) :=
  match a, b with
  | none, b => b
  | a, none => a
  | some (x1, y1), some (x2, y2) =>
    let at_ := fun (l : Nat) =>
      let x := (l * l + 2 * p384P - x1 - x2) % p384P
      some (x, (l * (x1 + p384P - x) + p384P - y1) % p384P)
    if x1 = x2 then
      if (y1 + y2) % p384P = 0 then none
      else at_ ((3 * x1 * x1 + p384P - 3) * invMod p384P (2 * y1) % p384P)
    else at_ ((y2 + p384P - y1) * invMod p384P (x2 + p384P - x1) % p384P)

/-- A multiple of a point. -/
def p384Mul (k : Nat) (a : Nat × Nat) : Option (Nat × Nat) :=
  (List.range 384).foldl (fun r i =>
    let r := p384Add r r
    if bit k (383 - i) then p384Add r (some a) else r) none

/-- The right-hand side of the curve's equation at `x`. -/
def p384Rhs (x : Nat) : Nat := (x * x % p384P * x + (p384P - 3) * x + p384B) % p384P

/-- The square root that a compressed point's x asks for. -/
def p384Root (x : Nat) : Nat := powMod p384P (p384Rhs x) ((p384P + 1) / 4)

/-- Whether x is the coordinate of a point of the curve (R505). -/
def onCurve (x : Nat) : Bool := decide (x < p384P) && p384Root x * p384Root x % p384P == p384Rhs x

/-- The point of a compressed key: x and the parity of y (R502). -/
def p384Point (x parity : Nat) : Nat × Nat :=
  let y := p384Root x
  (x, if y % 2 = parity then y else p384P - y)

/-- Whether (r, s) is a valid ECDSA signature of a SHA-384 digest under a compressed key. -/
def ecdsaOk (x parity : Nat) (digest : List Byte) (r t : Nat) : Bool :=
  let w := invMod p384N t
  let q := p384Add (p384Mul (beOf digest * w % p384N) p384G) (p384Mul (r * w % p384N) (p384Point x parity))
  onCurve x && decide (0 < r) && decide (r < p384N) && decide (0 < t) && decide (t < p384N)
    && match q with
      | some (qx, _) => qx % p384N == r
      | none => false

/-- The ECDSA signature (r, s) of a SHA-384 digest under a private key, with the random number `k` of the signing. -/
def ecdsaSign (key : Nat) (digest : List Byte) (k : Nat) : Nat × Nat :=
  let r := match p384Mul k p384G with
    | some (x, _) => x % p384N
    | none => 0
  (r, invMod p384N k * (beOf digest + r * key) % p384N)

end Sys2Proof.Machine
end

