-- ==== Sys2Proof/Machine/Cregar.lean ====
section
/-! DEFINITION. The Cregar instruction formats (R333), which word is which instruction and which words are illegal (R334, R335). -/

namespace Sys2Proof.Machine

/-- The instructions of R335. -/
inductive Op
  | add | sub | and | or | xor | sll | srl | sra | slt | sltu | min | max | popc | mul | div | divu | rem | remu
  | addi | andi | ori | slli | srli | srai | ins16 | ext
  | ldb | ldh | ldw | ldd | stb | sth | stw | std | amoadd | cas
  | beq | bne | blt | bge | bltu | bgeu | j | jal | jalr
  | fence | isync | wait | signal | rdsys | halt | dcClean | dcInv | dcCinv | dcCleanall | icInvall
  | vadd | vsub | vmul | vmin | vmax | vand | vor | vshl | vshr | vabsd | vcmpeq | vcmplt | vsel | vredadd | vbcast | vextr
  | pand | pnot | vld | vst
  deriving DecidableEq, Repr

/-! ### Fields of an instruction word (R333) -/

def insOp (w : Nat) : Nat := bits w 5 0
/-- The register fields at bits 6, 11 and 16: d, a and b in R form; a and b of B form are the first two. -/
def insD (w : Nat) : Nat := bits w 10 6
def insA (w : Nat) : Nat := bits w 15 11
def insB (w : Nat) : Nat := bits w 20 16
/-- The func fields of R, S and V form. -/
def insFuncR (w : Nat) : Nat := bits w 26 21
def insFuncS (w : Nat) : Nat := bits w 23 16
def insFuncV (w : Nat) : Nat := bits w 25 21
def insImm16 (w : Nat) : Nat := bits w 31 16
def insImm8 (w : Nat) : Nat := bits w 31 24
def insOff26 (w : Nat) : Nat := bits w 31 6
def insImm13 (w : Nat) : Nat := bits w 28 16
/-- U, esz and pm of V form; pm of VM form is at the same bits. -/
def insU (w : Nat) : Bool := bit w 26
def insEsz (w : Nat) : Nat := bits w 28 27
def insPm (w : Nat) : Nat := bits w 31 29

/-- R form with opcode 0x01: the instruction of a func. -/
def opAlu : Nat → Option Op
  | 0x00 => some .add
  | 0x01 => some .sub
  | 0x02 => some .and
  | 0x03 => some .or
  | 0x04 => some .xor
  | 0x05 => some .sll
  | 0x06 => some .srl
  | 0x07 => some .sra
  | 0x08 => some .slt
  | 0x09 => some .sltu
  | 0x0A => some .min
  | 0x0B => some .max
  | 0x0C => some .popc
  | 0x10 => some .mul
  | 0x12 => some .div
  | 0x13 => some .divu
  | 0x14 => some .rem
  | 0x15 => some .remu
  | _ => none

/-- S form with opcode 0x20. -/
def opSys : Nat → Option Op
  | 0x00 => some .fence
  | 0x01 => some .isync
  | 0x02 => some .wait
  | 0x03 => some .signal
  | 0x04 => some .rdsys
  | 0x05 => some .halt
  | _ => none

/-- S form with opcode 0x21. -/
def opCache : Nat → Option Op
  | 0x00 => some .dcClean
  | 0x01 => some .dcInv
  | 0x02 => some .dcCinv
  | 0x03 => some .dcCleanall
  | 0x04 => some .icInvall
  | _ => none

/-- V form with opcode 0x28. -/
def opVec : Nat → Option Op
  | 0x00 => some .vadd
  | 0x01 => some .vsub
  | 0x02 => some .vmul
  | 0x03 => some .vmin
  | 0x04 => some .vmax
  | 0x05 => some .vand
  | 0x06 => some .vor
  | 0x07 => some .vshl
  | 0x08 => some .vshr
  | 0x09 => some .vabsd
  | 0x0A => some .vcmpeq
  | 0x0B => some .vcmplt
  | 0x0C => some .vsel
  | 0x0D => some .vredadd
  | 0x0E => some .vbcast
  | 0x0F => some .vextr
  | 0x10 => some .pand
  | 0x11 => some .pnot
  | _ => none

/-- The instruction that opcode and func name, reserved fields aside. -/
def opOf (w : Nat) : Option Op :=
  match insOp w with
  | 0x01 => opAlu (insFuncR w)
  | 0x02 => some .addi
  | 0x03 => some .andi
  | 0x04 => some .ori
  | 0x05 => match bits w 23 22 with
    | 0 => some .slli
    | 1 => some .srli
    | 2 => some .srai
    | _ => none
  | 0x06 => some .ins16
  | 0x07 => some .ext
  | 0x08 => some .ldb
  | 0x09 => some .ldh
  | 0x0A => some .ldw
  | 0x0B => some .ldd
  | 0x0C => some .stb
  | 0x0D => some .sth
  | 0x0E => some .stw
  | 0x0F => some .std
  | 0x10 => match insFuncR w with
    | 0x00 => some .amoadd
    | 0x01 => some .cas
    | _ => none
  | 0x12 => some .beq
  | 0x13 => some .bne
  | 0x14 => some .blt
  | 0x15 => some .bge
  | 0x16 => some .bltu
  | 0x17 => some .bgeu
  | 0x18 => some .j
  | 0x19 => some .jal
  | 0x1A => if insFuncR w = 0 then some .jalr else none
  | 0x20 => opSys (insFuncS w)
  | 0x21 => opCache (insFuncS w)
  | 0x28 => opVec (insFuncV w)
  | 0x29 => some .vld
  | 0x2A => some .vst
  | _ => none

/-- The reserved fields and selectors of an instruction (R333–R335): true where all are as they must be. A field that the form
has and the instruction does not use is ignored unless the row of R335 says what it must be. -/
def fieldsOk (w : Nat) : Op → Bool
  | .popc => bits w 31 27 == 0 && insB w == 0
  | .add | .sub | .and | .or | .xor | .sll | .srl | .sra | .slt | .sltu | .min | .max | .mul | .div | .divu | .rem | .remu
  | .amoadd | .cas => bits w 31 27 == 0
  | .jalr => bits w 31 27 == 0 && insB w == 0
  | .slli | .srli | .srai => bits w 31 24 == 0
  | .ins16 => bits w 15 13 == 0
  | .ext => bits w 24 22 == 0 && bits w 31 26 + (bits w 21 16 + 1) ≤ 64
  | .signal => insImm8 w < 48
  | .rdsys => insImm8 w ≤ 4
  | .dcCleanall | .icInvall => insA w == 0
  | .vmul => !insU w
  | .vcmpeq | .vcmplt => insD w < 8
  | .vredadd | .vbcast => insB w == 0
  | .pand => insD w < 8 && insA w < 8 && insB w < 8 && insPm w == 0 && insEsz w == 0 && !insU w
  | .pnot => insD w < 8 && insA w < 8 && insB w == 0 && insPm w == 0 && insEsz w == 0 && !insU w
  | .addi | .andi | .ori | .ldb | .ldh | .ldw | .ldd | .stb | .sth | .stw | .std
  | .beq | .bne | .blt | .bge | .bltu | .bgeu | .j | .jal
  | .fence | .isync | .wait | .halt | .dcClean | .dcInv | .dcCinv
  | .vadd | .vsub | .vmin | .vmax | .vand | .vor | .vshl | .vshr | .vabsd | .vsel | .vextr | .vld | .vst => true

/-- The instruction of a word; none where it takes the ILLEGAL fault (R334). -/
def cregar (w : Nat) : Option Op := (opOf w).filter (fieldsOk w)

/-! ### What the sampler and the static prediction see of an instruction (R334, R522) -/

def Op.isLoad : Op → Bool
  | .ldb | .ldh | .ldw | .ldd | .vld | .amoadd | .cas => true
  | _ => false

def Op.isStore : Op → Bool
  | .stb | .sth | .stw | .std | .vst | .amoadd | .cas => true
  | _ => false

def Op.isVector : Op → Bool
  | .vadd | .vsub | .vmul | .vmin | .vmax | .vand | .vor | .vshl | .vshr | .vabsd | .vcmpeq | .vcmplt | .vsel | .vredadd
  | .vbcast | .vextr | .pand | .pnot | .vld | .vst => true
  | _ => false

def Op.isBranch : Op → Bool
  | .beq | .bne | .blt | .bge | .bltu | .bgeu | .j | .jal | .jalr => true
  | _ => false

/-- Whether the instruction is of a kind that a sampler tags (R522). -/
def Op.ofKind (o : Op) : Nat → Bool
  | 1 => o.isLoad
  | 2 => o.isStore
  | 3 => o == .vld || o == .vst
  | 4 => o.isBranch
  | _ => true

/-! ### The encoder (R333–R335) -/

/-- The forms of R333. -/
inductive Form
  | r | i | b | j | s | v | vm
  deriving DecidableEq, Repr

/-- The operand fields of an instruction, each read under the form's own name: `d`, `a` and `b` are the register fields at bits
6, 11 and 16 (in B form `d` and `a` hold the fields a and b of the table), `imm` is the immediate or offset, unsigned as it
stands in the word; `u`, `esz` and `pm` are those of V and VM form. A field the form does not have is 0. -/
structure Operands where
  d : Nat := 0
  a : Nat := 0
  b : Nat := 0
  imm : Nat := 0
  u : Bool := false
  esz : Nat := 0
  pm : Nat := 0
  deriving DecidableEq, Repr

/-- The form, opcode and func of each instruction; for the shifts by an immediate, the kind takes the place of the func. -/
def Op.spelling : Op → Form × Nat × Nat
  | .add => (.r, 0x01, 0x00) | .sub => (.r, 0x01, 0x01) | .and => (.r, 0x01, 0x02) | .or => (.r, 0x01, 0x03)
  | .xor => (.r, 0x01, 0x04) | .sll => (.r, 0x01, 0x05) | .srl => (.r, 0x01, 0x06) | .sra => (.r, 0x01, 0x07)
  | .slt => (.r, 0x01, 0x08) | .sltu => (.r, 0x01, 0x09) | .min => (.r, 0x01, 0x0A) | .max => (.r, 0x01, 0x0B)
  | .popc => (.r, 0x01, 0x0C) | .mul => (.r, 0x01, 0x10) | .div => (.r, 0x01, 0x12) | .divu => (.r, 0x01, 0x13)
  | .rem => (.r, 0x01, 0x14) | .remu => (.r, 0x01, 0x15)
  | .addi => (.i, 0x02, 0) | .andi => (.i, 0x03, 0) | .ori => (.i, 0x04, 0)
  | .slli => (.i, 0x05, 0) | .srli => (.i, 0x05, 1) | .srai => (.i, 0x05, 2)
  | .ins16 => (.i, 0x06, 0) | .ext => (.i, 0x07, 0)
  | .ldb => (.i, 0x08, 0) | .ldh => (.i, 0x09, 0) | .ldw => (.i, 0x0A, 0) | .ldd => (.i, 0x0B, 0)
  | .stb => (.i, 0x0C, 0) | .sth => (.i, 0x0D, 0) | .stw => (.i, 0x0E, 0) | .std => (.i, 0x0F, 0)
  | .amoadd => (.r, 0x10, 0x00) | .cas => (.r, 0x10, 0x01)
  | .beq => (.b, 0x12, 0) | .bne => (.b, 0x13, 0) | .blt => (.b, 0x14, 0) | .bge => (.b, 0x15, 0)
  | .bltu => (.b, 0x16, 0) | .bgeu => (.b, 0x17, 0)
  | .j => (.j, 0x18, 0) | .jal => (.j, 0x19, 0) | .jalr => (.r, 0x1A, 0x00)
  | .fence => (.s, 0x20, 0x00) | .isync => (.s, 0x20, 0x01) | .wait => (.s, 0x20, 0x02) | .signal => (.s, 0x20, 0x03)
  | .rdsys => (.s, 0x20, 0x04) | .halt => (.s, 0x20, 0x05)
  | .dcClean => (.s, 0x21, 0x00) | .dcInv => (.s, 0x21, 0x01) | .dcCinv => (.s, 0x21, 0x02)
  | .dcCleanall => (.s, 0x21, 0x03) | .icInvall => (.s, 0x21, 0x04)
  | .vadd => (.v, 0x28, 0x00) | .vsub => (.v, 0x28, 0x01) | .vmul => (.v, 0x28, 0x02) | .vmin => (.v, 0x28, 0x03)
  | .vmax => (.v, 0x28, 0x04) | .vand => (.v, 0x28, 0x05) | .vor => (.v, 0x28, 0x06) | .vshl => (.v, 0x28, 0x07)
  | .vshr => (.v, 0x28, 0x08) | .vabsd => (.v, 0x28, 0x09) | .vcmpeq => (.v, 0x28, 0x0A) | .vcmplt => (.v, 0x28, 0x0B)
  | .vsel => (.v, 0x28, 0x0C) | .vredadd => (.v, 0x28, 0x0D) | .vbcast => (.v, 0x28, 0x0E) | .vextr => (.v, 0x28, 0x0F)
  | .pand => (.v, 0x28, 0x10) | .pnot => (.v, 0x28, 0x11)
  | .vld => (.vm, 0x29, 0) | .vst => (.vm, 0x2A, 0)

def Op.form (o : Op) : Form := o.spelling.1

/-- The operand fields fit their places in the form, and those the form does not have are 0. -/
def Operands.inForm (x : Operands) : Form → Bool
  | .r => x.d < 32 && x.a < 32 && x.b < 32 && x.imm == 0 && !x.u && x.esz == 0 && x.pm == 0
  | .i | .b => x.d < 32 && x.a < 32 && x.b == 0 && x.imm < 2 ^ 16 && !x.u && x.esz == 0 && x.pm == 0
  | .j => x.d == 0 && x.a == 0 && x.b == 0 && x.imm < 2 ^ 26 && !x.u && x.esz == 0 && x.pm == 0
  | .s => x.d < 32 && x.a < 32 && x.b == 0 && x.imm < 2 ^ 8 && !x.u && x.esz == 0 && x.pm == 0
  | .v => x.d < 32 && x.a < 32 && x.b < 32 && x.imm == 0 && x.esz < 4 && x.pm < 8
  | .vm => x.d < 32 && x.a < 32 && x.b == 0 && x.imm < 2 ^ 13 && !x.u && x.esz == 0 && x.pm < 8

/-- What the row of an instruction further asks of its operands (R335). -/
def Op.allows (o : Op) (x : Operands) : Bool :=
  match o with
  | .popc | .jalr => x.b == 0
  | .slli | .srli | .srai => x.imm < 64
  | .ins16 => x.a < 4
  | .ext => x.imm / 64 % 8 == 0 && x.imm / 1024 + (x.imm % 64 + 1) ≤ 64
  | .signal => x.imm < 48
  | .rdsys => x.imm ≤ 4
  | .dcCleanall | .icInvall => x.a == 0
  | .vmul => !x.u
  | .vcmpeq | .vcmplt => x.d < 8
  | .vredadd | .vbcast => x.b == 0
  | .pand => x.d < 8 && x.a < 8 && x.b < 8 && x.pm == 0 && x.esz == 0 && !x.u
  | .pnot => x.d < 8 && x.a < 8 && x.b == 0 && x.pm == 0 && x.esz == 0 && !x.u
  | _ => true

/-- Whether an instruction with these operands is well formed. -/
def Op.fits (o : Op) (x : Operands) : Bool := x.inForm o.form && o.allows x

/-- The word of a well-formed instruction. -/
def encodeCregar (o : Op) (x : Operands) : Nat :=
  match o.spelling with
  | (.r, op, func) => op + 2 ^ 6 * x.d + 2 ^ 11 * x.a + 2 ^ 16 * x.b + 2 ^ 21 * func
  | (.i, op, kind) => op + 2 ^ 6 * x.d + 2 ^ 11 * x.a + 2 ^ 16 * (x.imm + 2 ^ 6 * kind)
  | (.b, op, _) => op + 2 ^ 6 * x.d + 2 ^ 11 * x.a + 2 ^ 16 * x.imm
  | (.j, op, _) => op + 2 ^ 6 * x.imm
  | (.s, op, func) => op + 2 ^ 6 * x.d + 2 ^ 11 * x.a + 2 ^ 16 * func + 2 ^ 24 * x.imm
  | (.v, op, func) => op + 2 ^ 6 * x.d + 2 ^ 11 * x.a + 2 ^ 16 * x.b + 2 ^ 21 * func + 2 ^ 26 * b2n x.u + 2 ^ 27 * x.esz
      + 2 ^ 29 * x.pm
  | (.vm, op, _) => op + 2 ^ 6 * x.d + 2 ^ 11 * x.a + 2 ^ 16 * x.imm + 2 ^ 29 * x.pm

/-- The operand fields that an instruction's word holds. A shift's kind is no operand. -/
def operandsOf (o : Op) (w : Nat) : Operands :=
  match o.form with
  | .r => { d := insD w, a := insA w, b := insB w }
  | .i => { d := insD w, a := insA w, imm := match o with
      | .slli | .srli | .srai => insImm16 w % 64
      | _ => insImm16 w }
  | .b => { d := insD w, a := insA w, imm := insImm16 w }
  | .j => { imm := insOff26 w }
  | .s => { d := insD w, a := insA w, imm := insImm8 w }
  | .v => { d := insD w, a := insA w, b := insB w, u := insU w, esz := insEsz w, pm := insPm w }
  | .vm => { d := insD w, a := insA w, imm := insImm13 w, pm := insPm w }

end Sys2Proof.Machine
end

