-- ==== Sys2Proof/Machine/Flags.lean ====
section
/-! DEFINITION. The arithmetic of the Cregar engines (R335, R336): scalar results, comparisons, and the element-wise results and
predicates of vectors. The engines have no flags register; comparisons go to registers, predicates and branches. -/

namespace Sys2Proof.Machine

/-! ### Scalars (R335) -/

/-- The low bits of an immediate, sign-extended to 64 bits. -/
def immS (w n : Nat) : DWord := (BitVec.ofNat w n).signExtend 64

/-- A truth value as a scalar. -/
def truth (b : Bool) : DWord := if b then 1 else 0

/-- Shifts by the low six bits of the amount. -/
def shl64 (a b : DWord) : DWord := a <<< (b.toNat % 64)
def shr64 (a b : DWord) : DWord := a >>> (b.toNat % 64)
def sar64 (a b : DWord) : DWord := a.sshiftRight (b.toNat % 64)

/-- Signed minimum and maximum. -/
def min64 (a b : DWord) : DWord := if a.slt b then a else b
def max64 (a b : DWord) : DWord := if a.slt b then b else a

/-- How many bits of `a` are 1. -/
def popCount (a : DWord) : DWord :=
  BitVec.ofNat 64 ((List.range 64).filter fun i => a.getLsbD i).length

/-- Quotient rounded toward zero; divisor 0 gives all ones, and −2^63 by −1 gives −2^63. -/
def div64 (a b : DWord) : DWord := if b = 0 then BitVec.allOnes 64 else BitVec.ofInt 64 (a.toInt.tdiv b.toInt)
def divu64 (a b : DWord) : DWord := if b = 0 then BitVec.allOnes 64 else a / b

/-- Remainder with the sign of the dividend; divisor 0 gives the dividend. -/
def rem64 (a b : DWord) : DWord := if b = 0 then a else BitVec.ofInt 64 (a.toInt.tmod b.toInt)
def remu64 (a b : DWord) : DWord := if b = 0 then a else a % b

/-- Halfword `h` of `a` replaced by the immediate, the other bits kept. -/
def ins16 (a : DWord) (h imm : Nat) : DWord :=
  let m : DWord := 0xFFFF#64 <<< (16 * h)
  (a &&& ~~~m) ||| (BitVec.ofNat 64 (imm % 65536) <<< (16 * h))

/-- Bits pos to pos + len − 1 of `a`, sign-extended when `sx`. -/
def ext64 (a : DWord) (pos len : Nat) (sx : Bool) : DWord :=
  let v := a.toNat / 2 ^ pos % 2 ^ len
  if sx && 2 ^ (len - 1) ≤ v then BitVec.ofInt 64 ((v : Int) - 2 ^ len) else BitVec.ofNat 64 v

/-! ### Vectors (R336) -/

/-- The width in bits of an element of size code `esz`. -/
def elemBits (esz : Nat) : Nat := 8 * 2 ^ esz

/-- How many elements of size code `esz` a vector has. -/
def elemCount (esz : Nat) : Nat := 64 / 2 ^ esz

/-- Element `i` of a vector. -/
def elem (esz : Nat) (v : VWord) (i : Nat) : Nat := v.toNat / 2 ^ (elemBits esz * i) % 2 ^ elemBits esz

/-- An element as a signed number. -/
def elemInt (esz : Nat) (n : Nat) : Int :=
  if n < 2 ^ (elemBits esz - 1) then n else (n : Int) - 2 ^ elemBits esz

/-- An element read unsigned or signed. -/
def elemAs (esz : Nat) (u : Bool) (n : Nat) : Int := if u then n else elemInt esz n

/-- The low bits of a number as an element. -/
def toElem (esz : Nat) (i : Int) : Nat := (i % 2 ^ elemBits esz).toNat

/-- The vector of given elements. -/
def ofElems (esz : Nat) (f : Nat → Nat) : VWord :=
  BitVec.ofNat 512 ((List.range (elemCount esz)).foldl
    (fun n i => n + 2 ^ (elemBits esz * i) * (f i % 2 ^ elemBits esz)) 0)

/-- Whether element `i` is active under a predicate: the bit of its lowest byte is 1. -/
def active (esz : Nat) (p : DWord) (i : Nat) : Bool := p.getLsbD (2 ^ esz * i)

/-- The old vector with its active elements replaced. -/
def mergeElems (esz : Nat) (p : DWord) (old : VWord) (f : Nat → Nat) : VWord :=
  ofElems esz fun i => if active esz p i then f i else elem esz old i

/-- A predicate that carries a truth value on every byte bit of each active element, and 0 elsewhere. -/
def ofFlags (esz : Nat) (p : DWord) (f : Nat → Bool) : DWord :=
  BitVec.ofNat 64 ((List.range 64).foldl
    (fun n b => if active esz p (b / 2 ^ esz) && f (b / 2 ^ esz) then n + 2 ^ b else n) 0)

/-- Sum and difference of two elements: unsigned saturation when `u`, else wrapping. -/
def vadd (esz : Nat) (u : Bool) (a b : Nat) : Nat := if u then min (a + b) (2 ^ elemBits esz - 1) else a + b
def vsub (esz : Nat) (u : Bool) (a b : Nat) : Nat := if u then a - b else a + 2 ^ elemBits esz - b

/-- Minimum and maximum of two elements, unsigned when `u`. -/
def vmin (esz : Nat) (u : Bool) (a b : Nat) : Nat := if elemAs esz u a < elemAs esz u b then a else b
def vmax (esz : Nat) (u : Bool) (a b : Nat) : Nat := if elemAs esz u a < elemAs esz u b then b else a

/-- Shifts of an element by another modulo the element width; the right shift is logical when `u`. -/
def vshl (esz : Nat) (a b : Nat) : Nat := 2 ^ (b % elemBits esz) * a
def vshr (esz : Nat) (u : Bool) (a b : Nat) : Nat :=
  toElem esz (elemAs esz u a / 2 ^ (b % elemBits esz))

/-- The absolute difference of two elements as an unsigned element. -/
def vabsd (esz : Nat) (u : Bool) (a b : Nat) : Nat := (elemAs esz u a - elemAs esz u b).natAbs

/-- The sum of the active elements, each zero- or sign-extended, modulo 2^64. -/
def vredadd (esz : Nat) (u : Bool) (p : DWord) (a : VWord) : DWord :=
  BitVec.ofInt 64 ((List.range (elemCount esz)).foldl
    (fun n i => if active esz p i then n + elemAs esz u (elem esz a i) else n) 0)

/-- Element number `i` modulo the count, extended to a scalar. -/
def vextr (esz : Nat) (u : Bool) (a : VWord) (i : Nat) : DWord :=
  BitVec.ofInt 64 (elemAs esz u (elem esz a (i % elemCount esz)))

end Sys2Proof.Machine
end

