-- ==== Sys2Proof/Machine/Inflate.lean ====
section
/-! DEFINITION. RFC 1951 as the inflate lanes run it (R74, R79): the expanded bytes of a stream, or the
cause of the first error a lane detects, with the compressed bytes consumed. -/

namespace Sys2Proof.Machine

/-- The bits of a byte stream, least significant bit of each byte first (RFC 1951). -/
def bitsOf : List Byte → List Bool
  | [] => []
  | b :: bs => (List.range 8).map (fun i => bit b.toNat i) ++ bitsOf bs

/-- The number that bits make, first bit least significant. -/
def numOf : List Bool → Nat
  | [] => 0
  | b :: bs => b2n b + 2 * numOf bs

/-- Where an expansion stands: bits left, bytes produced (newest first) and their count. -/
structure Infl where
  rest : List Bool
  out : List Byte
  n : Nat
  deriving Repr

/-- The cause of an error and how many bits of the stream are left when it is found. -/
structure Stop where
  cause : Nat
  left : Nat
  deriving Repr

/-- The end of an expansion by an error: its cause, how many bits are left, and the bytes produced by then. -/
structure Halt where
  cause : Nat
  left : Nat
  n : Nat
  deriving Repr

/-- `k` bits as a number; the stream is truncated where they are not there. -/
def takeBits (k : Nat) (bs : List Bool) : Except Stop (Nat × List Bool) :=
  if bs.length < k then .error ⟨0x025, 0⟩ else .ok (numOf (bs.take k), bs.drop k)

/-- The canonical codes of a list of code lengths: (symbol, length, code) (RFC 1951). -/
def canonical (lens : List Nat) : List (Nat × Nat × Nat) :=
  let count := fun l => (lens.filter (· == l)).length
  let start := (List.range 16).foldl (fun (a : List Nat × Nat) l =>
    let code := if l = 0 then 0 else (a.2 + (if l = 1 then 0 else count (l - 1))) * 2
    (a.1 ++ [code], code)) ([], 0)
  (List.range 16).flatMap fun l =>
    if l = 0 then []
    else
      let syms := (lens.zipIdx.filter fun p => p.1 == l).map Prod.snd
      syms.zipIdx.map fun p => (p.1, l, start.1.getD l 0 + p.2)

/-- Whether the lengths make a code a lane accepts: neither over-subscribed, nor incomplete other than a
single code of length 1 (R79); `none` marks an empty code. -/
def codeOk (lens : List Nat) : Bool :=
  let used := (lens.filter (· != 0))
  let sum := used.foldl (fun n l => n + 2 ^ (15 - l)) 0
  sum == 2 ^ 15 || used == [1]

/-- One symbol read with canonical codes: bits are taken most significant first (RFC 1951). -/
def takeSym (codes : List (Nat × Nat × Nat)) : Nat → Nat → Nat → List Bool → Except Stop (Nat × List Bool)
  | 0, _, _, bs => .error ⟨0x020, bs.length⟩
  | fuel + 1, len, code, bs =>
    match bs with
    | [] => .error ⟨0x025, 0⟩
    | b :: bs =>
      let len := len + 1
      let code := 2 * code + b2n b
      match codes.find? fun c => c.2.1 == len && c.2.2 == code with
      | some c => .ok (c.1, bs)
      | none => takeSym codes fuel len code bs

def lenBase : List Nat :=
  [3, 4, 5, 6, 7, 8, 9, 10, 11, 13, 15, 17, 19, 23, 27, 31, 35, 43, 51, 59, 67, 83, 99, 115, 131, 163, 195, 227, 258]
def lenExtra : List Nat :=
  [0, 0, 0, 0, 0, 0, 0, 0, 1, 1, 1, 1, 2, 2, 2, 2, 3, 3, 3, 3, 4, 4, 4, 4, 5, 5, 5, 5, 0]
def distBase : List Nat :=
  [1, 2, 3, 4, 5, 7, 9, 13, 17, 25, 33, 49, 65, 97, 129, 193, 257, 385, 513, 769, 1025, 1537, 2049, 3073, 4097,
   6145, 8193, 12289, 16385, 24577]
def distExtra : List Nat :=
  [0, 0, 0, 0, 1, 1, 2, 2, 3, 3, 4, 4, 5, 5, 6, 6, 7, 7, 8, 8, 9, 9, 10, 10, 11, 11, 12, 12, 13, 13]

/-- A match copied byte by byte from the expanded output (RFC 1951). -/
def copyMatch (dist : Nat) : Nat → List Byte → List Byte
  | 0, out => out
  | k + 1, out => copyMatch dist k (out.getD (dist - 1) 0 :: out)

/-- A step of a lane that stands at `z` and produces nothing. -/
def Infl.during {α : Type} (z : Infl) (x : Except Stop α) : Except Halt α :=
  match x with
  | .ok a => .ok a
  | .error e => .error ⟨e.cause, e.left, z.n⟩

/-- The symbols of one compressed block up to its end-of-block symbol, with at most `ulen` bytes produced
in all (R79). -/
def inflateSyms (lit dst : List (Nat × Nat × Nat)) (ulen : Nat) : Nat → Infl → Except Halt Infl
  | 0, z => .error ⟨0x025, 0, z.n⟩
  | fuel + 1, z => do
    let (sym, rest) ← z.during (takeSym lit 15 0 0 z.rest)
    if sym < 256 then
      if ulen ≤ z.n then .error ⟨0x022, rest.length, z.n⟩
      else inflateSyms lit dst ulen fuel ⟨rest, BitVec.ofNat 8 sym :: z.out, z.n + 1⟩
    else if sym = 256 then .ok { z with rest := rest }
    else if 286 ≤ sym then .error ⟨0x020, rest.length, z.n⟩
    else
      let (le, rest) ← z.during (takeBits (lenExtra.getD (sym - 257) 0) rest)
      let len := lenBase.getD (sym - 257) 0 + le
      let (ds, rest) ← z.during (takeSym dst 15 0 0 rest)
      if 30 ≤ ds then .error ⟨0x020, rest.length, z.n⟩
      else
        let (de, rest) ← z.during (takeBits (distExtra.getD ds 0) rest)
        let dist := distBase.getD ds 0 + de
        if z.n < dist then .error ⟨0x021, rest.length, z.n⟩
        else if ulen < z.n + len then .error ⟨0x022, rest.length, z.n⟩
        else inflateSyms lit dst ulen fuel ⟨rest, copyMatch dist len z.out, z.n + len⟩

/-- The code lengths of a dynamic block, read with the code-length code (R79). -/
def takeLens (codes : List (Nat × Nat × Nat)) (total : Nat) :
    Nat → List Nat → List Bool → Except Stop (List Nat × List Bool)
  | 0, _, bs => .error ⟨0x020, bs.length⟩
  | fuel + 1, got, bs =>
    if total ≤ got.length then .ok (got, bs)
    else do
      let (sym, bs) ← takeSym codes 7 0 0 bs
      let again := fun (v n : Nat) (bs : List Bool) =>
        if total < got.length + n then Except.error ⟨0x020, bs.length⟩
        else takeLens codes total fuel (got ++ List.replicate n v) bs
      if sym < 16 then takeLens codes total fuel (got ++ [sym]) bs
      else if sym = 16 then
        match got.getLast? with
        | none => .error ⟨0x020, bs.length⟩
        | some v =>
          let (e, bs) ← takeBits 2 bs
          again v (3 + e) bs
      else if sym = 17 then
        let (e, bs) ← takeBits 3 bs
        again 0 (3 + e) bs
      else
        let (e, bs) ← takeBits 7 bs
        again 0 (11 + e) bs

def clOrder : List Nat := [16, 17, 18, 0, 8, 7, 9, 6, 10, 5, 11, 4, 12, 3, 13, 2, 14, 1, 15]

/-- The lengths of `n` code-length symbols in their order (RFC 1951). -/
def takeClens : Nat → List Bool → Except Stop (List Nat × List Bool)
  | 0, bs => .ok ([], bs)
  | n + 1, bs => do
    let (v, bs) ← takeBits 3 bs
    let (vs, bs) ← takeClens n bs
    .ok (v :: vs, bs)

/-- A stored block: its length pair and its bytes (R79). `used` is how many bits of the stream are
consumed, so that the block starts at the next byte. -/
def inflateStored (total ulen : Nat) (z : Infl) : Except Halt Infl := do
  let rest := z.rest.drop ((8 - (total - z.rest.length) % 8) % 8)
  let (len, rest) ← z.during (takeBits 16 rest)
  let (nlen, rest) ← z.during (takeBits 16 rest)
  if len + nlen ≠ 0xFFFF then .error ⟨0x023, rest.length, z.n⟩
  else if min ulen (z.n + rest.length / 8) < z.n + len then
    if ulen ≤ z.n + rest.length / 8 then .error ⟨0x022, rest.length - 8 * (ulen - z.n), ulen⟩
    else .error ⟨0x025, 0, z.n + rest.length / 8⟩
  else
    let bytes := (List.range len).map fun i => BitVec.ofNat 8 (numOf ((rest.drop (8 * i)).take 8))
    .ok ⟨rest.drop (8 * len), bytes.reverse ++ z.out, z.n + len⟩

def fixedLit : List Nat :=
  List.replicate 144 8 ++ List.replicate 112 9 ++ List.replicate 24 7 ++ List.replicate 8 8

/-- A dynamic block's two codes (R79). -/
def takeCodes (bs : List Bool) : Except Stop ((List Nat × List Nat) × List Bool) := do
  let (hlit, bs) ← takeBits 5 bs
  let (hdist, bs) ← takeBits 5 bs
  let (hclen, bs) ← takeBits 4 bs
  let (cl, bs) ← takeClens (hclen + 4) bs
  let clens := (List.range 19).map fun s => cl.getD (clOrder.findIdx (· == s)) 0
  if !codeOk clens then .error ⟨0x020, bs.length⟩
  else
    let (lens, bs) ← takeLens (canonical clens) (hlit + 257 + hdist + 1) 400 [] bs
    let lit := lens.take (hlit + 257)
    let dst := lens.drop (hlit + 257)
    if !codeOk lit || lit.getD 256 0 = 0 || !(codeOk dst || dst.all (· == 0)) then
      .error ⟨0x020, bs.length⟩
    else .ok ((lit, dst), bs)

/-- The blocks of a stream to the end of the first whose BFINAL is 1 (R74). -/
def inflateBlocks (total ulen : Nat) : Nat → Infl → Except Halt Infl
  | 0, z => .error ⟨0x025, 0, z.n⟩
  | fuel + 1, z => do
    let (fin, rest) ← z.during (takeBits 1 z.rest)
    let (typ, rest) ← z.during (takeBits 2 rest)
    let z := { z with rest := rest }
    let z ← match typ with
      | 0 => inflateStored total ulen z
      | 1 => inflateSyms (canonical fixedLit) (canonical (List.replicate 32 5)) ulen (total + 1) z
      | 2 => do
        let (c, rest) ← z.during (takeCodes z.rest)
        inflateSyms (canonical c.1) (canonical c.2) ulen (total + 1) { z with rest := rest }
      | _ => .error ⟨0x020, rest.length, z.n⟩
    if fin = 1 then .ok z else inflateBlocks total ulen fuel z

/-- How a lane's expansion ended (R79, R80): the cause of the error found, if any, the compressed bytes consumed by then, and the
bytes expanded. -/
structure Inflated where
  err : Option Nat
  used : Nat
  out : List Byte
  n : Nat
  deriving DecidableEq, Repr

/-- The expansion of a stream to exactly `ulen` bytes, or the first error (R79, R80). DEDUCED (assumption 91): an error is found
when the symbol, field or length pair that shows it has been read, or, in a stored block, at the byte that shows it; a byte of
which one bit is consumed counts as consumed. -/
def inflate (data : List Byte) (ulen : Nat) : Inflated :=
  let bs := bitsOf data
  let used := fun (left : Nat) => (bs.length - left + 7) / 8
  match inflateBlocks bs.length ulen (bs.length + 1) ⟨bs, [], 0⟩ with
  | .error e => ⟨some e.cause, used e.left, [], e.n⟩
  | .ok z => ⟨if z.n < ulen then some 0x026 else none, used z.rest.length, z.out.reverse, z.n⟩

/-- Stored blocks of a source (RFC 1951), at most 65,535 bytes each. -/
def storedBlocks : Nat → List Byte → List Byte
  | 0, _ => []
  | fuel + 1, src =>
    let part := src.take 65535
    let last := decide (src.length ≤ 65535)
    (if last then 1 else 0) :: (toBytes 2 part.length ++ toBytes 2 (65535 - part.length) ++ part)
      ++ (if last then [] else storedBlocks fuel (src.drop 65535))

/-- A deflate block as a decoder meets it (RFC 1951): its type, the bits it takes, and the bytes it expands to. -/
structure BlockSpan where
  typ : Nat
  bits : Nat
  n : Nat
  deriving DecidableEq, Repr

/-- The blocks of a stream, in order, to the first whose BFINAL is 1. -/
def blockSpans (total ulen : Nat) : Nat → Infl → List BlockSpan
  | 0, _ => []
  | fuel + 1, z =>
    let typ := numOf ((z.rest.drop 1).take 2)
    let body := { z with rest := z.rest.drop 3 }
    let next := match typ with
      | 0 => inflateStored total ulen body
      | 1 => inflateSyms (canonical fixedLit) (canonical (List.replicate 32 5)) ulen (total + 1) body
      | _ => match takeCodes body.rest with
        | .ok (c, rest) => inflateSyms (canonical c.1) (canonical c.2) ulen (total + 1) { body with rest := rest }
        | .error e => .error ⟨e.cause, e.left, z.n⟩
    match next with
    | .ok z' =>
      let one : BlockSpan := ⟨typ, z.rest.length - z'.rest.length, z'.n - z.n⟩
      if z.rest.headD true then [one] else one :: blockSpans total ulen fuel z'
    | .error _ => []

/-- Whether a block is one that a deflate lane emits under PARAM (R83, R84): at most 64 KiB of input; stored where CHAIN is 0, and
otherwise stored, fixed-Huffman or dynamic-Huffman as FIXED says; and a coded block no larger than the stored one. -/
def BlockSpan.allowed (b : BlockSpan) (param : Nat) : Bool :=
  b.n ≤ 65536 &&
    (b.typ == 0 || (param % 256 != 0 && b.typ == (if bit param 9 then 1 else 2) && b.bits ≤ 8 * (b.n + 5)))

/-- The compressed bytes of a deflate lane (R84, R85): the free choice of the lane, held to what any RFC 1951 decoder expands back
to the source, and to the blocks that R83 and R84 allow it; else stored blocks. Which of at most CHAIN candidates a match takes,
and what LAZY changes, stays free. -/
def deflateBytes (src : List Byte) (param : Nat) : List Byte :=
  let c := Config.deflate src param
  let z := inflate c src.length
  let bs := bitsOf c
  if z.err == none && z.out == src && z.used == c.length
      && (blockSpans bs.length src.length (bs.length + 1) ⟨bs, [], 0⟩).all fun b => b.allowed param then c
  else storedBlocks (src.length + 1) src

end Sys2Proof.Machine
end

