-- ==== Sys2Proof/Machine/Link.lean ====
section
/-! DEFINITION. The transmitter of a Fuvor port (R435–R440): transactions, credits and the replay buffer. The blocks that
send on a port use it. -/

namespace Sys2Proof.Machine

/-- The states of the TWN (R476). -/
def twSolo : Nat := 0
def twPairing : Nat := 1
def twActive : Nat := 2
def twStandby : Nat := 3
def twCastling : Nat := 4
def twDeposed : Nat := 5

def State.twnState (s : State) : Nat := s.get F.TWN_STAT_STATE

/-- The states of a port (R428). -/
def fvDown : Nat := 0
def fvClock : Nat := 1
def fvTrain : Nat := 2
def fvConfig : Nat := 3
def fvStep : Nat := 4
def fvActive : Nat := 5
def fvRetrain : Nat := 6

def State.fvState (s : State) (p : Nat) : Nat := s.get (F.FVL_PORT_STAT_STATE p)
def State.fvPort (s : State) (p : Nat) : FvlPort := Sparse.get (fun _ => {}) s.fvl.port p
def State.setFvPort (s : State) (p : Nat) (v : FvlPort) : State :=
  { s with fvl := { s.fvl with port := Sparse.set (fun _ => {}) s.fvl.port p v } }

def FvlPort.cls (v : FvlPort) (c : Nat) : CreditClass := Sparse.get (fun _ => {}) v.credit c
def FvlPort.setCls (v : FvlPort) (c : Nat) (k : CreditClass) : FvlPort :=
  { v with credit := Sparse.set (fun _ => {}) v.credit c k }

/-- The credit class of a transaction by its TTYPE (R438): P 0, NP 1, CPL 2. -/
def creditClass (ttype : Nat) : Nat := if ttype = 2 then 1 else if ttype = 3 then 2 else 0

/-- Word 0 of a transaction (R439). -/
def txHeader (ttype dest src tag spec : Nat) : DWord :=
  BitVec.ofNat 64 (ttype % 16 + 2 ^ 8 * (dest % 1024) + 2 ^ 18 * (src % 1024) + 2 ^ 32 * (tag % 256) + 2 ^ 40 * (spec % 2 ^ 24))

/-- TTYPE of a transaction. -/
def txType (words : List DWord) : Nat := (words.headD 0).toNat % 16

/-- The bytes of a frame with `n` words (R436). -/
def frameBytes (n : Nat) : Nat := 8 + 8 * n

/-- A block time of a rate code in tenths of a Tempo unit (R424). -/
def blockTenths : Nat → Nat
  | 0 => 4160
  | 1 => 2080
  | 2 => 1040
  | 3 => 650
  | 4 => 416
  | _ => 325

/-- A frame's bytes (R436): its 4-byte head of FTYPE, bits [15:8] and bits [31:16], its words, and the CRC-32 over them. -/
def frameImage (ftype mid top : Nat) (words : List DWord) : List Byte :=
  let b := toBytes 4 (ftype % 16 + 2 ^ 8 * (mid % 256) + 2 ^ 16 * (top % 65536)) ++ words.flatMap fun w => toBytes 8 w.toNat
  b ++ toBytes 4 (crc32 b)

/-- The seed of a lane's scrambler (R425). -/
def seedOf (lane : Nat) : Nat := 0x5A5A5A5A + lane

/-- Bytes of the stream of a direction of `w` lanes, from offset `at_` on (R435): byte b of a row of 16w goes to lane b mod w, at
position b div w; the lane's scrambler, seeded at the SDS, advances with each byte of the lane's data blocks (R425). -/
def placed (w at_ : Nat) (bytes : List Byte) : List LaneByte :=
  bytes.zipIdx.map fun p =>
    let b := (at_ + p.2) % (16 * w)
    let row := (at_ + p.2) / (16 * w)
    { row := row, lane := b % w, pos := b / w, byte := p.1,
      wire := p.1 ^^^ Config.scrambler (seedOf (b % w)) (16 * row + b / w) }

/-- A frame goes on the lanes of port `p` behind the last one (R435). A transmitter with nothing to send sends IDLE frames of 8 bytes, so
some whole number of them stands before it: how many of those that the time since the last frame holds is free, and a TIME frame
has as many as bring it to the start of a block row. Every frame is a multiple of 8 bytes long, so each starts at one. -/
def State.putFrame (s : State) (p ftype mid top : Nat) (words : List DWord) (atRow : Bool := false) : State :=
  let v := s.fvPort p
  let w := 2 ^ s.get (F.FVL_PORT_STAT_WIDTH_OUT p)
  let room := 20 * w * (s.now - v.idleAt) / blockTenths (s.get (F.FVL_PORT_STAT_RATE p))
  let n := (Config.undefWord (2 ^ 122 + 2 ^ 80 * p + 2 ^ 90 * v.txAt + s.now)).toNat % (room + 1)
  let n := if atRow then n + (2 * w - (v.txAt / 8 + n) % (2 * w)) % (2 * w) else n
  let at_ := v.txAt + 8 * n
  let bytes := frameImage ftype mid top words
  (s.setFvPort p { v with txAt := at_ + bytes.length, idleAt := s.now }).emit (.lanes p n (placed w at_ bytes))

/-- A DATA frame with its SEQ (R436). -/
def State.putData (s : State) (p seq : Nat) (words : List DWord) : State :=
  (s.putFrame p 1 (words.length - 1) seq words).emit (.frame p seq words)

/-- An ACK or a NAK with the SEQ of the last frame received in order (R436, R437). -/
def State.putAck (s : State) (p : Nat) (nak : Bool) (seq : Nat) : State :=
  (s.putFrame p (if nak then 4 else 3) 0 seq []).emit (.ack p nak seq)

/-- A CREDIT frame (R436, R438). -/
def State.putCredit (s : State) (p cls freed : Nat) : State := (s.putFrame p 5 cls freed []).emit (.credit p cls freed)

/-- A TIME transaction to every endpoint of the port, alone in an UNSEQ frame at the start of a block row (R439, R442). -/
def State.putTime (s : State) (p mode tag tempo : Nat) : State :=
  (s.putFrame p 2 1 0 [txHeader 6 0x3FF 0 tag mode, BitVec.ofNat 64 tempo] true).emit (.time p mode tag tempo)

/-- Whether the port sends: ACTIVE, and its transmitter awake. -/
def State.fvSends (s : State) (p : Nat) : Bool := s.fvState p == fvActive && !s.on (F.FVL_PORT_STAT_TX_SLEEP p)

/-- The oldest waiting transaction that may be sent: the replay buffer has room and its class has the credit (R437, R438). A
transaction whose class lacks credit holds no other class back. -/
def FvlPort.next (v : FvlPort) : Option LinkTx :=
  if 64 ≤ v.sent.length then none
  else v.txq.find? fun t =>
    let k := v.cls (creditClass (txType t.words))
    t.words.length ≤ (k.limit + 65536 - k.consumed) % 65536
      && (v.txq.find? fun u => creditClass (txType u.words) == creditClass (txType t.words)) == some t

/-- One transaction is sent as a DATA frame. -/
def State.fvTransmit (s : State) (p : Nat) (t : LinkTx) : State :=
  let v := s.fvPort p
  let c := creditClass (txType t.words)
  let k := v.cls c
  let v := { v.setCls c { k with consumed := (k.consumed + t.words.length) % 65536 } with
    txq := v.txq.erase t, sent := v.sent ++ [(v.seq, t)], seq := (v.seq + 1) % 65536,
    timerAt := if v.sent = [] then s.now else v.timerAt, tries := if v.sent = [] then 0 else v.tries }
  let seq := (s.fvPort p).seq
  let s := (s.setFvPort p v).bump (F.FVL_PORT_FRAMES_TX p)
  ((s.tally 0x0F p 0).countBytes (64 + 2 * p) (frameBytes t.words.length)).putData p seq t.words

/-- Everything that may be sent is sent, in order. -/
def State.fvFlushAux (s : State) (p : Nat) : Nat → State
  | 0 => s
  | fuel + 1 =>
    match (s.fvPort p).next with
    | some t => (s.fvTransmit p t).fvFlushAux p fuel
    | none => s

def State.fvFlush (s : State) (p : Nat) : State :=
  if s.fvSends p then s.fvFlushAux p (s.fvPort p).txq.length else s

/-- Whether a port's link is up (R441): ACTIVE or RETRAIN, and in the rate rounds of an UPSHIFT (R433), since its client sees it go down only
when the port enters DOWN. -/
def State.fvUp (s : State) (p : Nat) : Bool := s.fvState p == fvActive || s.fvState p == fvRetrain || (s.fvPort p).up

/-- A transaction is handed to a port: it waits, and is sent as soon as the link takes it; a port whose link is down takes
none (R428, R441). -/
def State.fvSend (s : State) (p : Nat) (t : LinkTx) : State :=
  if s.fvUp p then
    let v := s.fvPort p
    (s.setFvPort p { v with txq := v.txq ++ [t] }).fvFlush p
  else s

/-- An error of the FVL: the first detail word gives the port, the second the endpoint, SEQ or rate code (R450). -/
def fvlErr (s : State) (cls cause p x : Nat) : State := s.logErr siteFvl cls cause [p, x]

/-- A transaction to an endpoint goes to the port of its entry, or is discarded (R440). -/
def State.sendTo (s : State) (ep : Nat) (t : LinkTx) : State :=
  if ep != 0 && s.on (F.FVL_EP_VALID ep) then s.fvSend (s.get (F.FVL_EP_PORT ep)) t
  else fvlErr s 0x01 0x003 (s.get (F.FVL_EP_PORT ep)) ep

/-- What the client of port `p` sends to an endpoint, while its link is up (R440, R441). -/
def State.clientSend (s : State) (p dest : Nat) (words : List DWord) : State :=
  if s.fvUp p then s.sendTo dest { words := words } else s

/-- A STREAM to an endpoint: the stream header and its payload (R439). -/
def State.sendStream (s : State) (p dest : Nat) (words : List DWord) : State :=
  s.clientSend p dest (txHeader 5 dest 0 0 0 :: words)

/-- Values packed two to a word (R439). -/
def packWords : List Word → List DWord
  | [] => []
  | [a] => [BitVec.ofNat 64 a.toNat]
  | a :: b :: l => BitVec.ofNat 64 (a.toNat + 2 ^ 32 * b.toNat) :: packWords l

/-- A POSTED_WRITE to an endpoint (R439). -/
def State.sendWrite (s : State) (p dest addr : Nat) (vals : List Word) : State :=
  s.clientSend p dest (txHeader 1 dest 0 0 (vals.length - 1) :: BitVec.ofNat 64 addr :: packWords vals)

/-- A DOT fragment (R152), a write of the bridge (R167), a packet to a camera (R204) and a TWN message (R490), as the
blocks hand them to their ports: to the endpoint that the link's or the port's ENDPOINT names (R174, R227), or to the partner. -/
def State.sendDot (s : State) (l : Nat) (f : List DWord) : State :=
  (s.emit (.dot l f)).sendStream l (s.get (F.FTU_LINK_CFG_ENDPOINT l)) f
def State.sendBridge (s : State) (l off : Nat) (vals : List Word) : State :=
  (s.emit (.bridge l off vals)).sendWrite l (s.get (F.FTU_LINK_CFG_ENDPOINT l)) off vals
def State.sendCamera (s : State) (n dt trig : Nat) (words : List DWord) : State :=
  (s.emit (.camera n dt trig words)).sendStream (32 + n) (s.get (F.CIN_PORT_CTRL_ENDPOINT n))
    (BitVec.ofNat 64 (dt % 256 + 2 ^ 10 + 2 ^ 11 + 2 ^ 14 * ((words.length - 1) % 64) + 2 ^ 32 * (trig % 2 ^ 32)) :: words)
def State.sendTwin (s : State) (mtype : Nat) (words : List DWord) : State :=
  (s.emit (.twin mtype words)).sendStream 52 (s.get (F.FVL_PORT_PARTNER_EP 52)) (BitVec.ofNat 64 (mtype % 256 + 2 ^ 16 * (words.length % 256)) :: words)

/-- A message of the TWN with its AES-GMAC tag (R478, R490). -/
def State.twinTagged (s : State) (mtype : Nat) (words : List DWord) : State :=
  s.sendTwin mtype (words ++ [Config.twinTag words 0, Config.twinTag words 1])

end Sys2Proof.Machine
end

