-- ==== Sys2Proof/Machine/Cmp.lean ====
section
/-! DEFINITION. Job ingest and compression (03): ingest rings, header checks, inflate lanes, tile
publication, planes and deflate lanes. -/

namespace Sys2Proof.Machine

/-! ### Planes (R67, R71, R90) -/

/-- Whether an enabled binding of bank `b` of pipe `n` names plane `p` (R71). -/
def State.bankNames (s : State) (n b p : Nat) : Bool :=
  (List.range 4).any fun j =>
    s.on (F.RP_BANK_BIND_CFG_EN n b j) && s.get (F.RP_BANK_BIND_CFG_PLANE n b j) == p

/-- Whether a plane is bound to a render pipe or to the RRU (R71): one that drains still reads its planes, so a unit counts as
enabled until it is DISABLED. -/
def State.planeBound (s : State) (p : Nat) : Bool :=
  (List.range 8).any (fun n => s.get (F.RP_STAT_STATE n) != 0 && s.bankNames n (s.get (F.RP_STAT_ACTIVE_BANK n)) p)
    || (s.get F.RRU_STAT_STATE != 0 && (List.range 8).any fun c =>
      let b := s.get F.RRU_STAT_ACTIVE_BANK
      s.on (F.RRU_BANK_CH_CFG_EN b c)
        && s.bankNames (s.get (F.RRU_BANK_CH_CFG_PIPE b c)) (s.get (F.RRU_BANK_CH_CFG_PBANK b c)) p)

/-- Whether the tile exponents are in range (R67). -/
def geomOk (tw th : Nat) : Bool := 6 ≤ tw && tw ≤ 12 && 6 ≤ th && th ≤ 12

/-- Setting EN of a plane: refused while the plane is bound (R71, cause 0x002), and with an exponent out
of range (R90, cause 0x005). -/
def State.planeEnable (s : State) (p : Nat) : State :=
  if s.on (F.CMP_PLANE_GEOM2_EN p) then s
  else if s.planeBound p then s.logErr siteCmp 0x01 0x002 [0, 0, 0, p]
  else if geomOk (s.get (F.CMP_PLANE_GEOM_TW_LOG2 p)) (s.get (F.CMP_PLANE_GEOM_TH_LOG2 p)) then
    s.put (F.CMP_PLANE_GEOM2_EN p) 1
  else s.logErr siteCmp 0x01 0x005 [0, 0, 0, p]

def execPlaneEnable (dt : Nat) (who : Requester) (p : Fin 64) (s : State) : Res :=
  regCmd dt who (O.CMP_PLANE_GEOM2 p) (fun s => s.planeEnable p) s

/-- The address of a plane's map entry (R68). -/
def State.mapEntry (s : State) (p idx : Nat) : Nat := s.get (F.CMP_PLANE_MAP_BASE p) + 8 * idx

/-- The number of entries of a plane's map (R68). -/
def State.mapSize (s : State) (p : Nat) : Nat :=
  (s.get (F.CMP_PLANE_GEOM_COLS_M1 p) + 1) * (s.get (F.CMP_PLANE_GEOM2_ROWS_M1 p) + 1)

/-- The bytes of a tile (R67). -/
def State.tileBytes (s : State) (p : Nat) : Nat :=
  2 ^ (s.get (F.CMP_PLANE_GEOM_TW_LOG2 p) + s.get (F.CMP_PLANE_GEOM_TH_LOG2 p))

/-! ### Rings (R75–R77) -/

def State.ringRecs (s : State) (r : Nat) : List TileRec := Sparse.get (fun _ => []) s.cmp.recs r

def State.setRingRecs (s : State) (r : Nat) (l : List TileRec) : State :=
  { s with cmp := { s.cmp with recs := Sparse.set (fun _ => []) s.cmp.recs r l } }

def State.ringParsed (s : State) (r : Nat) : Nat := Sparse.get (fun _ => 0) s.cmp.parsed r

def State.setRingParsed (s : State) (r n : Nat) : State :=
  { s with cmp := { s.cmp with parsed := Sparse.set (fun _ => 0) s.cmp.parsed r n } }

def State.ringSize (s : State) (r : Nat) : Nat := 2 ^ s.get (F.CMP_RING_CFG_SIZE_LOG2 r)

/-- How far a free-running 64-bit count lies ahead of another (R75, R549). -/
def ahead (a b : Nat) : Nat := (a + 2 ^ 64 - b % 2 ^ 64) % 2 ^ 64

/-- The bytes of a ring from CONS up to a count (R75). -/
def State.pastCons (s : State) (r count : Nat) : Nat := ahead count (s.get (F.CMP_RING_CONS r))

/-- The address a ring count maps to (R75). -/
def State.ringAddr (s : State) (r count : Nat) : Nat := s.get (F.CMP_RING_BASE r) + count % s.ringSize r

/-- `n` bytes of a ring from a count on, wrapping at its end (R75). -/
def State.ringRead (s : State) (r count n : Nat) : Option (List Byte) × State :=
  let first := min n (s.ringSize r - count % s.ringSize r)
  let (a, s) := s.memRead 10 (s.ringAddr r count) first
  let (b, s) := s.memRead 10 (s.ringAddr r (count + first)) (n - first)
  match a, b with
  | some a, some b => (some (a ++ b), s)
  | _, _ => (none, s)

/-- The bytes of a ring from a count on, up to `n` or to the first that memory cannot deliver. -/
def State.ringReadTo (s : State) (r count n : Nat) : List Byte × State :=
  let first := min n (s.ringSize r - count % s.ringSize r)
  let (a, s) := s.memReadTo 10 (s.ringAddr r count) first
  if a.length < first then (a, s)
  else
    let (b, s) := s.memReadTo 10 (s.ringAddr r (count + first)) (n - first)
    (a ++ b, s)

/-- The detail words of a CMP error (R545): ring, SEQ, JOB_ID, PLANE, MAP_INDEX, bytes consumed. -/
def TileRec.details (t : TileRec) (consumed : Nat) : List Nat :=
  [t.ring, t.seq, t.job, t.plane, t.mapIndex, consumed]

/-- A ring halts (R76, R77). -/
def State.haltRing (s : State) (r cause : Nat) (details : List Nat) : State :=
  let s := (s.put (F.CMP_RING_STAT_HALTED r) 1).flag (F.CMP_RING_STAT_HALT_SEEN r)
  let s := s.put F.CMP_STATUS_HALTED (setBits (s.get F.CMP_STATUS_HALTED) r r 1)
  (s.raise (192 + r)).logErr siteCmp 0x02 cause details

/-- A failed or skipped record: logged, counted, shown in LAST_ERR, event 4 + r (R77, R80). -/
def State.failRec (s : State) (t : TileRec) (cause consumed : Nat) : State :=
  let s := s.logErr siteCmp 0x02 cause (t.details consumed)
  let s := (s.put (F.CMP_RING_LAST_ERR_SEQ t.ring) t.seq).put (F.CMP_RING_LAST_ERR_CODE t.ring)
    (errCode 0x03 0x02 0 cause)
  (s.bump F.CMP_STREAM_ERRS).raise (196 + t.ring)

/-- CONS moves past the records at the head of a ring that have finished, in ring order (R75). -/
def State.retire (s : State) (r : Nat) : State :=
  let l := s.ringRecs r
  let done := l.takeWhile (·.done)
  let cons := done.foldl (fun c t => c + t.len) (s.get (F.CMP_RING_CONS r))
  let s := (s.setRingRecs r (l.drop done.length)).put (F.CMP_RING_CONS r) cons
  s.put (F.CMP_RING_STAT_EMPTY r) (b2n (cons % 2 ^ 64 == s.get (F.CMP_RING_PROD r)))

/-- The fields of a record's header (R72). -/
def parseRec (r count : Nat) (h : List Byte) : TileRec :=
  let f := fun (o n : Nat) => ofBytes ((h.drop o).take n)
  { ring := r, at_ := count, len := (64 + f 24 4 + 63) / 64 * 64, plane := f 8 1, mapIndex := f 12 4,
    slot := f 16 8, clen := f 24 4, ulen := f 28 4, check := f 32 4, seq := f 36 4, job := f 40 4 }

/-- The first header check that fails and halts the ring (R76). -/
def haltCause (h : List Byte) (t : TileRec) (size : Nat) : Option Nat :=
  let f := fun (o n : Nat) => ofBytes ((h.drop o).take n)
  if f 0 4 ≠ 0x3153544C || f 4 2 ≠ 1 || f 6 1 ≠ 0 || f 7 1 ≠ 0 || f 9 3 ≠ 0 || f 44 16 ≠ 0 then some 0x010
  else if f 60 4 ≠ crc32 (h.take 60) then some 0x011
  else if size < t.len then some 0x014
  else none

/-- Whether the record's target entry is VALID and points to the record's slot (R76). -/
def State.slotInUse (s : State) (t : TileRec) : Bool × State :=
  let (e, s) := s.memReadNat 10 (s.mapEntry t.plane t.mapIndex) 8
  match e with
  | some e => (bit e 0 && bits e 45 6 * 64 == t.slot, s)
  | none => (false, s)

/-- The first header check that fails and skips the record (R76). -/
def State.skipCause (s : State) (t : TileRec) : Option Nat × State :=
  let p := t.plane
  if 64 ≤ p || !s.on (F.CMP_PLANE_GEOM2_EN p) || s.mapSize p ≤ t.mapIndex || t.ulen ≠ s.tileBytes p
      || t.slot % 64 ≠ 0 then (some 0x012, s)
  else
    let (used, s) := s.slotInUse t
    (if used then some 0x013 else none, s)

/-- The headers that PROD − CONS covers, checked in order until the ring halts (R76). -/
def State.parseHeaders (s : State) (r : Nat) : Nat → State
  | 0 => s
  | fuel + 1 =>
    let at_ := s.ringParsed r
    if s.on (F.CMP_RING_STAT_HALTED r) || !s.on (F.CMP_RING_CFG_EN r)
        || s.pastCons r (s.get (F.CMP_RING_PROD r)) < s.pastCons r at_ + 64 then s
    else
      let (h, s) := s.ringRead r at_ 64
      match h with
      | none => s.haltRing r 0x011 [r]
      | some h =>
        let t := parseRec r at_ h
        match haltCause h t (s.ringSize r) with
        | some c => s.haltRing r c (t.details 0)
        | none =>
          let (skip, s) := s.skipCause t
          let s := s.setRingParsed r ((at_ + t.len) % 2 ^ 64)
          let s := match skip with
            | some c => (s.failRec t c 0).setRingRecs r (s.ringRecs r ++ [{ t with done := true }])
            | none => s.setRingRecs r (s.ringRecs r ++ [t])
          (s.retire r).parseHeaders r fuel

/-- Header checks for all that a ring's PROD covers. -/
def State.scanRing (s : State) (r : Nat) : State :=
  s.parseHeaders r (s.pastCons r (s.get (F.CMP_RING_PROD r)) / 64 + 1)

/-- Enabling a ring: a bad BASE or SIZE_LOG2 leaves it off with cause 0x001 (R75). -/
def State.ringEnable (s : State) (r : Nat) : State :=
  let l := s.get (F.CMP_RING_CFG_SIZE_LOG2 r)
  if s.on (F.CMP_RING_CFG_EN r) then s
  else if 12 ≤ l && l ≤ 32 && s.get (F.CMP_RING_BASE r) % 2 ^ l == 0 then
    let s := (s.put (F.CMP_RING_CFG_EN r) 1).setRingRecs r []
    (s.setRingParsed r (s.get (F.CMP_RING_CONS r))).scanRing r
  else s.logErr siteCmp 0x01 0x001 [r]

def execCmpRingEnable (dt : Nat) (who : Requester) (r : Fin 4) (s : State) : Res :=
  regCmd dt who (O.CMP_RING_CFG r) (fun s => s.ringEnable r) s

/-- A PROD write (R75): discarded with cause 0x003 unless a multiple of 64 between CONS and CONS + size. -/
def State.setProd (s : State) (r v : Nat) : State :=
  if v % 64 = 0 && s.pastCons r v ≤ s.ringSize r then
    let s := (s.put (F.CMP_RING_PROD r) v).put (F.CMP_RING_STAT_EMPTY r) (b2n (s.pastCons r v == 0))
    s.scanRing r
  else s.logErr siteCmp 0x01 0x003 [r]

/-- A high-word write of a 64-bit register: it takes effect with the pending or the current low word (R6). -/
def highCmd (dt : Nat) (who : Requester) (off : Nat) (hi : Word) (effect : Nat → State → State)
    (s : State) : Res :=
  regCmd dt who off (fun s => effect (s.joined who off hi) (s.consumeLow who off)) s

def execRingProdWrite (dt : Nat) (who : Requester) (r : Fin 4) (hi : Word) (s : State) : Res :=
  highCmd dt who (O.CMP_RING_PROD r) hi (fun v s => s.setProd r v) s

/-- A CONS write: taken only while the ring is halted (R77). Records still in lanes finish, and no longer move CONS. -/
def State.setCons (s : State) (r v : Nat) : State :=
  if s.on (F.CMP_RING_STAT_HALTED r) then
    ((s.setRingRecs r []).put (F.CMP_RING_CONS r) v).put (F.CMP_RING_STAT_EMPTY r) (b2n (v == s.get (F.CMP_RING_PROD r)))
  else s

def execRingConsWrite (dt : Nat) (who : Requester) (r : Fin 4) (hi : Word) (s : State) : Res :=
  highCmd dt who (O.CMP_RING_CONS r) hi (fun v s => s.setCons r v) s

/-- RESUME of a halted ring: it goes on from CONS (R77). -/
def State.ringResume (s : State) (r : Nat) : State :=
  if s.on (F.CMP_RING_STAT_HALTED r) then
    let s := s.put (F.CMP_RING_STAT_HALTED r) 0
    let s := s.put F.CMP_STATUS_HALTED (setBits (s.get F.CMP_STATUS_HALTED) r r 0)
    ((s.setRingRecs r []).setRingParsed r (s.get (F.CMP_RING_CONS r))).scanRing r
  else s

def execRingResume (dt : Nat) (who : Requester) (r : Fin 4) (s : State) : Res :=
  regCmd dt who (O.CMP_RING_CFG r) (fun s => s.ringResume r) s

/-! ### Inflate lanes (R78–R80) -/

def State.lane (s : State) (l : Nat) : Option TileRec := Sparse.get (fun _ => none) s.cmp.lanes l

def State.setLane (s : State) (l : Nat) (t : Option TileRec) : State :=
  { s with cmp := { s.cmp with lanes := Sparse.set (fun _ => none) s.cmp.lanes l t } }

/-- The lowest idle inflate lane below INF_LANES (R78). -/
def State.idleLane (s : State) : Option Nat :=
  (List.range (min 32 (s.get F.CMP_CTRL_INF_LANES))).find? fun l => s.lane l == none

/-- The next record of a ring that may be dispatched: the first not yet in a lane, wholly below PROD, with
no earlier record of the ring for the same entry still in a lane (R76, R78). -/
def State.nextRec (s : State) (r : Nat) : Option TileRec :=
  let l := (s.ringRecs r).filter fun t => !t.done
  match l.find? fun t => t.lane == none with
  | some t =>
    let clash := s.cmp.lanes.any fun p => match p.2 with
      | some u => u.ring == r && u.plane == t.plane && u.mapIndex == t.mapIndex
      | none => false
    if s.on (F.CMP_RING_STAT_HALTED r) || !s.on (F.CMP_RING_CFG_EN r) || clash
        || s.pastCons r (s.get (F.CMP_RING_PROD r)) < s.pastCons r t.at_ + t.len then none
    else some t
  | none => none

/-- The ring whose turn it is among those with a record to dispatch (R78). -/
def State.nextRing (s : State) : Option Nat :=
  let first := match s.cmp.lastRing with
    | some r => r + 1
    | none => 0
  ((List.range 4).map fun i => (first + i) % 4).find? fun r => (s.nextRec r).isSome

/-- Words of bytes, eight to a word. -/
def byteWords : Nat → List Byte → List DWord
  | 0, _ => []
  | n + 1, bs => if bs = [] then [] else BitVec.ofNat 64 (ofBytes (bs.take 8)) :: byteWords n (bs.drop 8)

/-- The active twin sends a record that it dispatches to the standby, where the ring is mirrored (R481, R490). -/
def State.mirrorRecord (s : State) (r : Nat) (t : TileRec) : State :=
  if s.twnState = twActive && bit (s.get F.TWN_CTRL_RING_MIRROR) r && !s.twn.lost then
    let bs := (List.range t.len).map fun i => s.byteAt (s.ringAddr r (t.at_ + i))
    (List.range ((t.len + 495) / 496)).foldl (fun (s : State) i =>
      let part := (bs.drop (496 * i)).take 496
      s.sendTwin 0x04 ([BitVec.ofNat 64 r, BitVec.ofNat 64 part.length] ++ byteWords 62 part)) s
  else s

/-- A record of a ring is skipped after its header check: it finishes at once (R77). -/
def State.skipRec (s : State) (t : TileRec) (cause : Nat) : State :=
  let s := (s.failRec t cause 0).setRingRecs t.ring ((s.ringRecs t.ring).map fun u => if u == t then { u with done := true } else u)
  s.retire t.ring

/-- A record goes to a lane (R78). DEDUCED (assumption 92): the entry is tested against the slot once more, since an earlier record
of the ring may have published it after the header check, and the CMP never writes into the slot that an entry points to (R76). -/
def State.dispatch (s : State) : State :=
  match s.nextRing, s.idleLane with
  | some r, some l =>
    match s.nextRec r with
    | some t =>
      let s := { s with cmp := { s.cmp with lastRing := some r } }
      let (used, s) := s.slotInUse t
      if used then s.skipRec t 0x013
      else
      let s := s.setRingRecs r ((s.ringRecs r).map fun u => if u == t then { u with lane := some l } else u)
      let s := (s.setLane l (some t)).put (F.CMP_IL_STAT_BUSY l) 1
      let s := (s.put (F.CMP_IL_STAT_RING l) r).put (F.CMP_IL_STAT_SEQ l) t.seq
      (s.bump F.CMP_STATUS_INF_BUSY).mirrorRecord r t
    | none => s
  | _, _ => s

def execRecordDispatch (dt : Nat) (s : State) : Res :=
  evCmd dt (fun s => s.nextRing.isSome && s.idleLane.isSome) State.dispatch s

/-- The tile is published: one 64-bit write of the map entry, GEN one up (R69). -/
def State.publish (s : State) (t : TileRec) : State :=
  let a := s.mapEntry t.plane t.mapIndex
  let gen := bits (s.peekNat a 8) 63 48
  let e := 1 + 2 ^ 6 * bits t.slot 45 6 + 2 ^ 48 * ((gen + 1) % 2 ^ 16)
  ((s.memWriteNat 10 a 8 e).2).bump F.CMP_TILES

/-- The slot of a failed load holds undefined bytes (R79). -/
def State.scramble (s : State) (t : TileRec) : State :=
  let (v, s) := s.draw
  (s.memWrite 10 t.slot ((List.range t.ulen).map fun i =>
    BitVec.ofNat 8 (Config.undefWord (2 ^ 32 * v.toNat + i)).toNat)).2

/-- The first error of a stream of which memory delivered the bytes `data` (R79): a stream that runs out before its CLEN bytes
met a byte that memory could not deliver. -/
def streamErr (t : TileRec) (data : List Byte) (z : Inflated) : Option Nat :=
  if z.err = some 0x025 ∧ data.length < t.clen then some 0x027
  else if z.err = none ∧ crc32 z.out ≠ t.check then some 0x024
  else z.err

/-- A lane ends its stream (R79, R80): the expansion written and checked, then the tile published; or the
first error reported. The manual has no cause for an output write that fails: DESIGN CHOICE (assumption 33), cause 0x027. -/
def State.endStream (s : State) (l : Nat) (t : TileRec) : State :=
  let (data, s) := s.ringReadTo t.ring (t.at_ + 64) t.clen
  let z := inflate data t.ulen
  let s := (s.bump F.CMP_IN_BYTES z.used).bump F.CMP_OUT_BYTES z.n
  let s := match streamErr t data z with
    | some c => (s.failRec t c z.used).scramble t
    | none =>
      let (ok, s) := s.memWrite 10 t.slot z.out
      if ok then s.publish t else (s.failRec t 0x027 z.used).scramble t
  let s := (s.setLane l none).put (F.CMP_IL_STAT_BUSY l) 0
  let s := s.put F.CMP_STATUS_INF_BUSY (s.get F.CMP_STATUS_INF_BUSY - 1)
  let s := s.setRingRecs t.ring ((s.ringRecs t.ring).map fun u =>
    if u.at_ == t.at_ && u.lane == some l then { u with done := true } else u)
  s.retire t.ring

def execInflateStreamEnd (dt : Nat) (lane : Fin 32) (s : State) : Res :=
  evCmd dt (fun s => (s.lane lane).isSome) (fun s =>
    match s.lane lane with
    | some t => s.endStream lane t
    | none => s) s

/-! ### Deflate lanes (R83–R86) -/

def State.deflLane (s : State) (l : Nat) : Option Nat := Sparse.get (fun _ => none) s.cmp.defl l

def State.setDeflLane (s : State) (l : Nat) (d : Option Nat) : State :=
  { s with cmp := { s.cmp with defl := Sparse.set (fun _ => none) s.cmp.defl l d } }

/-- DQ_PROD takes the submitted count (R83). -/
def execDqProdWrite (dt : Nat) (who : Requester) (v : Word) (s : State) : Res :=
  regCmd dt who O.CMP_DQ_PROD (fun s => s.put F.CMP_DQ_PROD v.toNat) s

/-- The lowest idle deflate lane below DEF_LANES (R84). -/
def State.idleDefl (s : State) : Option Nat :=
  (List.range (min 8 (s.get F.CMP_CTRL_DEF_LANES))).find? fun l => s.deflLane l == none

/-- Whether a descriptor waits in the enabled queue. -/
def State.descWaiting (s : State) : Bool :=
  s.on F.CMP_DQ_CFG_EN && s.cmp.nextDesc % 2 ^ 32 != s.get F.CMP_DQ_PROD

/-- An idle lane takes the next descriptor in queue order (R84). -/
def State.takeDesc (s : State) : State :=
  match s.idleDefl with
  | some l =>
    let s := (s.setDeflLane l (some s.cmp.nextDesc)).bump F.CMP_STATUS_DEF_BUSY
    { s with cmp := { s.cmp with nextDesc := (s.cmp.nextDesc + 1) % 2 ^ 32 } }
  | none => s

def execDescriptorDispatch (dt : Nat) (s : State) : Res :=
  evCmd dt (fun s => s.descWaiting && s.idleDefl.isSome) State.takeDesc s

/-- The header of a KIND 1 record (R72, R85). -/
def archiveHeader (clen ulen check tag job : Nat) : List Byte :=
  let h := toBytes 4 0x3153544C ++ toBytes 2 1 ++ [1, 0, 0, 0, 0, 0] ++ toBytes 4 0 ++ toBytes 8 0
    ++ toBytes 4 clen ++ toBytes 4 ulen ++ toBytes 4 check ++ toBytes 4 tag ++ toBytes 4 job
    ++ List.replicate 16 0
  h ++ toBytes 4 (crc32 h)

/-- A descriptor ends: STATUS and OUTLEN written last, then DQ_CONS advances; an error is logged with the descriptor count and, as
R80's fields, the TAG and JOB_ID of `ids`, and raises event 9; EVENT = 1 raises event 8 at completion (R83, R85, R86, R89). An
error sets ERROR alone: DONE stands for a complete record (R85). DESIGN CHOICE (assumption 93): an EVENT = 1 descriptor that ends
with ERROR raises event 9 and not event 8, and a write error on STATUS and OUTLEN changes nothing else. -/
def State.endDesc (s : State) (l d addr outlen : Nat) (err : Option (Nat × Nat)) (event : Bool) (ids : List Nat := []) : State :=
  let status := match err with
    | some (_, c) => 2 + c * 16
    | none => 1
  let s := (s.memWrite 11 (addr + 56) (toBytes 4 status ++ toBytes 4 outlen)).2
  let s := (s.setDeflLane l none).put F.CMP_STATUS_DEF_BUSY (s.get F.CMP_STATUS_DEF_BUSY - 1)
  let s := s.bump F.CMP_DQ_CONS
  match err with
  | some (cls, c) => ((s.flag F.CMP_DQ_STAT_ERR_SEEN).logErr siteCmp cls c (d :: ids)).raise (192 + 9)
  | none => if event then s.raise (192 + 8) else s

/-- A lane finishes descriptor `d` (R83–R86). DESIGN CHOICE (assumption 93): a descriptor that memory cannot deliver ends with
ERROR, cause 0x027 and event 9, and a write error on the data or the header changes nothing else. -/
def State.deflate (s : State) (l d : Nat) : State :=
  let addr := s.get F.CMP_DQ_BASE + 64 * (d % 2 ^ s.get F.CMP_DQ_CFG_SIZE_LOG2)
  let (desc, s) := s.memRead 11 addr 64
  match desc with
  | none => s.endDesc l d addr 0 (some (0x02, 0x027)) false
  | some desc =>
    let f := fun (o n : Nat) => ofBytes ((desc.drop o).take n)
    let (src, slen, param, dst, dcap) := (f 0 8, f 8 4, f 12 4, f 16 8, f 24 4)
    let event := bit param 10
    let ids := [f 28 4, f 32 4]
    if src % 64 ≠ 0 || dst % 64 ≠ 0 || dcap % 64 ≠ 0 || param / 2 ^ 11 ≠ 0 || f 36 20 ≠ 0 then
      s.endDesc l d addr 0 (some (0x01, 0x031)) event ids
    else
      let (bytes, s) := s.memRead 11 src slen
      match bytes with
      | none => s.endDesc l d addr 0 (some (0x02, 0x027)) event ids
      | some bytes =>
        let c := deflateBytes bytes (param % 2 ^ 10)
        let len := (64 + c.length + 63) / 64 * 64
        if dcap < len then
          let s := (s.memWrite 11 (dst + 64) (c.take (dcap - 64))).2
          s.endDesc l d addr 0 (some (0x06, 0x030)) event ids
        else
          let pad := List.replicate (len - 64 - c.length) 0
          let s := (s.memWrite 11 (dst + 64) (c ++ pad)).2
          let s := (s.memWrite 11 dst (archiveHeader c.length slen (crc32 bytes) (f 28 4) (f 32 4))).2
          s.endDesc l d addr len none event

def execDeflateComplete (dt : Nat) (lane : Fin 8) (s : State) : Res :=
  evCmd dt (fun s => (s.deflLane lane).isSome) (fun s =>
    match s.deflLane lane with
    | some d => s.deflate lane d
    | none => s) s

end Sys2Proof.Machine
end

