-- ==== Sys2Proof/Machine/Defect.lean ====
section
/-! DEFINITION. Defect records (10 R271–R275) and how a producer offers a packet to the DFQ (R278). -/

namespace Sys2Proof.Machine

/-- The 16 words of a number of 512 bits. -/
def toWords (n count : Nat) : List Word :=
  (List.range count).map fun i => BitVec.ofNat 32 (n / 2 ^ (32 * i))

/-- The number that words make, the first word lowest. -/
def ofWords : List Word → Nat
  | [] => 0
  | w :: ws => w.toNat + 2 ^ 32 * ofWords ws

/-- The bytes of words, little-endian (R4). -/
def wordBytes (ws : List Word) : List Byte := ws.flatMap fun w => toBytes 4 w.toNat

/-- A field of `w` bits at bit `at_` of a record. -/
def field (at_ w v : Nat) : Nat := 2 ^ at_ * (v % 2 ^ w)

/-- The 64 bytes of a HEADER as 16 words (R271), with `crops` crop descriptors to follow. -/
def Defect.words (d : Defect) (crops : Nat) : List Word :=
  toWords (field 0 2 1 + field 4 4 d.severity + field 8 4 d.cause + field 12 4 crops
    + field 16 5 d.source + field 21 4 d.inst + field 25 3 (d.bar.getD 0) + field 28 1 (b2n d.bar.isSome)
    + field 30 1 (b2n d.xBar)
    + field 64 32 d.job + field 96 32 d.rep + field 128 64 d.wcoStart + field 192 64 d.wcoEnd
    + field 256 64 d.tempo + field 320 32 d.strip
    + field 352 17 d.xStart + field 369 17 d.xEnd + field 386 19 (d.nozzle.getD 0)
    + field 405 1 (b2n d.nozzle.isSome) + field 416 16 d.cameras + field 448 64 d.data) 16

/-- A crop descriptor (R275): its index in the packet, kind, ring count, first line or address, lines or
length, and the pixel span. -/
def cropWords (index kind ringCount first lines u0 u1 : Nat) : List Word :=
  toWords (field 0 2 2 + field 12 4 index + field 16 2 kind + field 64 64 ringCount + field 128 64 first
    + field 192 32 lines + field 224 17 u0 + field 256 17 u1) 16

/-- The producers' order of admission (R278). -/
def rankTwn : Nat := 0
def rankFtu : Nat := 1
def rankRp (n : Nat) : Nat := 2 + n
def rankRru : Nat := 10
def rankIpl : Nat := 11
/-- A push requester: the functions, the engines, then the secure management domain (R278, R281). -/
def rankPush (code : Nat) : Nat :=
  if code < 8 then 12 + code else if code = 8 then 12 + 8 + 192 else 12 + 8 + (code - 16)

/-- A packet of the standby's IPL also goes to the active twin with FWD_DEFECTS = 1 (R482). -/
def State.forward (s : State) (rank : Nat) (recs : List (List Word)) : State :=
  if rank = rankIpl && s.twnState = twStandby && s.on F.TWN_CTRL_FWD_DEFECTS && !s.twn.lost then
    s.sendTwin 0x05 (recs.flatMap packWords)
  else s

/-- A producer offers a packet; it holds it until the DFQ serves it (R278). -/
def State.offer (s : State) (rank : Nat) (recs : List (List Word)) : State :=
  let s := s.forward rank recs
  { s with dfq := { s.dfq with offers := s.dfq.offers ++ [{ rank := rank, recs := recs, at_ := some s.now }] } }

/-- A defect with no crop is offered. -/
def State.issue (s : State) (rank : Nat) (d : Defect) : State := s.offer rank [d.words 0]

/-- The CAUSE_DATA of a DATA_PATH record (R273). -/
def dpData (code firstHead heads : Nat) : Nat := field 0 32 code + field 32 16 firstHead + field 48 16 heads

end Sys2Proof.Machine
end

