-- ==== Sys2Proof/Machine/Rows.lean ====
section
/-! DEFINITION. Firing rows, masks, heads and screens of a pipe's bank (04, 05), as the render pipes, the
FTU, the DGU and the FAB all read them. -/

namespace Sys2Proof.Machine

def State.pipe (s : State) (n : Nat) : Pipe := Sparse.get (fun _ => {}) s.rp n

def State.setPipe (s : State) (n : Nat) (p : Pipe) : State :=
  { s with rp := Sparse.set (fun _ => {}) s.rp n p }

/-- The states of a pipe (R114). -/
def rpDisabled : Nat := 0
def rpIdle : Nat := 1
def rpRendering : Nat := 2
def rpDraining : Nat := 3

def State.pipeState (s : State) (n : Nat) : Nat := s.get (F.RP_STAT_STATE n)

/-- The bank in use (R113): BANK_SEL while DISABLED. -/
def State.activeBank (s : State) (n : Nat) : Nat :=
  if s.pipeState n = rpDisabled then s.get (F.RP_CTRL_BANK_SEL n) else s.get (F.RP_STAT_ACTIVE_BANK n)

/-- WIDTH of a bank (R92). -/
def State.width (s : State) (n b : Nat) : Nat := s.get (F.RP_BANK_CFG_WIDTH_M1 n b) + 1

/-- The generator a pipe is bound to (R91). -/
def State.pipeGen (s : State) (n : Nat) : Nat := s.get (F.RP_CTRL_LG n)

/-- PITCH of a pipe's generator, in 2^-16 nm (R56). -/
def State.pitch (s : State) (n : Nat) : Nat := s.get (F.WTU_LG_PITCH (s.pipeGen n))

/-! ### Rows and sections (R128–R131) -/

/-- The section of quarter `q` of row `f`, where the row is enabled and the quarter mapped (R128, R130). -/
def State.section (s : State) (n b f q : Nat) : Option Nat :=
  let w := s.get (F.RP_BANK_ROW_SECT n b f)
  if s.on (F.RP_BANK_ROW_CFG_EN n b f) && bit w (8 * q + 7) then some (w / 2 ^ (8 * q) % 32) else none

/-- PERIOD of a row (R128). -/
def State.period (s : State) (n b f : Nat) : Nat := s.get (F.RP_BANK_ROW_CFG_PERIOD_M1 n b f) + 1

/-- Whether row `f` fires on line `k` at all (R128). -/
def State.rowOnLine (s : State) (n b f k : Nat) : Bool :=
  s.on (F.RP_BANK_ROW_CFG_EN n b f) && (k + s.get (F.RP_BANK_ROW_CFG_PHASE n b f)) % s.period n b f == 0

/-- Whether row `f` is eligible at line `k` in quarter `q` (R128). -/
def State.eligible (s : State) (n b f k q : Nat) : Bool := s.rowOnLine n b f k && (s.section n b f q).isSome

/-- The mask cell of line `k` and pixel `x` (R129). -/
def State.maskCell (s : State) (n b k x : Nat) : Nat :=
  let mw := min 6 (s.get (F.RP_BANK_MASK_CFG_MW_LOG2 n b))
  let mh := min 6 (s.get (F.RP_BANK_MASK_CFG_MH_LOG2 n b))
  let col := (x + s.get (F.RP_BANK_MASK_CFG_MXOFF n b)) % 2 ^ mw
  let row := (k + s.get (F.RP_BANK_MASK_CFG_MYOFF n b)) % 2 ^ mh
  let c := row * 64 + col
  s.get (F.RP_BANK_MASK n b (c / 16)) / 2 ^ (2 * (c % 16)) % 4

/-- The firing row of a pixel: the first eligible row from the mask cell on (R129). -/
def State.firingRow (s : State) (n b k x : Nat) : Option Nat :=
  let m := s.maskCell n b k x
  [m, (m + 1) % 4, (m + 2) % 4, (m + 3) % 4].find? fun f => s.eligible n b f k (x / 16384)

/-- The index of row `f`'s nozzle at pixel `x` (R128). -/
def State.nozzleAt (s : State) (n b f x : Nat) : Option Nat :=
  (s.section n b f (x / 16384)).map fun sec => sec * 16384 + x % 16384

/-- OFFSET of a row, in 2^-16 nm (R131). -/
def State.rowOffset (s : State) (n b f : Nat) : Nat := s.get (F.RP_BANK_ROW_OFFSET n b f)

/-- D_f (R131). -/
def State.rowDelay (s : State) (n b f : Nat) : Nat := s.rowOffset n b f / s.pitch n

/-- ρ_f in 2^-16 nm (R131). -/
def State.rowRho (s : State) (n b f : Nat) : Nat := s.rowOffset n b f % s.pitch n

/-! ### Heads (R147, R148) -/

/-- NOZZLES of head `x` (R148). -/
def State.nozzles (s : State) (x : Nat) : Nat := 64 * s.get (F.FTU_HEAD_CFG_NOZ64 x)

/-- Whether link `x / 4` serves head `x` (R147). -/
def State.served (s : State) (x : Nat) : Bool := x % 4 ≤ s.get (F.FTU_LINK_CFG_HEADS_M1 (x / 4))

/-- Whether a head is enabled: its EN is set (R174). -/
def State.headEn (s : State) (x : Nat) : Bool := s.on (F.FTU_HEAD_CFG_EN x)

/-- The head that holds a nozzle (R121, R147). -/
def headOf (idx : Nat) : Nat := idx / 4096

/-- The heads of row `f` of a bank, with the first bar pixel of each. -/
def State.rowHeads (s : State) (n b f : Nat) : List (Nat × Nat) :=
  (List.range ((s.width n b - 1) / 16384 + 1)).flatMap fun q =>
    match s.section n b f q with
    | some sec => (List.range 4).filterMap fun h =>
        let x := 4 * sec + h
        let p := q * 16384 + h * 4096
        if s.served x && p < s.width n b then some (x, p) else none
    | none => []

/-- The heads of a bank with their first bar pixels, every row. -/
def State.bankHeads (s : State) (n b : Nat) : List (Nat × Nat) :=
  (List.range 4).flatMap fun f => s.rowHeads n b f

/-- The heads that fire on line `k`. -/
def State.lineHeads (s : State) (n b k : Nat) : List Nat :=
  (List.range 4).flatMap fun f => if s.rowOnLine n b f k then (s.rowHeads n b f).map (·.1) else []

/-- The lowest and highest bar pixel of a set of heads (R274). -/
def State.headSpan (s : State) (n b : Nat) (heads : List Nat) : Nat × Nat :=
  let ps := (s.bankHeads n b).filter fun p => heads.contains p.1
  let last := s.width n b - 1
  (ps.foldl (fun a p => min a p.2) last, ps.foldl (fun a p => max a (min last (p.2 + 4095))) 0)

/-- The first nozzle index of a head. -/
def firstNozzle (x : Nat) : Nat := x * 4096

/-- The repeat index of line `k` (R98): that of binding 0. -/
def State.repLines (s : State) (n b j : Nat) : Nat :=
  let r := s.get (F.RP_BANK_BIND_REPEAT_LINES n b j)
  let p := s.get (F.RP_BANK_BIND_CFG_PLANE n b j)
  if r = 0 then (s.get (F.CMP_PLANE_GEOM2_ROWS_M1 p) + 1) * 2 ^ s.get (F.CMP_PLANE_GEOM_TH_LOG2 p) else r

/-- k − LINE0 as an unsigned 64-bit number (R98). -/
def State.jobLine (s : State) (n b k : Nat) : Nat := (k + 2 ^ 64 - s.get (F.RP_BANK_LINE0 n b)) % 2 ^ 64

def State.repeatIndex (s : State) (n b k : Nat) : Nat := s.jobLine n b k / s.repLines n b 0

/-- What records of line `k` take from bank `b` of pipe `n` (R274), for a set of heads. -/
def State.printTag (s : State) (n b k : Nat) (heads : List Nat) : PrintTag :=
  let span := s.headSpan n b heads
  { job := s.get (F.RP_BANK_JOB_ID n b), rep := s.repeatIndex n b k, last := s.width n b - 1, x0 := span.1, x1 := span.2 }

/-- A DATA_PATH record of a pipe, the FTU or the TWN (R110, R162, R273, R274). -/
def State.dpDefect (s : State) (e : Site) (sev n : Nat) (tag : PrintTag) (pos lastPos tk code : Nat) (heads : List Nat) : Defect :=
  let sorted := sortBy (fun a b => decide (a ≤ b)) heads
  let x := sorted.headD 0
  { severity := sev, cause := 4, source := e.block, inst := e.inst, bar := some n, xBar := true, job := tag.job, rep := tag.rep,
    wcoStart := pos / 2 ^ 16, wcoEnd := (lastPos + s.pitch n) / 2 ^ 16, tempo := tk,
    xStart := tag.x0, xEnd := tag.x1, nozzle := some (firstNozzle x),
    data := dpData code x heads.length }

/-! ### Bank validity (R112, R130) -/

/-- The cells of a bank's screen: first cell and number (R106). -/
def State.screen (s : State) (n b : Nat) : Nat × Nat :=
  (s.get (F.RP_BANK_SCR_BASE n b), 2 ^ (s.get (F.RP_BANK_SCR_W_LOG2 n b) + s.get (F.RP_BANK_SCR_H_LOG2 n b)))

/-- The sections that a bank names (R130). -/
def State.bankSections (s : State) (n b : Nat) : List Nat :=
  (List.range 4).flatMap fun f => (List.range 4).filterMap fun q => s.section n b f q

/-- Whether a list names nothing twice. -/
def noRepeat : List Nat → Bool
  | [] => true
  | a :: l => !l.contains a && noRepeat l

/-- Whether bank `b` of pipe `n` is valid (R112, R130). -/
def State.bankValid (s : State) (n b : Nat) : Bool :=
  let w := s.get (F.RP_BANK_SCR_W_LOG2 n b)
  let h := s.get (F.RP_BANK_SCR_H_LOG2 n b)
  let others := ((List.range 8).filter fun m => m != n && s.pipeState m != rpDisabled).flatMap fun m =>
    s.bankSections m (s.activeBank m)
  15 ≤ s.get (F.RP_BANK_CFG_WIDTH_M1 n b)
    && s.on (F.RP_BANK_BIND_CFG_EN n b 0)
    && (List.range 4).all (fun j => !s.on (F.RP_BANK_BIND_CFG_EN n b j) ||
      (let p := s.get (F.RP_BANK_BIND_CFG_PLANE n b j)
       s.on (F.CMP_PLANE_GEOM2_EN p)
        && s.repLines n b j ≤ (s.get (F.CMP_PLANE_GEOM2_ROWS_M1 p) + 1) * 2 ^ s.get (F.CMP_PLANE_GEOM_TH_LOG2 p)
        && (j == 0 || s.get (F.RP_BANK_BIND_ALPHA_BASE n b j) != 0)))
    && w ≤ 9 && h ≤ 9 && (s.screen n b).1 + (s.screen n b).2 ≤ 262144
    && noRepeat (s.bankSections n b)
    && (s.bankSections n b).all (fun sec => !others.contains sec)
    && (List.range 4).all (fun f => !s.on (F.RP_BANK_ROW_CFG_EN n b f) || s.rowOffset n b f ≤ 63 * s.pitch n)
    && (List.range 12).all (fun k => (List.range ((s.width n b - 1) / 16384 + 1)).all fun q =>
      (List.range 4).any fun f => s.eligible n b f k q)

end Sys2Proof.Machine
end

