-- ==== Sys2Proof/Machine/Nt.lean ====
section
/-! DEFINITION. The nozzle table (05): its entries, update port, update register sets and scrubber. -/

namespace Sys2Proof.Machine

/-- The initial value of an entry: STATUS good, GAIN 512 (R123). -/
def ntInitial : Nat := 0x800

def ntDefault (_ : Nat) : Cell := { bits := BitVec.ofNat 64 ntInitial }

def State.ntCell (s : State) (i : Nat) : Cell := Sparse.get ntDefault s.nt.cells i

def State.setNtCell (s : State) (i : Nat) (c : Cell) : State :=
  { s with nt := { s.nt with cells := Sparse.set ntDefault s.nt.cells i c } }

/-! The fields of an entry (R122). -/

def ntStatus (e : Nat) : Nat := bits e 1 0
def ntGain (e : Nat) : Nat := bits e 11 2
def ntOffset (e : Nat) : Int := signed 8 (bits e 19 12)
def ntMode (e : Nat) : Nat := bits e 23 20
def ntWL (e : Nat) : Nat := bits e 31 24
def ntWR (e : Nat) : Nat := bits e 39 32
def ntRR (e : Nat) : Nat := bits e 41 40
def ntFail (e : Nat) : Nat := bits e 63 58

/-- Whether an entry's nozzle fires its own dose: STATUS good or weak (R122). -/
def ntFires (e : Nat) : Bool := ntStatus e ≤ 1

/-- A read outside the pipes meets an uncorrectable entry (R126). -/
def State.ntUncorr (s : State) (i : Nat) : State :=
  ((s.flag F.RP_NT_STAT_UNCORR).put F.RP_NT_LAST_UNCORR i).logErr (siteRp 0) 0x02 0x016 [0, 0, i]

/-- The bits a software read returns, with what it reports (R123, R126). -/
def State.ntRead (s : State) (i : Nat) : Nat × State :=
  let c := s.ntCell i
  if s.nt.initAt.isSome then (ntInitial, s)
  else (c.bits.toNat, if c.mark = .uncorrectable || c.mark = .poison then s.ntUncorr i else s)

/-- A write reaches the update port; during an initialisation it is held (R123, R124). -/
def State.ntSubmit (s : State) (i : Nat) (op : NtOp) (at_ : Nat := s.now) : State :=
  { s with nt := { s.nt with
      waiting := s.nt.waiting ++ [{ idx := i, op := op, at_ := at_, held := s.nt.initAt.isSome }] } }

/-- Whether any pipe is enabled (R123). -/
def State.anyPipeOn (s : State) : Bool := (List.range 8).any fun n => s.pipeState n != rpDisabled

/-- An initialisation starts (R123). -/
def State.ntStart (s : State) : State :=
  let s := s.put F.RP_NT_STAT_INIT_DONE 0
  { s with nt := { s.nt with
      cells := [], initAt := some s.now, waiting := s.nt.waiting.map fun w => { w with held := true } } }

/-- INIT written 1 (R123): refused while a pipe is enabled, ignored during an initialisation. -/
def State.ntInit (s : State) : State :=
  if s.anyPipeOn then s.logErr (siteRp 0) 0x01 0x002 []
  else if s.nt.initAt.isSome then s
  else s.ntStart

def execNtInit (dt : Nat) (who : Requester) (s : State) : Res :=
  regCmd dt who O.RP_NT_CTRL State.ntInit s

/-- The BAR0 offset of an entry (R24, R25). -/
def ntOff (i : Nat) : Nat := 0x01000000 + 8 * i

/-- Every bit of an entry. -/
def allOnes : DWord := BitVec.allOnes 64

/-- The high half of an entry. -/
def highHalf : DWord := BitVec.ofNat 64 0xFFFFFFFF00000000

/-- A window write (R25): a 64-bit access or a completed pair writes every bit; a high word with no pending
low word writes the high half alone (R126). -/
def State.ntWindow (s : State) (who : Requester) (i : Nat) : WinWrite → State
  | .full d => s.ntSubmit i (.masked allOnes d)
  | .low w => s.putLow who (ntOff i) (some w)
  | .high w =>
    match s.pendingLow who (ntOff i) with
    | some l =>
      (s.consumeLow who (ntOff i)).ntSubmit i (.masked allOnes (BitVec.ofNat 64 (2 ^ 32 * w.toNat + l.toNat)))
    | none => s.ntSubmit i (.masked highHalf (BitVec.ofNat 64 (2 ^ 32 * w.toNat)))

def execNtWindowWrite (dt : Nat) (who : Requester) (idx : Fin 524288) (w : WinWrite) (s : State) : Res :=
  regCmd dt who (ntOff idx) (fun s => s.ntWindow who idx w) s

/-- The place of a write in the port's order of service (R124, R137). -/
def NtOp.order : NtOp → Nat
  | .masked _ _ => 0
  | .rmw i _ _ => 1 + i
  | .verdict _ _ _ _ _ => 5
  | .scrub => 6

/-- The write the port serves next: held ones in order of arrival, then the first in the order of R124. -/
def nextWrite (l : List NtWrite) : Option NtWrite :=
  match l.find? (·.held) with
  | some w => some w
  | none => (List.range 7).findSome? fun o => l.find? fun w => w.op.order == o

/-- STATUS after a verdict (R190). -/
def verdictStatus (upd code old : Nat) : Nat :=
  if old = 3 then 3
  else match upd, code with
    | 1, 1 => if old = 0 then 1 else old
    | 1, 2 => 2
    | 1, 3 => 2
    | 2, 0 => 0
    | 2, 1 => 1
    | 2, 2 => 2
    | 2, 3 => 2
    | _, _ => old

/-- An entry after a drop-gate verdict (R190). -/
def verdictEntry (code upd stamp e : Nat) : Nat :=
  let e := setBits e 57 42 stamp
  let e := if code = 0 then e else setBits e 63 58 (min 63 (ntFail e + 1))
  setBits e 1 0 (verdictStatus upd code (ntStatus e))

/-- The entry bits after a write (R125, R190). -/
def NtOp.apply (op : NtOp) (e : DWord) : DWord :=
  match op with
  | .masked m d => (e &&& ~~~m) ||| (d &&& m)
  | .rmw _ m d => (e &&& ~~~m) ||| (d &&& m)
  | .verdict _ _ code upd stamp => BitVec.ofNat 64 (verdictEntry code upd stamp e.toNat)
  | .scrub => e

/-- Whether a write covers every bit of the entry (R126). -/
def NtOp.full : NtOp → Bool
  | .masked m _ => m == allOnes
  | .rmw _ m _ => m == allOnes
  | _ => false

/-- The mark of an entry after a write: only a full write clears an uncorrectable fault (R126). -/
def markAfter (op : NtOp) (m : Mark) : Mark :=
  if op.full then .good else if m = .uncorrectable || m = .poison then m else .good

/-- A verdict's update has been applied: its record may now be written (R191). -/
def State.verdictApplied (s : State) (slot item : Nat) (changed : Bool) : State :=
  let sc := Sparse.get (fun _ => ({} : Scan)) s.dgu.scans slot
  let items := sc.items.mapIdx fun i it => if i = item then { it with updated := changed } else it
  { s with dgu := { s.dgu with
      scans := Sparse.set (fun _ => {}) s.dgu.scans slot { sc with items := items },
      ready := s.dgu.ready ++ [(slot, item)] } }

/-- Every running render keeps the entry as it stood before the write (R136). -/
def State.ntNote (s : State) (i : Nat) (c : Cell) : State :=
  (List.range 8).foldl (fun s n =>
    let p := s.pipe n
    if p.busyAt.isSome then s.setPipe n { p with ntLog := p.ntLog ++ [(i, s.now, c.bits.toNat, c.mark)] } else s) s

/-- The active twin sends an update to the standby with MIRROR_NT = 1 (R481): a masked one as it is, a verdict as the entry it
makes. A scrubber's write leaves the content as it is, and is not sent. -/
def State.ntMirror (s : State) (w : NtWrite) (after : DWord) : State :=
  if s.twnState = twActive && s.on F.TWN_CTRL_MIRROR_NT && !s.twn.lost then
    let send := fun (m d : DWord) => s.sendTwin 0x03 [BitVec.ofNat 64 w.idx, m, d]
    match w.op with
    | .masked m d => send m d
    | .rmw _ m d => send m d
    | .verdict _ _ _ _ _ => send allOnes after
    | .scrub => s
  else s

/-- The update port applies one write (R124–R126, R481). -/
def State.ntApply (s : State) (w : NtWrite) : State :=
  let c := s.ntCell w.idx
  let rest := (s.nt.waiting.erase w).filter fun u => !(u.op == .scrub && u.idx == w.idx)
  let s := { s with nt := { s.nt with waiting := rest } }
  let s := s.ntNote w.idx c
  let c' : Cell := { bits := w.op.apply c.bits, mark := markAfter w.op c.mark }
  let s := (s.setNtCell w.idx c').ntMirror w c'.bits
  match w.op with
  | .rmw i _ _ =>
    let s := s.put (F.RP_NT_RMW_RESULT i) c.bits.toNat
    if c.mark = .uncorrectable || c.mark = .poison then s.ntUncorr w.idx else s
  | .verdict slot item _ _ _ =>
    s.verdictApplied slot item (ntStatus c.bits.toNat != ntStatus c'.bits.toNat)
  | _ => s

/-- Whether an initialisation has had its 65,536 PIX cycles. -/
def State.ntInitOver (s : State) : Bool :=
  match s.nt.initAt with
  | some t => t + 65536 * 4 ≤ s.now
  | none => false

/-- The initialisation ends, and the held writes are applied in their order of arrival (R123). -/
def State.ntInitEnd (s : State) : State :=
  let held := s.nt.waiting.filter (·.held)
  let s := { s.put F.RP_NT_STAT_INIT_DONE 1 with nt := { s.nt with initAt := none, scrubAt := s.now } }
  held.foldl State.ntApply s

def execNtInitDone (dt : Nat) (s : State) : Res := evCmd dt State.ntInitOver State.ntInitEnd s

/-- Whether a write has reached the port. -/
def State.ntThere (s : State) (w : NtWrite) : Bool := decide (w.at_ ≤ s.now)

/-- The port serves one waiting write; none during an initialisation (R123, R124). -/
def State.ntServe (s : State) : State :=
  match nextWrite (s.nt.waiting.filter s.ntThere) with
  | some w => s.ntApply w
  | none => s

/-- The port serves writes until none is left that `mine` names: a read that a write comes before returns only once it has been
applied (R136). -/
def State.ntServeFor (mine : NtWrite → Bool) : Nat → State → State
  | 0, s => s
  | fuel + 1, s => if s.nt.initAt.isNone && s.nt.waiting.any (fun w => mine w && s.ntThere w) then (s.ntServe).ntServeFor mine fuel else s

/-- A read of an entry finds every write to it applied (R136). -/
def State.ntReach (s : State) (i : Nat) : State := State.ntServeFor (fun w => w.idx == i) s.nt.waiting.length s

/-- Whether a write is an update of set `i`. -/
def NtWrite.ofSet (i : Nat) (w : NtWrite) : Bool :=
  match w.op with
  | .rmw j _ _ => j == i
  | _ => false

/-- Whether an update of set `i` waits for the port. -/
def State.rmwWaits (s : State) (i : Nat) : Bool := s.nt.waiting.any (NtWrite.ofSet i)

/-- A read of RESULT finds the set's updates applied (R136). -/
def State.rmwReach (s : State) (i : Nat) : State := State.ntServeFor (NtWrite.ofSet i) s.nt.waiting.length s

/-- A window read (R6, R25, R126, R136). -/
def State.ntWindowRead (s : State) (who : Requester) (i : Nat) : WinRead → State
  | .full =>
    let (v, s) := (s.ntReach i).ntRead i
    s.emit (.readData who (ntOff i) v)
  | .low =>
    let (v, s) := (s.ntReach i).ntRead i
    (s.latchHigh who (ntOff i) (v / 2 ^ 32)).emit (.readData who (ntOff i) (v % 2 ^ 32))
  | .high => s.emit (.readData who (ntOff i + 4) (s.latched who (ntOff i)).toNat)

def execNtWindowRead (dt : Nat) (who : Requester) (idx : Fin 524288) (w : WinRead) (s : State) : Res :=
  readCmd dt who (ntOff idx) (fun s => s.ntWindowRead who idx w) s

/-- The high word of an update register set's DATA is written (R125): the update goes to the port. -/
def State.ntRmw (s : State) (i v : Nat) : State :=
  let s := s.put (F.RP_NT_RMW_DATA i) v
  let idx := s.get (F.RP_NT_RMW_INDEX i)
  if 524288 ≤ idx then s.flag F.RP_NT_STAT_RMW_RANGE
  else s.ntSubmit idx (.rmw i (BitVec.ofNat 64 (s.get (F.RP_NT_RMW_MASK i))) (BitVec.ofNat 64 v))

def execNtRmwUpdate (dt : Nat) (who : Requester) (i : Fin 4) (hi : Word) (s : State) : Res :=
  highCmd dt who (O.RP_NT_RMW_DATA i) hi (fun v s => s.ntRmw i v) s

/-- Whether the port has a write to serve: one that reached it in an earlier PIX cycle, so that all that coincided with it are there
and the order of R124 and R137 decides. -/
def State.ntReady (s : State) : Bool := s.nt.initAt.isNone && s.nt.waiting.any fun w => decide (w.at_ / 4 < s.now / 4)

def execUpdatePortApply (dt : Nat) (s : State) : Res := evCmd dt State.ntReady State.ntServe s

/-- The scrubber visits an entry (R126). -/
def State.scrub (s : State) : State :=
  let i := s.nt.scrubPos
  let c := s.ntCell i
  let next := (i + 1) % 524288
  let s := { s with nt := { s.nt with scrubPos := next, scrubAt := s.now } }
  let s := if next = 0 then s.bump F.RP_NT_SCRUB_PASSES else s
  match c.mark with
  | .good => s
  | .corrected => (s.bump F.RP_NT_ECC_CORR).ntSubmit i .scrub
  | _ => s.ntUncorr i

def execScrubVisit (dt : Nat) (s : State) : Res :=
  evCmd dt (fun s => s.nt.initAt.isNone && s.on F.RP_NT_CTRL_SCRUB_EN && s.nt.scrubAt + 256 * 4 ≤ s.now)
    State.scrub s

end Sys2Proof.Machine
end

