-- ==== Sys2Proof/Machine/Dgu.lean ====
section
/-! DEFINITION. Drop gates (07): CIC channels, detection windows, scan slots, verdicts and result records. -/

namespace Sys2Proof.Machine

def State.cic (s : State) (c : Nat) : Cic := Sparse.get (fun _ => {}) s.dgu.cic c

def State.setCic (s : State) (c : Nat) (v : Cic) : State :=
  { s with dgu := { s.dgu with cic := Sparse.set (fun _ => {}) s.dgu.cic c v } }

def State.scan (s : State) (i : Nat) : Scan := Sparse.get (fun _ => {}) s.dgu.scans i

def State.setScan (s : State) (i : Nat) (v : Scan) : State :=
  { s with dgu := { s.dgu with scans := Sparse.set (fun _ => {}) s.dgu.scans i v } }

/-- The states of a scan slot (R192). -/
def scIdle : Nat := 0
def scArmed : Nat := 1
def scScanning : Nat := 2
def scFinishing : Nat := 3

def State.scanState (s : State) (i : Nat) : Nat := s.get (F.DGU_SCAN_CTRL_STATE i)

/-- The verdict code NOT_SCANNED (R189). -/
def notScanned : Nat := 5

def State.setItem (s : State) (slot item : Nat) (f : ScanItem → ScanItem) : State :=
  let sc := s.scan slot
  s.setScan slot { sc with items := sc.items.mapIdx fun i it => if i = item then f it else it }

/-! ### The end of a scan (R192) -/

/-- Whether a channel still has a window of the slot pending, or a drop of it is still to fire. -/
def State.scanBusy (s : State) (slot : Nat) : Bool :=
  (List.range 16).any (fun c => (s.cic c).windows.any fun w => w.slot == slot)
    || s.dgu.drops.any fun d => d.live && d.slot == slot

/-- A FINISHING slot with its last window evaluated and its last record written returns to IDLE (R192). -/
def State.scanFinish (s : State) (slot : Nat) : State :=
  let resolved := fun (it : ScanItem) => it.recorded || (it.verdict.isNone && it.assigned == 0)
  if s.scanState slot = scFinishing && !s.scanBusy slot && (s.scan slot).items.all resolved then
    let inc := (s.scan slot).incomplete
    let s := (s.put (F.DGU_SCAN_CTRL_STATE slot) scIdle).put (F.DGU_SCAN_CTRL_ARM slot) 0
    let s := (s.setScan slot {}).raise (384 + slot)
    if inc then (s.raise (384 + 8 + slot)).logErr siteDgu 0x03 0x020 [slot] else s
  else s

/-- The slot enters FINISHING (R192): the records of its NOT_SCANNED nozzles become ready in list order. -/
def State.scanEnd (s : State) (slot : Nat) (incomplete : Bool) : State :=
  let s := s.put (F.DGU_SCAN_CTRL_STATE slot) scFinishing
  let sc := s.scan slot
  let s := s.setScan slot { sc with incomplete := incomplete }
  let s := if incomplete then s.flag (F.DGU_SCAN_STAT_INCOMPLETE slot) else s
  let rs := ((sc.items.mapIdx fun i it => (i, it)).filter fun p => p.2.verdict == some notScanned).map (·.1)
  let s := { s with dgu := { s.dgu with ready := s.dgu.ready ++ rs.map fun i => (slot, i) } }
  s.scanFinish slot

/-- The scan ends before every drop is assigned (R192): nozzles with unassigned drops are NOT_SCANNED. -/
def State.scanCut (s : State) (slot : Nat) : State :=
  let n := s.get (F.DGU_SCAN_CTRL_REPEAT_M1 slot) + 1
  let sc := s.scan slot
  let s := s.setScan slot { sc with items := sc.items.map fun it =>
    if it.verdict == none && it.assigned < n then { it with verdict := some notScanned } else it }
  s.scanEnd slot true

/-- The pipe that a slot names is disabled (R192). -/
def State.scanPipeOff (s : State) (n : Nat) : State :=
  (List.range 8).foldl (fun s i =>
    let st := s.scanState i
    if (st = scArmed || st = scScanning) && s.get (F.DGU_SCAN_CTRL_RP i) = n then s.scanCut i else s) s

/-! ### Classes and verdicts (R188–R190) -/

/-- The verdict of a nozzle by the votes (R189). -/
def verdictOf (it : ScanItem) (v : Nat) : Nat :=
  if v ≤ it.missing then 2
  else if v ≤ it.missing + it.weak then 1
  else if v ≤ it.misdir then 3
  else if v ≤ it.good then 0
  else 4

/-- The drops of a nozzle that are classed. -/
def ScanItem.classed (it : ScanItem) : Nat :=
  it.good + it.weak + it.missing + it.misdir + it.unsettled + it.notFired

/-- When every drop of a nozzle is classed, its verdict is formed and its update submitted (R189, R190): it reaches the port at the
end of the TMP cycle, within which an ABORT still discards it (R194). -/
def State.vote (s : State) (slot item : Nat) : State :=
  match (s.scan slot).items[item]? with
  | none => s
  | some it =>
    if it.verdict == none && s.get (F.DGU_SCAN_CTRL_REPEAT_M1 slot) + 1 ≤ it.classed then
      let v := verdictOf it (s.get (F.DGU_SCAN_CTRL_VOTE_M1 slot) + 1)
      let s := (s.setItem slot item fun it => { it with verdict := some v }).bump (F.DGU_SCAN_DONE_COUNT slot)
      if v = 4 then { s with dgu := { s.dgu with ready := s.dgu.ready ++ [(slot, item)] } }
      else s.ntSubmit it.nozzle (.verdict slot item v (s.get (F.DGU_SCAN_CTRL_UPD slot)) (bits s.now 35 20)) (8 * s.cycle + 7)
    else s.scanFinish slot

/-- A drop that was skipped or not fired (R186, R188). -/
def State.dropNotFired (s : State) (d : ScanDrop) : State :=
  let s := { s with dgu := { s.dgu with drops := s.dgu.drops.erase d } }
  if d.live then (s.setItem d.slot d.item fun it => { it with notFired := it.notFired + 1 }).vote d.slot d.item
  else s

/-- The drops of a head's line (R185). -/
def State.dropsOf (s : State) (x n k : Nat) : List ScanDrop :=
  s.dgu.drops.filter fun d => d.head == x && d.pipe == n && d.k == k

/-- A head's line is resolved as not fired: so are its drops (R186). -/
def State.dropsLost (s : State) (x n k : Nat) : State := (s.dropsOf x n k).foldl State.dropNotFired s

/-- A line of a pipe is not fired at any head. -/
def State.dropsLostLine (s : State) (n k : Nat) : State :=
  (s.dgu.drops.filter fun d => d.pipe == n && d.k == k).foldl State.dropNotFired s

/-- A scan strobe has fired at `t`: one window opens per drop (R186, R187). -/
def State.openWindow (s : State) (t : Nat) (d : ScanDrop) : State :=
  let s := { s with dgu := { s.dgu with drops := s.dgu.drops.erase d } }
  if !d.live then s
  else
    let ch := s.cic d.chan
    let o : Int := (t + s.get (F.DGU_CH_WIN_START d.chan) : Nat)
    let e := o + s.get (F.DGU_CH_WIN_LEN d.chan)
    let w : Window := {
      slot := d.slot, item := d.item, s := t, base := o - s.get (F.DGU_CH_BASE_LEN d.chan), open_ := o,
      close := e, spoiled := o < ch.lastEnd || !s.on (F.DGU_CLK_EN (d.chan / 4)) }
    let s := s.setCic d.chan { ch with windows := ch.windows ++ [w], lastEnd := e }
    let s := s.put (F.DGU_CH_WIN_PEND d.chan) (ch.windows.length + 1)
    s.setItem d.slot d.item fun it => { it with firstS := it.firstS.or (some t) }

def State.openWindows (s : State) (t x n k : Nat) : State := (s.dropsOf x n k).foldl (fun s d => s.openWindow t d) s

/-- What a window measured (R187): A, Q and t. -/
structure Measure where
  a : Int
  q : Nat
  t : Int
  deriving DecidableEq, Repr

/-- The measures of a window over the kept outputs, oldest first; none where the baseline or the window
holds no output or a discarded one (R187, R188). -/
def measure (w : Window) (pol : Bool) (hist : List (Int × Int × Bool)) : Option Measure :=
  let inBase := fun (p : Int × Int × Bool) => w.base ≤ p.1 && p.1 < w.open_
  let inWin := fun (p : Int × Int × Bool) => w.open_ ≤ p.1 && p.1 < w.close
  let b := hist.filter inBase
  let x := hist.filter inWin
  if b = [] || x = [] || (b ++ x).any (fun p => !p.2.2) then none
  else
    let n := b.length
    let mean := ((b.foldl (fun z p => z + p.2.1) 0) * 2 + n) / ((2 * n : Nat) : Int)
    let amp := x.map fun p => (p.1, if pol then mean - p.2.1 else p.2.1 - mean)
    let a := amp.foldl (fun m p => max m p.2) ((amp.head?.map (·.2)).getD 0)
    let q := amp.foldl (fun z p => z + (max p.2 0).toNat) 0
    let t := ((amp.find? fun p => p.2 == a).map (·.1)).getD 0 - w.s
    some { a := a, q := min q (2 ^ 32 - 1), t := t }

/-- The evaluations of the running TMP cycle. -/
def State.evalsNow (s : State) : List (Nat × Nat × Bool × Nat) := s.dgu.evals.filter fun e => e.2.2.2 == s.cycle

/-- A window is evaluated and its drop classed (R187, R188), by the thresholds of before a write of the same TMP cycle (R194). -/
def State.evalWindow (s : State) (c : Nat) (w : Window) : State :=
  let s := s.bump F.DGU_WINDOWS
  let m := if w.spoiled then none else measure w (s.on (F.DGU_CH_CFG_POL c)) (s.cic c).hist.reverse
  let aq := fun (m : Measure) (it : ScanItem) =>
    { it with sumA := it.sumA + m.a, sumQ := it.sumQ + m.q, nAQ := it.nAQ + 1 }
  let tt := fun (m : Measure) (it : ScanItem) => { it with sumT := it.sumT + m.t, nT := it.nT + 1 }
  let s := { s with dgu := { s.dgu with evals := s.evalsNow ++ [(w.slot, c, m.isNone, s.cycle)] } }
  let s := match m with
    | none => (s.bump (F.DGU_CH_UNSETTLED c)).setItem w.slot w.item fun it => { it with unsettled := it.unsettled + 1 }
    | some m => s.setItem w.slot w.item fun it =>
      if m.a < s.was (F.DGU_CH_MISS_THR c) then aq m { it with missing := it.missing + 1 }
      else if m.q < s.was (F.DGU_CH_WEAK_THR c) then tt m (aq m { it with weak := it.weak + 1 })
      else if m.t < s.was (F.DGU_CH_ARR_MIN c) || (s.was (F.DGU_CH_ARR_MAX c) : Int) < m.t then
        tt m (aq m { it with misdir := it.misdir + 1 })
      else tt m (aq m { it with good := it.good + 1 })
  s.vote w.slot w.item

/-- The windows that a kept output with this stamp closes (R187). -/
def State.closeWindows (s : State) (c : Nat) (stamp : Int) : State :=
  let ch := s.cic c
  let due := ch.windows.filter fun w => w.close ≤ stamp
  let rest := ch.windows.filter fun w => stamp < w.close
  let s := (s.setCic c { ch with windows := rest }).put (F.DGU_CH_WIN_PEND c) rest.length
  due.foldl (fun s w => s.evalWindow c w) s

/-! ### CIC channels (R177–R181) -/

/-- One captured bit through the integrators (R177). -/
def integrate (l : List (BitVec 42)) (b : Bool) : List (BitVec 42) :=
  (l.foldl (fun (a : BitVec 42 × List (BitVec 42)) i => (i + a.1, a.2 ++ [i + a.1]))
    (if b then 1 else BitVec.allOnes 42, [])).2

/-- The combs at an output (R177): the raw output and the new comb stores. -/
def combs (l : List (BitVec 42)) (v : BitVec 42) : BitVec 42 × List (BitVec 42) :=
  l.foldl (fun (a : BitVec 42 × List (BitVec 42)) d => (a.1 - d, a.2 ++ [a.1])) (v, [])

/-- sat24 of the scaled output, before it is limited (R178). -/
def scaleRaw (raw : Int) (scale sh : Nat) : Int :=
  if sh = 0 then raw * scale else (raw * scale + 2 ^ (sh - 1)) / 2 ^ sh

/-- sat24 (R178). -/
def sat24 (v : Int) : Int := max (-8388608) (min 8388607 v)

/-- Whether channel `c` captures bits: its EN and its clock group's are set (R175, R180). -/
def State.cicRuns (s : State) (c : Nat) : Bool := s.on (F.DGU_CH_CFG_EN c) && s.on (F.DGU_CLK_EN (c / 4))

/-- Whether an output of channel `c` from these bits is due: they come from its input (R176), a capture group has ended, and no
restart has crossed in an earlier TMP cycle; an output formed in the cycle of a write that clears the group's EN is kept
(R177, R181). -/
def State.cicDue (s : State) (c : Nat) (input : SdBits) : Bool :=
  let ch := s.cic c
  let runs := match ch.restart with
    | some t => t / 8 == s.cycle && s.on (F.DGU_CH_CFG_EN c) && s.was (F.DGU_CLK_EN (c / 4)) == 1
    | none => s.cicRuns c
  let ended := match ch.lastEdge with
    | some e => decide (e + ch.r * ch.period ≤ s.now)
    | none => false
  input.src.val == ch.src && input.bits.length == ch.r && runs && ended

/-- A CIC channel forms an output from the bits captured since the last one (R177–R180). -/
def State.cicOutput (s : State) (c : Nat) (input : List Bool) : State :=
  let ch := s.cic c
  let edge := ch.lastEdge.getD s.now + ch.r * ch.period
  let integ := input.foldl integrate ch.integ
  let (raw, comb) := combs ch.comb (integ.getLast?.getD 0)
  let v := scaleRaw raw.toInt (s.get (F.DGU_CH_GAIN_SCALE c)) (s.get (F.DGU_CH_GAIN_SH c))
  let y := sat24 v
  let outs := ch.outs + 1
  let kept := decide (ch.order + s.get (F.DGU_CH_CFG_SETTLE_EXTRA c) < outs)
  let stamp : Int := (edge : Int)
    - ((ch.period / 2 * (ch.order * (ch.r - 1)) + ch.period * s.get (F.DGU_CH_DELAY c) : Nat) : Int)
  let keep := ch.windows.foldl (fun a w => min a w.base) (stamp - 2 ^ 21)
  let hist := (stamp, y, kept) :: ch.hist.filter fun p => keep ≤ p.1
  let s := s.setCic c { ch with integ := integ, comb := comb, outs := outs, lastEdge := some edge, hist := hist }
  let s :=
    if y != v && !s.on (F.DGU_CH_STAT_OVERLOAD c) then
      ((s.flag (F.DGU_CH_STAT_OVERLOAD c)).raise (384 + 19)).logErr siteDgu 0x02 0x010 [c]
    else s
  if kept then ((s.put (F.DGU_CH_STAT_SETTLING c) 0).putInt (F.DGU_CH_SAMPLE c) y).closeWindows c stamp
  else s

def execCicOutput (dt : Nat) (c : Fin 16) (bits : SdBits) (s : State) : Res :=
  evCmd dt (fun s => s.cicDue c bits) (fun s => s.cicOutput c bits.bits) s

/-- A rising edge of clock `g`, once it runs. -/
def State.sdEdge (s : State) (g : Nat) : Nat := Sparse.get (fun _ => 0) s.dgu.clocks g

/-- Clock `g` starts, or takes another rate (R175). DESIGN CHOICE (assumption 103): when its first rising edge comes is free, at a
TMP edge within one bit period. -/
def State.clockStart (s : State) (g : Nat) : State :=
  let h := s.get (F.DGU_CLK_HDIV g)
  let (v, s) := s.draw
  let edge := 8 * (s.cycle + 1 + v.toNat % (2 * h))
  { s with dgu := { s.dgu with clocks := Sparse.set (fun _ => 0) s.dgu.clocks g edge } }.emit (.sdClock g (some h))

/-- The first time after `t` that is `o` modulo `p`. -/
def nextEdge (p o t : Nat) : Nat := t + (p - (t + p - o % p) % p)

/-- The first capture edge of channel `c` after the crossing of its restarting write (R180): falling edges of its clock with
EDGE 0, rising ones with EDGE 1 (R175). -/
def State.restartEdge (s : State) (c : Nat) : Option Nat :=
  let g := c / 4
  let p := 16 * s.get (F.DGU_CLK_HDIV g)
  let rise := s.sdEdge g
  (s.cic c).restart.map fun t =>
    nextEdge p (rise + if s.on (F.DGU_CLK_EDGE g) then 0 else p / 2) (max t (rise - 1))

/-- Whether channel `c` has come to the capture edge at which it restarts. -/
def State.restartDue (s : State) (c : Nat) : Bool :=
  s.cicRuns c && match s.restartEdge c with
    | some e => decide (e ≤ s.now)
    | none => false

/-- The capture edge after a restarting write: the filter is cleared and the configuration in the registers
comes into force (R180). -/
def State.cicRestart (s : State) (c : Nat) : State :=
  let n := s.get (F.DGU_CH_CFG_ORDER c)
  let ch := s.cic c
  let s := s.setCic c { ch with
    src := s.get (F.DGU_CH_CFG_SRC c), order := n, r := s.get (F.DGU_CH_CFG_R_M1 c) + 1, period := 16 * s.get (F.DGU_CLK_HDIV (c / 4)),
    integ := List.replicate n 0, comb := List.replicate n 0, outs := 0, lastEdge := s.restartEdge c, restart := none }
  s.put (F.DGU_CH_STAT_SETTLING c) 1

def execChannelRestart (dt : Nat) (c : Fin 16) (s : State) : Res :=
  evCmd dt (fun s => s.restartDue c) (fun s => s.cicRestart c) s

/-! ### Scan slots (R182–R185) -/

/-- Whether channel `c` covers a nozzle (R182). -/
def State.covers (s : State) (c idx : Nat) : Bool :=
  let pos := idx % 16384
  s.on (F.DGU_CH_CFG_EN c) && bit (s.get (F.DGU_CH_COVER_SECT c)) (idx / 16384)
    && s.get (F.DGU_CH_COVER_POS_LO c) ≤ pos && pos ≤ s.get (F.DGU_CH_COVER_POS_HI c)

/-- The channel that owns a nozzle: the lowest enabled one that covers it (R182). -/
def State.chanOf (s : State) (idx : Nat) : Option Nat := (List.range 16).find? fun c => s.covers c idx

/-- The item of a scan list for an index, NOT_SCANNED where R183 says so. -/
def State.scanItem (s : State) (idx : Nat) : ScanItem :=
  let disabled := !s.nt.initAt.isSome && ntStatus (s.ntCell idx).bits.toNat == 3
  let off := 524288 ≤ idx || (s.chanOf idx).isNone || disabled
  { nozzle := idx % 524288, verdict := if off then some notScanned else none }

/-- The conditions of R183. -/
def State.scanOk (s : State) (i : Nat) : Bool :=
  let count := s.get (F.DGU_SCAN_COUNT_COUNT i)
  let base := s.get (F.DGU_SCAN_LIST_BASE i)
  let dose := s.get (F.DGU_SCAN_CTRL_DOSE i)
  s.pipeState (s.get (F.DGU_SCAN_CTRL_RP i)) != rpDisabled
    && s.get (F.DGU_SCAN_START_WCO i) < s.get (F.DGU_SCAN_END_WCO i)
    && 1 ≤ count && count ≤ 4096 && 1 ≤ dose && dose ≤ 7
    && s.get (F.DGU_SCAN_CTRL_VOTE_M1 i) ≤ s.get (F.DGU_SCAN_CTRL_REPEAT_M1 i)
    && (if s.on (F.DGU_SCAN_CTRL_RANGE i) then
          base % 524288 + (count - 1) * s.get (F.DGU_SCAN_COUNT_STRIDE i) < 524288
        else base % 64 == 0)

/-- The list of a slot in list mode, in pieces of 16 indices: where a 64-byte block cannot be read, its
indices are unknown (R183, R192). DEDUCED (assumption 101): the test for an index of 524,288 or more takes the whole 32-bit word, the
slot its bits [18:0]. -/
def State.readList (s : State) (base count : Nat) : Bool × List ScanItem × State :=
  (List.range ((count + 15) / 16)).foldl (fun (a : Bool × List ScanItem × State) j =>
    let (ok, items, s) := a
    let n := min 16 (count - 16 * j)
    let (d, s) := s.memRead 14 (base + 64 * j) (4 * n)
    match d with
    | some d =>
      let new := (List.range n).map fun i => s.scanItem (ofBytes ((d.drop (4 * i)).take 4))
      (ok, items ++ new, s)
    | none =>
      let (v, s) := s.draw
      let new := (List.range n).map fun i => { nozzle := (v.toNat + i) % 524288, verdict := some notScanned }
      (false, items ++ new, s)) (true, [], s)

/-- A slot is armed (R183). A list that cannot be read ends the scan at once: its unread nozzles are NOT_SCANNED, and those that
were read get no verdict and no record (R192). -/
def State.scanArm (s : State) (i : Nat) : State :=
  if s.scanState i != scIdle then s
  else if !s.scanOk i then (s.flag (F.DGU_SCAN_STAT_CFG_ERR i)).logErr siteDgu 0x01 0x002 [i]
  else
    let count := s.get (F.DGU_SCAN_COUNT_COUNT i)
    let base := s.get (F.DGU_SCAN_LIST_BASE i)
    let (ok, items, s) :=
      if s.on (F.DGU_SCAN_CTRL_RANGE i) then
        (true, (List.range count).map (fun j =>
          s.scanItem (base % 524288 + j * s.get (F.DGU_SCAN_COUNT_STRIDE i))), s)
      else s.readList base count
    let s := (s.put (F.DGU_SCAN_CTRL_ARM i) 1).put (F.DGU_SCAN_DONE_COUNT i) 0
    let s := (s.put (F.DGU_SCAN_CTRL_STATE i) scArmed).setScan i { items := items, armCycle := s.cycle }
    if ok then s else (s.logErr siteDgu 0x02 0x012 [i]).scanEnd i true

def execScanArm (dt : Nat) (who : Requester) (slot : Fin 8) (s : State) : Res :=
  regCmd dt who (O.DGU_SCAN_CTRL slot) (fun s => s.scanArm slot) s

/-- An evaluation of slot `i` in this TMP cycle has not taken place (R194). -/
def State.unEval (s : State) (i : Nat) : State :=
  let s := (s.evalsNow.filter fun e => e.1 == i).foldl (fun (s : State) e =>
    let s := s.put F.DGU_WINDOWS (s.get F.DGU_WINDOWS - 1)
    if e.2.2.1 then s.put (F.DGU_CH_UNSETTLED e.2.1) (s.get (F.DGU_CH_UNSETTLED e.2.1) - 1) else s) s
  { s with dgu := { s.dgu with evals := s.dgu.evals.filter fun e => e.1 != i } }

/-- The scan is discarded (R192): pending windows, drops, unwritten records and waiting updates of the slot, and its evaluations of
this TMP cycle (R194). -/
def State.scanDrop (s : State) (i : Nat) : State :=
  let s := s.unEval i
  let s := (List.range 16).foldl (fun s c =>
    let ch := s.cic c
    let ws := ch.windows.filter fun (w : Window) => w.slot != i
    if ws = ch.windows then s
    else (s.setCic c { ch with windows := ws }).put (F.DGU_CH_WIN_PEND c) ws.length) s
  let mine := fun (w : NtWrite) => match w.op with
    | .verdict slot _ _ _ _ => slot == i
    | _ => false
  let s := { s with
    nt := { s.nt with waiting := s.nt.waiting.filter fun w => !mine w },
    dgu := { s.dgu with
      ready := s.dgu.ready.filter fun p => p.1 != i,
      drops := s.dgu.drops.map fun (d : ScanDrop) => if d.slot = i then { d with live := false } else d } }
  ((s.setScan i {}).put (F.DGU_SCAN_CTRL_STATE i) scIdle).put (F.DGU_SCAN_CTRL_ARM i) 0

def execScanAbort (dt : Nat) (who : Requester) (slot : Fin 8) (s : State) : Res :=
  regCmd dt who (O.DGU_SCAN_CTRL slot) (fun s => s.scanDrop slot) s

/-- Whether some row of the pipe's bank that is eligible at line `k` maps the section (R184). -/
def State.sectionOnLine (s : State) (n b k sec : Nat) : Bool :=
  (List.range 4).any fun f => (List.range 4).any fun q => s.rowOnLine n b f k && s.section n b f q == some sec

def State.lastDropOf (s : State) (c g : Nat) : Option Nat :=
  Sparse.get (fun _ => none) s.dgu.lastDrop (32 * c + g)

/-- Whether channel `c` can take a drop of slot `i` on line `k` of generator `g`: spacing, and fewer than 64 windows pending (R184, 5
and 6). -/
def State.chanFree (s : State) (i c g k : Nat) : Bool :=
  let gap := max 1 (s.get (F.DGU_SCAN_CTRL_SPACING i))
  let spaced := match s.lastDropOf c g with
    | some k0 => decide (k0 + gap ≤ k)
    | none => true
  spaced && (s.cic c).windows.length < 64

/-- One channel's turn on a scan line: the first nozzle that meets R184. -/
def State.assignDrop (s : State) (i c n b g k : Nat) : State :=
  let want := s.get (F.DGU_SCAN_CTRL_REPEAT_M1 i) + 1
  let fits := fun (it : ScanItem) => it.verdict == none && it.assigned < want && s.chanOf it.nozzle == some c
    && s.sectionOnLine n b k (it.nozzle / 16384) && s.headEn (headOf it.nozzle)
  if !s.chanFree i c g k then s
  else match (s.scan i).items.findIdx? fits, (s.scan i).items.find? fits with
    | some j, some it =>
      let d : ScanDrop := {
        head := headOf it.nozzle, pipe := n, k := k, q := it.nozzle % 4096,
        dose := s.get (F.DGU_SCAN_CTRL_DOSE i), chan := c, slot := i, item := j }
      let s := s.setItem i j fun it => { it with assigned := it.assigned + 1 }
      { s with dgu := { s.dgu with
          drops := s.dgu.drops ++ [d], lastDrop := Sparse.set (fun _ => none) s.dgu.lastDrop (32 * c + g) (some k) } }
    | _, _ => s

/-- A launch of line `k` at `pos` (2^-16 nm) by generator `g`, as slot `i` sees it (R184, R192). DESIGN CHOICE (assumption 102): a
launch that a DRAINING pipe discards (R114) carries no drops. -/
def State.scanLine (s : State) (i g k pos : Nat) : State :=
  let n := s.get (F.DGU_SCAN_CTRL_RP i)
  let st := s.scanState i
  if s.pipeGen n != g || !(st = scArmed || st = scScanning) || (s.scan i).armCycle == s.cycle then s
  else if 2 ^ 16 * s.get (F.DGU_SCAN_END_WCO i) ≤ pos then s.scanCut i
  else if 2 ^ 16 * s.get (F.DGU_SCAN_START_WCO i) ≤ pos && s.pipeState n != rpDraining then
    let s := s.put (F.DGU_SCAN_CTRL_STATE i) scScanning
    let b := s.activeBank n
    let s := (List.range 16).foldl (fun s c => s.assignDrop i c n b g k) s
    let want := s.get (F.DGU_SCAN_CTRL_REPEAT_M1 i) + 1
    if (s.scan i).items.all fun it => it.verdict != none || want ≤ it.assigned then s.scanEnd i false else s
  else s

/-- A launch as the DGU sees it: the slots in order (R184). -/
def State.scanLaunch (s : State) (g k pos : Nat) : State :=
  (List.range 8).foldl (fun s i => s.scanLine i g k pos) s

/-! ### Result records (R191) -/

/-- A mean rounded down; over no drops the manual states none, and it is free. -/
def State.meanOr (s : State) (sum : Int) (n : Nat) : Nat × State :=
  if n = 0 then
    let (v, s) := s.draw
    (v.toNat, s)
  else (unsigned 32 (sum / (n : Int)), s)

/-- The 32 bytes of a result record (R191). -/
def State.resultRecord (s : State) (slot : Nat) (it : ScanItem) : List Byte × State :=
  let (a, s) := s.meanOr it.sumA it.nAQ
  let (q, s) := s.meanOr it.sumQ it.nAQ
  let (t, s) := s.meanOr it.sumT it.nT
  let (f, s) := match it.firstS with
    | some f => (f, s)
    | none =>
      let (v, s) := s.draw
      (v.toNat, s)
  let w0 := field 0 19 it.nozzle + field 20 3 (it.verdict.getD 0) + field 23 1 (b2n it.updated) + field 24 3 slot
  let w1 := field 0 7 it.good + field 8 7 it.weak + field 16 7 it.missing + field 24 7 it.misdir
  let w2 := field 0 7 it.unsettled + field 8 7 it.notFired
  (toBytes 4 w0 ++ toBytes 4 w1 ++ toBytes 4 w2 ++ toBytes 4 (a % 2 ^ 24) ++ toBytes 4 q ++ toBytes 4 t
    ++ toBytes 4 f ++ toBytes 4 0, s)

/-- The ring has no room for a record, or is not enabled (R191, R202): it is dropped. -/
def State.resFull (s : State) (slot nozzle : Nat) : State :=
  let s := s.bump F.DGU_RES_LOST
  if s.dgu.fullSeen then s
  else ({ s with dgu := { s.dgu with fullSeen := true } }.raise (384 + 17)).logErr siteDgu 0x06 0x030 [slot, nozzle]

/-- The record of a slot's item goes to the ring (R191). -/
def State.recordWrite (s : State) (slot item : Nat) : State :=
  match (s.scan slot).items[item]? with
  | none => s
  | some it =>
    let s := s.setItem slot item fun it => { it with recorded := true }
    let size := 2 ^ s.get F.DGU_RES_CFG_SIZE_LOG2
    let prod := s.get F.DGU_RES_PROD
    let used := (prod + 2 ^ 32 - s.get F.DGU_RES_CONS) % 2 ^ 32
    let s :=
      if !s.on F.DGU_RES_CFG_EN || size ≤ used then s.resFull slot it.nozzle
      else
        let s := { s with dgu := { s.dgu with fullSeen := false } }
        let (r, s) := s.resultRecord slot it
        let (ok, s) := s.memWrite 14 (s.get F.DGU_RES_BASE + 32 * (prod % size)) r
        if !ok then s.logErr siteDgu 0x02 0x013 [slot, it.nozzle]
        else
          let s := s.bump F.DGU_RES_PROD
          if s.on F.DGU_RES_CFG_EVENT then s.raise (384 + 16) else s
    s.scanFinish slot

/-- Whether a record is to be written: not in the TMP cycle of an evaluation, which an ABORT may still discard (R194). -/
def State.recordDue (s : State) : Bool :=
  match s.dgu.ready with
  | [] => false
  | (slot, _) :: _ => !s.evalsNow.any fun e => e.1 == slot

/-- The next record whose update has been applied is written (R191). -/
def State.recordNext (s : State) : State :=
  match s.dgu.ready with
  | [] => s
  | (slot, item) :: rest => { s with dgu := { s.dgu with ready := rest } }.recordWrite slot item

def execResultRecordWrite (dt : Nat) (s : State) : Res :=
  evCmd dt State.recordDue State.recordNext s

end Sys2Proof.Machine
end

