-- ==== Sys2Proof/Machine/Hb.lean ====
section
/-! DEFINITION. Half-band chains (07 R195–R198) and the IPL's output writers (09 R257, R258). -/

namespace Sys2Proof.Machine

def State.hb (s : State) (i : Nat) : Hb := Sparse.get (fun _ => {}) s.dgu.hb i

def State.setHb (s : State) (i : Nat) (h : Hb) : State :=
  { s with dgu := { s.dgu with hb := Sparse.set (fun _ => {}) s.dgu.hb i h } }

def State.outRing (s : State) (i : Nat) : OutRing := Sparse.get (fun _ => {}) s.ipl.outs i

def State.setOutRing (s : State) (i : Nat) (o : OutRing) : State :=
  { s with ipl := { s.ipl with outs := Sparse.set (fun _ => {}) s.ipl.outs i o } }

/-! ### Configuration (R196, R197, R203, R257) -/

def State.hbH (s : State) (i : Nat) : Nat := min 6 (s.get (F.DGU_HB_CFG_HSTAGES i))
def State.hbV (s : State) (i : Nat) : Nat := min 6 (s.get (F.DGU_HB_CFG_VSTAGES i))
def State.hbComp (s : State) (i : Nat) : Nat := max 1 (s.get (F.DGU_HB_CFG_COMP i))
def State.hbBits (s : State) (i : Nat) : Nat := if s.on (F.DGU_HB_CFG_IN_BITS i) then 12 else 8

/-- SW (R229). -/
def State.stWidth (s : State) : Nat := s.get F.IPL_WIDTH_SW_M1 + 1

/-- Components of the stitched image (R230). -/
def State.iplComps (s : State) : Nat := 1 + 2 * s.get F.IPL_CTRL_COMP

/-- A width after horizontal stages (R196). -/
def halved : Nat → Nat → Nat
  | 0, w => w
  | n + 1, w => halved n ((w + 1) / 2)

/-- Wo of chain `i` (R197). -/
def State.hbOut (s : State) (i : Nat) : Nat := halved (s.hbH i) s.stWidth

/-- The components of a tap (R257); 0 for SRC 4 to 7. -/
def State.tapComps (s : State) (src : Nat) : Nat :=
  match src with
  | 0 => s.iplComps
  | 1 => 1
  | 2 => 2
  | 3 => 1
  | _ => 0

/-- Whether chain `i` matches its tap (R257). -/
def State.hbMatches (s : State) (i : Nat) : Bool :=
  s.hbComp i == s.tapComps (s.get (F.DGU_HB_CFG_SRC i)) && !s.on (F.DGU_HB_CFG_IN_BITS i)

/-- The line buffer suffices, and the input width is in range (R197). -/
def State.hbFits (s : State) (i : Nat) : Bool :=
  10 * s.hbV i * s.hbOut i * s.hbComp i * s.hbBits i ≤ 12582912 && s.stWidth ≤ 98304

/-- A chain's stream starts anew (R196, R257). -/
def State.hbRestart (s : State) (i : Nat) : State :=
  (s.setHb i { stages := List.replicate (s.hbV i) {} }).setOutRing i { s.outRing i with luma := [], chroma := [] }

/-- EN of a chain is set (R197). -/
def State.hbEnable (s : State) (i : Nat) : State :=
  if s.on (F.DGU_HB_CFG_EN i) then s
  else if s.hbFits i then (s.put (F.DGU_HB_CFG_EN i) 1).hbRestart i
  else (s.flag (F.DGU_HB_STAT_CFG_ERR i)).logErr siteHb 0x01 0x003 [i]

def execHbChainEnable (dt : Nat) (who : Requester) (i : Fin 4) (s : State) : Res :=
  regCmd dt who (O.DGU_HB_CFG i) (fun s => s.hbEnable i) s

/-! ### Filters (R195, R196) -/

/-- The taps of the filter, in 512ths. -/
def hbTaps : List Int := [3, 0, -25, 0, 150, 256, 150, 0, -25, 0, 3]

/-- Rounding and clamping of a stage. -/
def hbRound (sum : Int) : Nat := (min 255 (max 0 ((sum + 256) / 512))).toNat

/-- The index that position `p` mirrors to in a line of width `w`. -/
def mirrored (w : Nat) (p : Int) : Nat :=
  if w ≤ 1 then 0
  else
    let q := (p % ((2 * (w - 1) : Nat) : Int)).toNat
    if q < w then q else 2 * (w - 1) - q

/-- One horizontal stage over a row. -/
def hbRow (x : List Nat) : List Nat :=
  (List.range ((x.length + 1) / 2)).map fun i =>
    hbRound (((List.range 11).zip hbTaps).foldl (fun a t =>
      a + t.2 * (x.getD (mirrored x.length ((2 * i : Nat) + (t.1 : Int) - 5)) 0 : Nat)) 0)

/-- `n` horizontal stages. -/
def hbRows : Nat → List Nat → List Nat
  | 0, x => x
  | n + 1, x => hbRows n (hbRow x)

/-- One vertical output from the eleven lines around its centre. -/
def hbColumn (ls : List (List Nat)) : List Nat :=
  (List.range ((ls.headD []).length)).map fun x =>
    hbRound ((ls.zip hbTaps).foldl (fun a t => a + t.2 * (t.1.getD x 0 : Nat)) 0)

/-- What has become of a word in a line buffer or delay store between its write and its reads: no command upsets stored bits, so it
is free (R198, R235; DESIGN CHOICE, assumption 100). -/
def upsetOf (v : DWord) : Mark :=
  match v.toNat % 4 with
  | 1 => .corrected
  | 2 => .uncorrectable
  | _ => .good

/-- A vertical stage takes a line: line `c + 5` completes the output centred on an even line `c`, with the start of
the stream mirrored (R196, R197). The output is bad where a buffer line that it uses is or was (R198); the number counts the
lines with a corrected word that it uses. -/
def HbStage.take (st : HbStage) (l : HbLine) : (Option HbLine × Nat) × HbStage :=
  let i := st.taken
  let recent := (l :: st.recent).take 11
  let st := { taken := i + 1, recent := recent }
  if i < 5 || i % 2 = 0 then ((none, 0), st)
  else
    let c : Int := (i : Int) - 5
    let used := (List.range 11).filterMap fun (t : Nat) => recent[i - (c + (t : Int) - 5).natAbs]?
    match recent[5]? with
    | none => ((none, 0), st)
    | some centre =>
      let comps := (List.range centre.comps.length).map fun j => hbColumn (used.map fun u => u.comps.getD j [])
      let used := (used.eraseDups : List HbLine)
      ((some { k := centre.k, strip := centre.strip, comps := comps, bad := used.any fun u => u.bad || u.mark == .uncorrectable },
        (used.filter fun u => u.mark == .corrected).length), st)

/-- The vertical stages in cascade, each with the mark that free value `d` on gives the line in its buffer; with the lines that
were corrected. -/
def vertical : Nat → List HbStage → HbLine → (Option HbLine × Nat) × List HbStage
  | _, [], l => ((some l, 0), [])
  | d, st :: sts, l =>
    match st.take { l with mark := upsetOf (Config.freeValue d) } with
    | ((none, n), st) => ((none, n), st :: sts)
    | ((some l, n), st) =>
      let ((o, m), sts) := vertical (d + 1) sts l
      ((o, n + m), st :: sts)

/-! ### Output writers (R258) -/

/-- The size of writer `i`'s entries. -/
def State.entrySize (s : State) (i : Nat) : Nat :=
  if s.on (F.IPL_OUT_CFG_MODE i) then 64 + (s.hbOut i + 63) / 64 * 6144
  else 64 + (s.hbOut i * s.hbComp i + 63) / 64 * 64

/-- Whether writer `i` may be enabled (R257, R258). -/
def State.writerOk (s : State) (i : Nat) : Bool :=
  s.hbMatches i && (!s.on (F.IPL_OUT_CFG_MODE i) ||
    (i < 3 && s.get (F.DGU_HB_CFG_SRC i) == 1 && s.get (F.DGU_HB_CFG_SRC (i + 1)) == 2
      && s.hbH (i + 1) == s.hbH i + 1 && s.hbV (i + 1) == s.hbV i + 1))

/-- EN of a writer is set (R258): refused, EN stays 0, since it alone says that the writer is enabled. -/
def State.writerEnable (s : State) (i : Nat) : State :=
  if s.writerOk i then
    ((s.put (F.IPL_OUT_CFG_EN i) 1).put (F.IPL_OUT_ENTRY_SIZE i) (s.entrySize i)).setOutRing i {}
  else s.logErr siteIpl 0x01 0x001 [0, i]

/-- The header of an entry. -/
def entryHeader (k strip w : Nat) : List Byte := toBytes 8 k ++ toBytes 4 strip ++ toBytes 4 w ++ toBytes 48 0

/-- Bytes padded with zeros to a multiple of 64. -/
def pad64 (b : List Byte) : List Byte := b ++ List.replicate ((64 - b.length % 64) % 64) 0

/-- An entry goes to writer `i`'s ring. -/
def State.writeEntry (s : State) (i k : Nat) (entry : List Byte) : State :=
  let size := 2 ^ s.get (F.IPL_OUT_CFG_SIZE_LOG2 i)
  let prod := s.get (F.IPL_OUT_PROD i)
  let o := s.outRing i
  if size ≤ (prod + 2 ^ 32 - s.get (F.IPL_OUT_CONS i)) % 2 ^ 32 then
    let s := s.bump (F.IPL_OUT_LOST i)
    let s := if o.full then s else (s.setOutRing i { o with full := true }).logErr siteIpl 0x06 0x032 [k % 2 ^ 32, i]
    s.raise (512 + 5 + i)
  else
    let s := s.setOutRing i { o with full := false }
    let (ok, s) := s.memWrite 9 (s.get (F.IPL_OUT_BASE i) + prod % size * entry.length) entry
    if ok then s.bump (F.IPL_OUT_PROD i) else s.logErr siteIpl 0x02 0x013 [k % 2 ^ 32, i]

/-- A byte of a sample. -/
def sampleByte (v : Nat) : Byte := BitVec.ofNat 8 v

/-- The samples of a line, interleaved by component. -/
def interleave (comps : List (List Nat)) : List Nat :=
  (List.range (comps.headD []).length).flatMap fun x => comps.map fun c => c.getD x 0

/-- The tiles of a coding tile row: 64 lines of luma and 32 of chroma. -/
def tileRow (w : Nat) (luma chroma : List HbLine) : List Byte :=
  (List.range ((w + 63) / 64)).flatMap fun t =>
    (luma.flatMap fun l => (List.range 64).map fun x => sampleByte ((l.comps.getD 0 []).getD (64 * t + x) 16))
      ++ chroma.flatMap fun l => (List.range 32).flatMap fun x => (List.range 2).map fun c =>
        sampleByte ((l.comps.getD c []).getD (32 * t + x) 128)

/-- A coding tile row is complete: it is written (R258). -/
def State.codingRow (s : State) (i : Nat) : State :=
  let o := s.outRing i
  if 64 ≤ o.luma.length && 32 ≤ o.chroma.length then
    match o.luma.head? with
    | none => s
    | some l =>
      let w := s.hbOut i
      let e := entryHeader l.k l.strip w ++ tileRow w (o.luma.take 64) (o.chroma.take 32)
      (s.setOutRing i { o with luma := o.luma.drop 64, chroma := o.chroma.drop 32 }).writeEntry i l.k e
  else s

/-- A chain's output line reaches the writers (R258). -/
def State.writerTake (s : State) (i : Nat) (l : HbLine) : State :=
  let coding := fun (j : Nat) => s.on (F.IPL_OUT_CFG_EN j) && s.on (F.IPL_OUT_CFG_MODE j)
  if 0 < i && coding (i - 1) then
    let o := s.outRing (i - 1)
    (s.setOutRing (i - 1) { o with chroma := o.chroma ++ [l] }).codingRow (i - 1)
  else if coding i then
    let o := s.outRing i
    (s.setOutRing i { o with luma := o.luma ++ [l] }).codingRow i
  else if s.on (F.IPL_OUT_CFG_EN i) then
    s.writeEntry i l.k (entryHeader l.k l.strip (l.comps.headD []).length
      ++ pad64 ((interleave l.comps).map sampleByte))
  else s

/-- The samples of a line that failed words took part in: free (R198). -/
def State.blurLine (s : State) (l : HbLine) : HbLine × State :=
  let comps := l.comps.mapIdx fun c x => x.mapIdx fun j _ => (Config.freeValue (s.draws + c * x.length + j)).toNat % 256
  ({ l with comps := comps }, { s with draws := s.draws + (l.comps.map List.length).sum })

/-- A chain emits an output line (R197, R198). The rings of R258 have no mark for a bad line, so it is written as it is. -/
def State.hbEmit (s : State) (i : Nat) (l : HbLine) : State :=
  let s := s.bump (F.DGU_HB_LINES_OUT i)
  if l.bad then
    let (l, s) := (((s.flag (F.DGU_HB_STAT_BAD_LINE i)).logErr siteHb 0x02 0x011 [i]).raise (384 + 20)).blurLine l
    s.writerTake i l
  else s.writerTake i l

/-- A tap's line enters the chains that take it (R196, R197, R257). -/
def State.hbFeed (s : State) (src : Nat) (l : HbLine) : State :=
  (List.range 4).foldl (fun s i =>
    if s.on (F.DGU_HB_CFG_EN i) && s.get (F.DGU_HB_CFG_SRC i) == src && s.hbMatches i then
      let stages := (s.hb i).stages
      let ((o, n), sts) := vertical s.draws stages { l with comps := l.comps.map (hbRows (s.hbH i)) }
      let s := { s with draws := s.draws + stages.length }.setHb i { stages := sts }
      let s := if n = 0 then s else s.bump (F.DGU_HB_ECC_CORR i) n
      match o with
      | some l => s.hbEmit i l
      | none => s
    else s) s

end Sys2Proof.Machine
end

