-- ==== Sys2Proof/Machine/Wtu.lean ====
section
/-! DEFINITION. The Web Timing Unit (02): encoder inputs, counts, motion states and speeds, the Web
Coordinate, snapshots, SSI inputs, repeaters and launch slots. Positions are in 2^-16 nm, the
accumulator format of R46. -/

namespace Sys2Proof.Machine

/-- SCALE of decoder `n`, in 2^-16 nm per count (R46). -/
def State.scale (s : State) (n : Nat) : Nat := s.get (F.WTU_ENC_SCALE n)

/-- A decoder's speed in 2^-32 nm per Tempo unit, as WTU_SPEED reports it (R42). -/
def Decoder.speed (d : Decoder) : Int := roundHalfAway (2 ^ 16 * d.spdNum) d.spdDen

/-- A decoder's speed in µm/s (R42): 1 nm per Tempo unit is 4,000,000 µm/s. -/
def Decoder.umps (d : Decoder) : Int := roundHalfAway (4000000 * d.spdNum) (65536 * d.spdDen)

/-! ### The output position (R50, R51) -/

/-- CLAMP × SCALE of the source, in 2^-16 nm (R50). -/
def State.clampSpan (s : State) : Int := ((s.get F.WTU_EXTRAP_CLAMP * s.scale s.src / 16 : Nat) : Int)

/-- The extrapolated position e(t) at Tempo `t` (R50). -/
def State.extrap (s : State) (t : Nat) : Int :=
  let w : Int := (s.wtu.latchW.toNat : Int)
  let e := w + s.wtu.latchV * ((t : Int) - s.wtu.latchT) / 2 ^ 16
  if s.wtu.latchV = 0 then w
  else if 0 < s.wtu.latchV then min e (w + s.clampSpan)
  else max 0 (max e (w - s.clampSpan))

/-- The output position o(t) now (R51): it follows e(t) in the tracking direction only. -/
def State.outPos (s : State) : Int :=
  let o : Int := (s.wtu.outBase.toNat : Int)
  if (s.dec s.src).dirRev then min o (s.extrap s.now) else max o (s.extrap s.now)

/-- WCO, the integer part of the output position (R51). -/
def State.wco (s : State) : Nat := ((s.outPos / 2 ^ 16) % 2 ^ 64).toNat

/-- The cycles in (clampFrom, now] at which the clamp of R50 applied. -/
def State.clampCycles (s : State) : Nat :=
  if s.wtu.latchV = 0 then 0
  else
    let reach := s.wtu.latchT + (2 ^ 16 * s.clampSpan / s.wtu.latchV.natAbs).toNat
    s.now / 8 - max s.wtu.clampFrom reach / 8

/-- WTU_CLAMP_COUNT brought up to now. -/
def State.settleClamp (s : State) : State :=
  let s' := s.bump F.WTU_CLAMP_COUNT s.clampCycles
  { s' with wtu := { s'.wtu with clampFrom := s.now } }

/-- The output position up to now stands, whatever the clamp becomes (R50, R51). -/
def State.holdOut (s : State) : State :=
  let s := s.settleClamp
  { s with wtu := { s.wtu with outBase := BitVec.ofInt 80 s.outPos } }

/-- A new latch pair (R50): position `w`, stamp `t` and the source speed; `base` is the output position
that o(t) follows from. WTU_LATCH_WCO and WTU_LATCH_TEMPO show the pair. -/
def State.setPair (s : State) (w : Int) (t : Nat) (v : Int) (base : Int) : State :=
  let s := s.settleClamp
  let w80 := BitVec.ofInt 80 w
  let s := { s with wtu := { s.wtu with
    latchW := w80, latchT := t, latchV := v, pairAt := s.now, outBase := BitVec.ofInt 80 base } }
  (s.put F.WTU_LATCH_WCO (w80.toNat / 2 ^ 16)).put F.WTU_LATCH_TEMPO t

/-- The resume position of the inhibit in force (R140). -/
def State.setResume (s : State) (r : Option Nat) : State :=
  { s with ftu := { s.ftu with
      inhibits := s.ftu.inhibits.mapIdx fun i p => if i + 1 = s.ftu.inhibits.length then (p.1, r) else p } }

/-- An inhibit begins (R140, R141): the current WCO is latched. -/
def State.startInhibit (s : State) : State :=
  let w := s.wco
  let s := ((s.put F.FTU_OVS_INH_WCO w).put F.FTU_OVS_CTRL_INH_ACTIVE 1).flag F.FTU_OVS_CTRL_INH_SEEN
  ({ s with ftu := { s.ftu with inhibits := s.ftu.inhibits ++ [(w, none)] } }.logErr siteFtu 0x03 0x031 []).raise (320 + 49)

/-- OVER_LIMIT rises (R140, steps 1 and 3): under policy 1 an inhibit begins, or its resume position is
discarded. -/
def State.overLimitRose (s : State) : State :=
  if !s.on F.FTU_OVS_CTRL_POLICY then s
  else if s.on F.FTU_OVS_CTRL_INH_ACTIVE then s.setResume none
  else s.startInhibit

/-- OVER_LIMIT falls (R140, step 2): the resume position is latched. -/
def State.overLimitFell (s : State) : State :=
  if s.on F.FTU_OVS_CTRL_INH_ACTIVE then
    let r := s.wco + s.get F.FTU_OVS_HOLD
    (s.put F.FTU_OVS_RES_WCO r).setResume (some r)
  else s

/-- WTU_STATUS and the speed registers follow the source decoder; a crossing of the speed limit, with its
hysteresis of 1/64, raises event 12 or 13 (R42, R64, R66). -/
def State.showSource (s : State) : State :=
  let d := s.dec s.src
  let s := s.put F.WTU_STATUS_STATE (s.motion s.src)
  let s := (s.putInt F.WTU_SPEED d.speed).putInt F.WTU_SPEED_UMPS d.umps
  let a := d.umps.natAbs
  let limit := s.get F.WTU_SPEED_LIMIT
  if s.on F.WTU_STATUS_OVER_LIMIT then
    if 64 * a < 63 * limit then ((s.put F.WTU_STATUS_OVER_LIMIT 0).raise (128 + 13)).overLimitFell else s
  else if limit < a then
    (((s.put F.WTU_STATUS_OVER_LIMIT 1).flag F.WTU_STATUS_OVER_LIMIT_SEEN).raise (128 + 12)).overLimitRose
  else s

/-- A decoder's speed changes, and its register with it (R42). -/
def State.setSpeed (s : State) (n : Nat) (num : Int) (den : Nat) : State :=
  let s := s.setDec n { s.dec n with spdNum := num, spdDen := den }
  s.putInt (F.WTU_ENC_SPEED_UMPS n) (s.dec n).umps

/-- A decoder's travel since XCHK_EN was set or the measurements restarted, in 2^-16 nm (R49). -/
def State.travel (s : State) (n : Nat) : Int := Sparse.get (fun _ => 0) s.wtu.travel n

/-- A difference of the two decoders' travels beyond the limit is reported, and restarts the measurements (R49). -/
def State.compareTravel (s : State) : State :=
  if s.on F.WTU_CTRL_XCHK_EN
      && 2 ^ 16 * (s.get F.WTU_XCHK_LIMIT) < (s.travel s.src - s.travel (s.get F.WTU_CTRL_XCHK_SRC)).natAbs then
    let s := { s with wtu := { s.wtu with travel := [] } }
    ((s.flag F.WTU_STATUS_XCHK_FAIL).raise (128 + 14)).logErr (siteWtu 0) 0x02 0x014 [0]
  else s

/-- A decoder's travel grows by a tracked change (R49); every decoder's is kept, since either name may change. -/
def State.crossCheck (s : State) (n : Nat) (delta : Int) : State :=
  if s.on F.WTU_CTRL_XCHK_EN then
    State.compareTravel { s with wtu := { s.wtu with
      travel := Sparse.set (fun _ => 0) s.wtu.travel n (s.travel n + delta * s.scale n) } }
  else s

/-- A tracked count change of the source moves the accumulator, held at 0 with UNDERFLOW, and forms a
latch pair; a reversal sets the output position to W_L (R46, R50, R51). -/
def State.moveWco (s : State) (n : Nat) (delta : Int) (stamp : Nat) (reversal : Bool) : State :=
  if n = s.src then
    let o := s.outPos
    let a := (s.wtu.acc.toNat : Int) + delta * s.scale n
    let under := decide (a < 0)
    let a := if under then 0 else a % 2 ^ 80
    let s := if under then (s.flag F.WTU_STATUS_UNDERFLOW).logErr (siteWtu 0) 0x03 0x026 [0] else s
    let s := { s with wtu := { s.wtu with acc := BitVec.ofInt 80 a } }
    s.setPair a stamp (s.dec n).speed (if reversal then a else o)
  else s

/-- The speed after a tracked edge: the distance between the oldest and newest of the last N + 1 tracked
edges over the time between them, once two edges exist (R42). The distance is taken with the SCALE in force, whatever it was at
the earlier edges (DESIGN CHOICE, assumption 83). -/
def State.estimate (s : State) (n : Nat) : State :=
  let avg := min 6 (s.get F.WTU_EXTRAP_AVG_LOG2)
  let h := (s.dec n).hist.take (2 ^ avg + 1)
  match h.head?, h.getLast? with
  | some new, some old =>
    if 2 ≤ h.length then
      s.setSpeed n (signed 32 (new.1 - old.1).toNat * s.scale n) (max 1 (new.2 - old.2))
    else s
  | _, _ => s

/-- A tracked edge in the tracking direction (R40–R42). -/
def State.trackedEdge (s : State) (n : Nat) (delta : Int) (stamp : Nat) : State :=
  let d := s.dec n
  let edge := (BitVec.ofNat 32 (s.get (F.WTU_ENC_TRACK n)), stamp)
  let m := s.motion n
  let s := s.setDec n { d with
    hist := if m = stStill || m = stFrozen then [edge] else (edge :: d.hist).take 65, lastTracked := s.now }
  let s :=
    if m = stStill then s.setMotion n (if d.dirRev then stRevStart else stFwdStart)
    else if m = stFrozen then s
    else
      let s := s.estimate n
      if m = stFwdStart then s.setMotion n stForward
      else if m = stRevStart then s.setMotion n stReverse
      else s
  (s.moveWco n delta stamp false).crossCheck n delta

/-- A reversal: the first tracked edge in its new direction (R40, R41). -/
def State.reversal (s : State) (n : Nat) (rev : Bool) (delta : Int) (stamp : Nat) : State :=
  let edge := (BitVec.ofNat 32 (s.get (F.WTU_ENC_TRACK n)), stamp)
  let s := s.setDec n { s.dec n with dirRev := rev, hist := [edge], lastTracked := s.now }
  let s := s.setSpeed n 0 1
  let s := s.setMotion n (if rev then stRevStart else stFwdStart)
  let s := (s.flag (F.WTU_ENC_STAT_REVERSED n)).raise (128 + n)
  (s.moveWco n delta stamp true).crossCheck n delta

/-- A counted transition: the raw count moves by `delta` and the tracked count follows it by the backlash
rule (R38, R40). -/
def State.count (s : State) (n : Nat) (delta : Int) (stamp : Nat) : State :=
  let s := s.putInt (F.WTU_ENC_RAW n) ((s.get (F.WTU_ENC_RAW n) : Int) + delta)
  let raw := s.get (F.WTU_ENC_RAW n)
  let diff := signed 32 (raw + 2 ^ 32 - s.get (F.WTU_ENC_TRACK n))
  let back : Int := (s.get (F.WTU_ENC_CFG_BACKLASH n) : Int)
  let moved := s.put (F.WTU_ENC_TRACK n) raw
  if (s.dec n).dirRev then
    if diff < 0 then moved.trackedEdge n diff stamp
    else if back < diff then moved.reversal n false diff stamp
    else s
  else
    if 0 < diff then moved.trackedEdge n diff stamp
    else if back < -diff then moved.reversal n true diff stamp
    else s

/-- A clean accepted transition; the 64th in succession ends FROZEN (R41). -/
def State.cleanOne (s : State) (n : Nat) : State :=
  let d := { s.dec n with clean := (s.dec n).clean + 1 }
  let s := s.setDec n d
  if s.motion n = stFrozen && 64 ≤ d.clean then
    s.setMotion n (if d.dirRev then stReverse else stForward)
  else s

/-! ### Accepted transitions -/

/-- The quadrature position of the levels A, B: A leading B goes 0, 1, 2, 3 (R38). -/
def quad (a b : Bool) : Nat :=
  match a, b with
  | false, false => 0
  | true, false => 1
  | true, true => 2
  | false, true => 3

/-- The filtered levels in STAT (R66). -/
def State.showLevels (s : State) (n : Nat) : State :=
  let d := s.dec n
  ((s.put (F.WTU_ENC_STAT_A n) (b2n d.a.level)).put (F.WTU_ENC_STAT_B n) (b2n d.b.level)).put
    (F.WTU_ENC_STAT_Z n) (b2n d.z.level)

/-- Whether an accepted transition of A or B in TMP cycle `c` is closer to the one before than MINIVL (R44). -/
def State.tooFast (s : State) (n c : Nat) : Bool :=
  match (s.dec n).lastAccCycle with
  | some c0 => decide (c - c0 < s.get (F.WTU_ENC_CFG_MINIVL n))
  | none => false

/-- The interval check of an accepted transition of A or B in TMP cycle `c` (R44). It comes before the count, so that the speed
held in FROZEN is the one before the interval that was too short (R41; DEDUCED, assumption 10). -/
def State.checkInterval (s : State) (n c : Nat) : State :=
  let fast := s.tooFast n c
  let s := s.setDec n { s.dec n with lastAccCycle := some c }
  if fast then s.overRate n else s

/-- In FROZEN only the edge of the transition that ends it may stand in the estimate (R42). -/
def State.dropFrozenHist (s : State) (n : Nat) : State :=
  if s.motion n = stFrozen then s.setDec n { s.dec n with hist := [] } else s

/-- The accepted transitions of one TMP cycle of decoder `n` (R37–R45): both lines at once are illegal, which restarts the count
of clean transitions;
one line counts by the quadrature step; a rising Z latches the index after the count, whenever Z_EN is 1: R41 does not name the
index among what EN = 0 holds or keeps running (DESIGN CHOICE, assumption 82). -/
def State.acceptCycle (s : State) (n : Nat) : State :=
  let d := s.dec n
  let filt := s.get (F.WTU_ENC_CFG_FILT n)
  let cyc := fun l : EncLine => if l.due filt s.now then some ((l.seen s.now).acceptCycle filt) else none
  let first := [cyc d.a, cyc d.b, cyc d.z].filterMap id |>.foldl min (2 ^ 64)
  let hit := fun l : EncLine => cyc l == some first
  let (ha, hb, hz) := (hit d.a, hit d.b, hit d.z)
  let q0 := quad d.a.level d.b.level
  let a := if ha then d.a.accept s.now else d.a
  let b := if hb then d.b.accept s.now else d.b
  let z := if hz then d.z.accept s.now else d.z
  let s := ((s.setDec n { d with a := a, b := b, z := z }).showLevels n).driveRepeaters s
  let step := (quad a.level b.level + 4 - q0) % 4
  let forward := (step == 1) != s.on (F.WTU_ENC_CFG_INVERT n)
  let stamp := if ha then a.runStamp else b.runStamp
  let fast := s.tooFast n first
  let s := if ha || hb then s.checkInterval n first else s
  let s :=
    if ha && hb then
      let s := s.bump (F.WTU_ENC_ILLEGAL_COUNT n)
      let s := s.decError n (F.WTU_ENC_STAT_ILLEGAL n) 0x02 0x010
      s.setDec n { s.dec n with clean := 0 }
    else if ha || hb then
      let s := s.dropFrozenHist n
      let s := if s.on (F.WTU_ENC_CFG_EN n) then s.count n (if forward then 1 else -1) stamp else s
      if fast then s else s.cleanOne n
    else s
  let s :=
    if hz && z.level && s.on (F.WTU_ENC_CFG_Z_EN n) then
      ((s.put (F.WTU_ENC_ZRAW n) (s.get (F.WTU_ENC_RAW n))).put (F.WTU_ENC_ZTEMPO n) z.runStamp).raise (132 + n)
    else s
  if n = s.src then s.showSource else s

/-- Whether some line of decoder `n` has a level due for acceptance. -/
def State.acceptDue (s : State) (n : Nat) : Bool :=
  let d := s.dec n
  let filt := s.get (F.WTU_ENC_CFG_FILT n)
  d.a.due filt s.now || d.b.due filt s.now || d.z.due filt s.now

/-- Every line generator holds (R58). -/
def State.holdAll (s : State) : State := (List.range 32).foldl (fun s g => s.put (F.WTU_LG_CTRL_HOLD g) 1) s

/-- Decoder `n` returns to STILL with its counts held (R41): the reported speed is 0, and so is the
source's extrapolation, and the line generators hold. -/
def State.toStill (s : State) (n : Nat) : State :=
  let o := s.outPos
  let s := (s.setSpeed n 0 1).setMotion n stStill
  let s := s.setDec n { s.dec n with hist := [], clean := 0 }
  if n = s.src then
    let s := s.settleClamp.holdAll
    ({ s with wtu := { s.wtu with latchV := 0, outBase := BitVec.ofInt 80 o } }).showSource
  else s

/-- No tracked edge for WTU_STILL_TIME: the decoder falls to STILL (R41). -/
def execStandstillTimeout (dt : Nat) (n : Fin 4) (s : State) : Res :=
  evCmd dt (fun s => s.on (F.WTU_ENC_CFG_EN n) && s.motion n != stStill
      && (s.dec n).lastTracked + 8 * s.get F.WTU_STILL_TIME ≤ s.now) (fun s => s.toStill n) s

/-- Whether a line has had no accepted transition for WTU_STILL_TIME, and the other line of the decoder 4 or more in that time
(R43). -/
def State.lineStuck (s : State) (n : Nat) (i : EncInput) : Bool :=
  let d := s.dec n
  let l := d.line i
  let other := if i == .b then d.a else d.b
  let span := 8 * s.get F.WTU_STILL_TIME
  !l.stuckSeen && l.lastAcc + span ≤ s.now && 4 ≤ (other.accs.filter fun t => decide (s.now ≤ t + span)).length

/-- A stuck line: STUCK_A or STUCK_B and cause 0x021, once per episode (R43). -/
def execStuckLine (dt : Nat) (n : Fin 4) (lineB : Bool) (s : State) : Res :=
  let i : EncInput := if lineB then .b else .a
  evCmd dt (fun s => s.lineStuck n i)
    (fun s =>
      let d := s.dec n
      let s := s.setDec n (d.setLine i { d.line i with stuckSeen := true })
      s.decError n (if lineB then F.WTU_ENC_STAT_STUCK_B n else F.WTU_ENC_STAT_STUCK_A n) 0x03 0x021) s

/-- An input held at 1 for longer than LEVEL × 2^16 TMP cycles: LEVEL_A or LEVEL_B and cause 0x022, once
per episode (R43). -/
def execLevelTimeout (dt : Nat) (n : Fin 4) (lineB : Bool) (s : State) : Res :=
  let i : EncInput := if lineB then .b else .a
  evCmd dt (fun s =>
      let l := (s.dec n).line i
      l.level && !l.levelSeen && l.lastAcc + 8 * (2 ^ 16 * s.get (F.WTU_ENC_LEVEL n)) < s.now)
    (fun s =>
      let d := s.dec n
      let s := s.setDec n (d.setLine i { d.line i with levelSeen := true })
      s.decError n (if lineB then F.WTU_ENC_STAT_LEVEL_B n else F.WTU_ENC_STAT_LEVEL_A n) 0x03 0x022) s

/-! ### Snapshots (R52) -/

/-- WCO, Tempo and the source speed captured into snapshot `k`, in one TMP cycle. -/
def State.capture (s : State) (k : Nat) : State :=
  let s := if s.on (F.WTU_SNAP_CTRL_VALID k) then s.flag (F.WTU_SNAP_CTRL_OVERRUN k) else s
  let s := (s.put (F.WTU_SNAP_WCO k) s.wco).put (F.WTU_SNAP_TEMPO k) s.now
  (s.putInt (F.WTU_SNAP_SPEED k) (s.dec s.src).speed).flag (F.WTU_SNAP_CTRL_VALID k)

/-- An action that a register write or a task input triggers: the write needs the rights of R21. -/
def trigCmd (dt : Nat) (trig : Trigger) (off : Nat) (effect : State → State) (s : State) : Res :=
  match trig with
  | .reg who => regCmd dt who off effect s
  | .task => .next (if s.held then s.wait dt else effect (s.wait dt))

def execSnapshotCapture (dt : Nat) (trig : Trigger) (k : Fin 4) (s : State) : Res :=
  trigCmd dt trig (O.WTU_SNAP_CTRL k) (fun s => s.capture k) s

/-! ### SSI inputs (R53, R54) -/

/-- Whether BITS and HALFPER are in range (R53). -/
def State.ssiConfigOk (s : State) (m : Nat) : Bool :=
  let b := s.get (F.WTU_SSI_CFG_BITS m)
  let h := s.get (F.WTU_SSI_CFG_HALFPER m)
  13 ≤ b && b ≤ 32 && 25 ≤ h && h ≤ 2500

/-- A request at SSI input `m` (R53, R54): dropped with REQ_LOST while BUSY, refused with cause 0x004 on a
bad configuration, and otherwise the start of a transfer, no sooner than MONO after the last one. The first falling clock edge is
at the request, or at the end of that gap (DESIGN CHOICE, assumption 84); its stamp is accurate to ±2 ns, so its place in that range
is free. An input with EN = 0 starts nothing (assumption 9). -/
def State.ssiRequest (s : State) (m : Nat) : State :=
  if s.on (F.WTU_SSI_STAT_BUSY m) then s.flag (F.WTU_SSI_STAT_REQ_LOST m)
  else if !s.on (F.WTU_SSI_CFG_EN m) then s
  else if !s.ssiConfigOk m then s.logErr (siteWtu (4 + m)) 0x01 0x004 [0]
  else
    let start := max s.now (Sparse.get (fun _ => 0) s.wtu.ssiFree m)
    let (v, s) := s.draw
    let stamp := start + v.toNat % 17 - 8
    { s.put (F.WTU_SSI_STAT_BUSY m) 1 with
      wtu := { s.wtu with
        ssiFall := Sparse.set (fun _ => 0) s.wtu.ssiFall m start, ssiAt := Sparse.set (fun _ => 0) s.wtu.ssiAt m stamp } }

/-- The stamp of the first falling clock edge stands in WTU_SSIm_TEMPO from that edge on (R54): a transfer whose ready check failed
has ended by then. -/
def State.ssiStamp (s : State) (m : Nat) : State :=
  if s.on (F.WTU_SSI_STAT_BUSY m) && Sparse.get (fun _ => 0) s.wtu.ssiFall m ≤ s.now then
    s.put (F.WTU_SSI_TEMPO m) (Sparse.get (fun _ => 0) s.wtu.ssiAt m)
  else s

def execSsiRequest (dt : Nat) (trig : Trigger) (m : Fin 2) (s : State) : Res :=
  trigCmd dt trig (O.WTU_SSI_REQ m) (fun s => s.ssiRequest m) s

/-- Gray code to binary, `w` bits (R53). -/
def grayToBin (w g : Nat) : Nat :=
  (List.range w).foldl (fun b i => b ^^^ (g >>> i)) 0

/-- Whether the number of ones in `n` is odd. -/
def oddOnes (n : Nat) : Bool := (List.range 40).foldl (fun p i => p != bit n i) false

/-- An SSI transfer ends (R54): the ready and monoflop checks, the double read, the parity over position
and status bits; POS and STATUS are written only where every check passes, and DONE and event 8 + m
always. The double read compares the position bits; the second word's status and parity bits take no part (DESIGN CHOICE,
assumption 85). -/
def State.ssiDone (s : State) (m : Nat) (f : SsiFrame) : State :=
  let site := siteWtu (4 + m)
  let nbits := s.get (F.WTU_SSI_CFG_BITS m)
  let word := f.word.toNat % 2 ^ nbits
  let status := f.status.toNat % 2 ^ s.get (F.WTU_SSI_CFG_STATUS_BITS m)
  let par := s.get (F.WTU_SSI_CFG_PARITY m)
  let odd := (oddOnes word != oddOnes status) != f.parity
  let badFrame := !f.ready || f.mono
  let badDouble := f.ready && s.on (F.WTU_SSI_CFG_DOUBLE m) && f.second.toNat % 2 ^ nbits != word
  let badParity := f.ready && ((par == 1 && odd) || (par == 2 && !odd))
  let s := if f.ready then s.put (F.WTU_SSI_TEMPO m) (Sparse.get (fun _ => 0) s.wtu.ssiAt m) else s
  let s := if badFrame then (s.flag (F.WTU_SSI_STAT_FRAME_ERR m)).logErr site 0x02 0x011 [0] else s
  let s := if badDouble then (s.flag (F.WTU_SSI_STAT_MISMATCH m)).logErr site 0x02 0x013 [0] else s
  let s := if badParity then (s.flag (F.WTU_SSI_STAT_PARITY_ERR m)).logErr site 0x02 0x012 [0] else s
  let s :=
    if badFrame || badDouble || badParity then s
    else
      let pos := if s.on (F.WTU_SSI_CFG_GRAY m) then grayToBin nbits word else word
      (s.put (F.WTU_SSI_POS m) pos).put (F.WTU_SSI_STAT_STATUS m) status
  let free := s.now + 8 * s.get (F.WTU_SSI_MONO m)
  let s := (s.put (F.WTU_SSI_STAT_BUSY m) 0).flag (F.WTU_SSI_STAT_DONE m)
  ({ s with wtu := { s.wtu with ssiFree := Sparse.set (fun _ => 0) s.wtu.ssiFree m free } }).raise (136 + m)

def execSsiTransferDone (dt : Nat) (m : Fin 2) (frame : SsiFrame) (s : State) : Res :=
  evCmd dt (fun s => s.on (F.WTU_SSI_STAT_BUSY m)) (fun s => s.ssiDone m frame) s

/-! ### Launch slots (R61, R62) -/

/-- The Tempo at which o(t) is predicted to reach position `p`, where the source speed is positive (R56). -/
def State.predict (s : State) (p : Int) : Option Int :=
  if 0 < s.wtu.latchV then
    some (s.wtu.latchT + roundHalfUp (2 ^ 16 * (p - s.wtu.latchW.toNat)) s.wtu.latchV)
  else none

def State.launchSlot (s : State) (i : Nat) : Slot := Sparse.get (fun _ => {}) s.wtu.slot i

def State.setLaunchSlot (s : State) (i : Nat) (e : Slot) : State :=
  { s with wtu := { s.wtu with slot := Sparse.set (fun _ => {}) s.wtu.slot i e } }

/-- Whether slot `i`'s target has been reached (R61). -/
def State.slotReached (s : State) (i : Nat) : Bool :=
  let t := s.get (F.WTU_SLOT_TARGET i)
  if s.on (F.WTU_SLOT_CTRL_MODE i) then t ≤ s.wco else t ≤ s.now

/-- The target that a slot armed now takes. -/
def State.armTarget (s : State) (i : Nat) : SlotTarget :=
  { at_ := s.get (F.WTU_SLOT_TARGET i), since := s.now, passed := s.slotReached i }

/-- ARM is written 1 (R61, R62): the write of an armed slot changes nothing but what happens if it fires in this cycle. -/
def State.slotArm (s : State) (slot : Nat) : State :=
  if s.on (F.WTU_SLOT_CTRL_ARM slot) then s.setLaunchSlot slot { s.launchSlot slot with armWrite := s.now }
  else (s.put (F.WTU_SLOT_CTRL_ARM slot) 1).setLaunchSlot slot { target := s.armTarget slot }

def execSlotArm (dt : Nat) (who : Requester) (slot : Fin 32) (s : State) : Res :=
  regCmd dt who (O.WTU_SLOT_CTRL slot) (fun s => s.slotArm slot) s

/-- The target of a slot has been written: one that is armed takes it from the next cycle on (R62). -/
def State.retarget (s : State) (i : Nat) : State :=
  let e := s.launchSlot i
  if s.on (F.WTU_SLOT_CTRL_ARM i) then
    s.setLaunchSlot i { e with
      target := { at_ := s.get (F.WTU_SLOT_TARGET i), since := s.now }
      before := if e.target.since / 8 = s.cycle && e.before.isSome then e.before else some e.target }
  else s

/-- The first TMP edge at or after a Tempo. -/
def edgeAt (t : Nat) : Nat := 8 * ((t + 7) / 8)

/-- The TMP edge at which slot `i` fires for a target, evaluated from the cycle after its arming or write (R61, R62): MODE 0, the
first at or past the target; MODE 1, the first at or past the deadline predicted under the latch pair in force, or that at which
the pair itself moved WCO to the target. A target that WCO had passed when the slot was armed fires it at once in either direction
(DESIGN CHOICE, assumption 86). -/
def State.edgeFor (s : State) (i : Nat) (t : SlotTarget) : Option Nat :=
  let start := 8 * (t.since / 8 + 1)
  if s.on (F.WTU_SLOT_CTRL_MODE i) then
    let pair := max start (edgeAt s.wtu.pairAt)
    let jump := if t.at_ ≤ s.wtu.outBase.toNat / 2 ^ 16 && (t.passed || !(s.dec s.src).dirRev) then some pair else none
    let deadline := (s.predict (2 ^ 16 * t.at_)).map fun d => max pair (edgeAt d.toNat)
    match jump, deadline with
    | some a, some b => some (min a b)
    | some a, none => some a
    | none, b => b
  else some (max start (edgeAt t.at_))

/-- The TMP edge at which slot `i` fires, with the target it fires for: the one replaced last where it comes by the end of the cycle
of the write, and else the present one (R62). -/
def State.slotEdge (s : State) (i : Nat) : Option (Nat × SlotTarget) :=
  let e := s.launchSlot i
  let old := e.before.bind fun b => (s.edgeFor i b).bind fun x => if x / 8 ≤ e.target.since / 8 then some (x, b) else none
  match old with
  | some p => some p
  | none => (s.edgeFor i e.target).map fun x => (x, e.target)

/-- Whether slot `i` fires by now (R61, R62). -/
def State.slotDue (s : State) (i : Nat) : Bool :=
  s.on (F.WTU_SLOT_CTRL_ARM i) && (s.slotEdge i).any fun p => decide (p.1 ≤ s.now)

/-- Whether a firing of slot `i` at TMP edge `x` is late (R61). -/
def State.slotLate (s : State) (i x : Nat) (t : SlotTarget) : Bool :=
  t.passed ||
    (if s.on (F.WTU_SLOT_CTRL_MODE i) then (s.predict (2 ^ 16 * t.at_)).any fun d => decide (d + 8 < (x : Int))
    else decide (t.at_ + 8 < x))

/-- Whether ARM was written 1 to the armed slot in the cycle of TMP edge `x` (R62). -/
def State.rearmed (s : State) (i x : Nat) : Bool := (s.launchSlot i).armWrite / 8 == x / 8 && (s.launchSlot i).armWrite != 0

/-- A launch slot fires at TMP edge `x` for target `t` (R61); rearmed in that cycle, it stays armed with the target then in the
register (R62). -/
def State.slotFires (s : State) (i x : Nat) (t : SlotTarget) : State :=
  let late := s.slotLate i x t
  let s := if s.rearmed i x then s.setLaunchSlot i { target := s.armTarget i } else s.put (F.WTU_SLOT_CTRL_ARM i) 0
  let s := ((s.flag (F.WTU_SLOT_CTRL_FIRED i)).put (F.WTU_SLOT_FIRE_TEMPO i) x).raise (144 + i)
  if late then
    ((s.flag (F.WTU_SLOT_CTRL_LATE i)).bump F.WTU_LATE_COUNT).logErr (siteWtu 0) 0x03 0x025 [i]
  else s

def State.slotFire (s : State) (i : Nat) : State :=
  match s.slotEdge i with
  | some (x, t) => s.slotFires i x t
  | none => s

def execSlotFire (dt : Nat) (slot : Fin 32) (s : State) : Res :=
  evCmd dt (fun s => s.slotDue slot) (fun s => s.slotFire slot) s

end Sys2Proof.Machine
end

