-- ==== Sys2Proof/Machine/Ftu.lean ====
section
/-! DEFINITION. Fire timing and head ports (06), and overspeed (05 R138–R141): packed data, the line store, latch
acknowledges, strobe decisions, strobes, the flag-fall watchdog, and the records of lines not fired. -/

namespace Sys2Proof.Machine

def State.head (s : State) (x : Nat) : Head := Sparse.get (fun _ => {}) s.ftu.heads x

def State.setHead (s : State) (x : Nat) (h : Head) : State :=
  { s with ftu := { s.ftu with heads := Sparse.set (fun _ => {}) s.ftu.heads x h } }

def State.bar (s : State) (n : Nat) : Bar := Sparse.get (fun _ => {}) s.ftu.bars n

def State.setBar (s : State) (n : Nat) (b : Bar) : State :=
  { s with ftu := { s.ftu with bars := Sparse.set (fun _ => {}) s.ftu.bars n b } }

/-- The head states of R163. -/
def hdDisabled : Nat := 0
def hdIdle : Nat := 1
def hdSent : Nat := 2
def hdLatched : Nat := 3
def hdFiring : Nat := 4
def hdWaitAck : Nat := 5
def hdFenced : Nat := 6

def State.headState (s : State) (x : Nat) : Nat := s.get (F.FTU_HEAD_STAT_STATE x)

def State.setHeadState (s : State) (x st : Nat) : State := s.put (F.FTU_HEAD_STAT_STATE x) st

/-- Whether a head may leave DISABLED: EN of head and link, and the link up (R163, R174). -/
def State.headUp (s : State) (x : Nat) : Bool :=
  s.headEn x && s.on (F.FTU_LINK_CFG_EN (x / 4)) && s.on (F.FTU_LINK_STAT_UP (x / 4))

/-- A head goes back to IDLE, or to DISABLED where it is not enabled with its link up; a fence stays. -/
def State.headRest (s : State) (x : Nat) : State :=
  if s.headState x = hdFenced then s else s.setHeadState x (if s.headUp x then hdIdle else hdDisabled)

/-! ### The twin (R486–R489) -/

/-- The TWN changes state, which raises its event 0 (R493). -/
def State.setTwnState (s : State) (st : Nat) : State := (s.put F.TWN_STAT_STATE st).raise (1216 + 0)

/-- The position from which bar `n` belongs to the other twin in a planned castling (R487). -/
def State.castlePos (s : State) (n : Nat) : Option Nat :=
  match s.twn.castle with
  | some c => if c.acked then some (2 ^ 16 * (c.wco + s.get (F.FAB_ST_OFFSET n))) else none
  | none => none

/-- Whether this device drives head `x` for a line of pipe `n` at `pos` (R486–R489): always in SOLO; an
ACTIVE twin up to the castling's switch line, and after a forced castling from the first line whose commit followed
the claims (R488); a STANDBY from the switch line on once the head is released. -/
def State.drives (s : State) (x n pos : Nat) : Bool :=
  let st := s.twnState
  let past := match s.castlePos n with
    | some w => decide (w ≤ pos)
    | none => false
  let released := match s.twn.castle with
    | some c => c.released.contains x
    | none => false
  if st = twSolo || st = twPairing then true
  else if st = twActive then !past && decide (Sparse.get (fun _ => 0) s.twn.fireFrom n ≤ pos)
  else if st = twStandby then past && released
  else false

/-- An ACTIVE twin that has been taken over (R489). -/
def State.depose (s : State) : State :=
  let s := s.setTwnState twDeposed
  ({ s with twn := { s.twn with castle := none } }.logErr siteTwn 0x04 0x043 []).raise (1216 + 5)

/-! ### Records (R139, R140, R162) -/

/-- The lowest unresolved line of pipe `n` at any head, if any. -/
def State.openLine (s : State) (n : Nat) : Option Nat :=
  (s.ftu.heads.flatMap fun p => (p.2.lines.filter fun l => l.pipe == n).map (·.k)).min?

/-- Whether every head has resolved line `k` of pipe `n`. -/
def State.lineResolved (s : State) (n k : Nat) : Bool :=
  match s.openLine n with
  | some m => decide (k < m)
  | none => true

/-- A FTU data-path record is issued (R162). -/
def State.issueRun (s : State) (n : Nat) (r : DpRun) : State :=
  (s.issue rankFtu (s.dpDefect siteFtu (s.get F.FTU_CTRL_DP_SEVERITY) n r.tag r.pos r.lastPos r.tk r.code r.heads)).raise (320 + 0)

/-- A line with heads not fired joins the run before it, or starts one (R110, R162). -/
def joinRun (runs : List DpRun) (l : NotFired) : List DpRun :=
  let heads := sortBy (fun a b => decide (a ≤ b)) l.heads
  match runs.find? fun r => r.code == l.code && r.heads == heads && r.last + 1 == l.k with
  | some r => (runs.erase r) ++ [{ r with last := l.k, lastPos := l.pos }]
  | none => runs ++ [{ code := l.code, heads := heads, first := l.k, last := l.k, lastPos := l.pos,
                       pos := l.pos, tk := l.tk, tag := l.tag }]

/-- A run is over when the line after it has passed without joining it, or at 4,096 lines (R110). -/
def DpRun.over (r : DpRun) (passed : Nat → Bool) : Bool := passed (r.last + 1) || decide (r.first + 4095 ≤ r.last)

/-- A head-line is reported for a data-path record (R162). -/
def State.reportLine (s : State) (x code : Nat) (l : HeadLine) : State :=
  let b := s.bar l.pipe
  let s := s.bump F.FTU_SUPPRESSED
  let same := fun (e : NotFired) => e.code == code && e.k == l.k
  let nf := if b.notFired.any same then
      b.notFired.map fun e => if same e then
        { e with heads := x :: e.heads, tag := { e.tag with x0 := min e.tag.x0 l.tag.x0, x1 := max e.tag.x1 l.tag.x1 } } else e
    else b.notFired ++ [{ code := code, k := l.k, pos := l.pos, tk := l.tk, tag := l.tag, heads := [x] }]
  s.setBar l.pipe { b with notFired := nf }

/-- An OVERSPEED record of a bar, with event 48 (R139, R140, R143, R273, R274). -/
def State.issueOvs (s : State) (n : Nat) (r : OvsRun) (cause wcoEnd : Nat) : State :=
  let d : Defect := {
    severity := s.get F.FTU_OVS_CTRL_SEVERITY, cause := 3, source := 0x05, inst := 0xF, bar := some n, xBar := true,
    job := r.first.tag.job, rep := r.first.tag.rep,
    wcoStart := r.first.pos / 2 ^ 16, wcoEnd := wcoEnd, tempo := r.first.tk, xStart := 0, xEnd := r.first.tag.last,
    nozzle := some (firstNozzle r.first.head), data := field 0 32 (errCode 0x05 0x03 0xF cause) + field 32 32 r.count }
  ((s.issue rankFtu d).bump F.FTU_OVS_RECORDS).raise (320 + 48)

/-- A policy 0 record, logged (R139). -/
def State.issueSkips (s : State) (n : Nat) (r : OvsRun) : State :=
  (s.issueOvs n r 0x030 ((r.lastPos + s.pitch n) / 2 ^ 16)).logErr siteFtu 0x03 0x030 [r.first.head, r.first.k]

/-- A run of one line. -/
def OvsLine.run (l : OvsLine) : OvsRun := { first := l, last := l.k, lastPos := l.pos, count := 1 }

/-- A run with one more line. -/
def OvsRun.add (r : OvsRun) (l : OvsLine) : OvsRun := { r with last := l.k, lastPos := l.pos, count := r.count + 1 }

/-- A line of a bar is skipped for overspeed (R139): a later head of the same line does not count it again. -/
def State.noteSkip (s : State) (n : Nat) (l : OvsLine) : State :=
  let s := s.flag F.FTU_OVS_CTRL_SKIP_SEEN
  let bar := s.bar n
  if bar.skipLines.any fun u => u.k == l.k then s
  else (s.setBar n { bar with skipLines := bar.skipLines ++ [l] }).bump F.FTU_OVS_SKIP_LINES

/-- A skipped line that every head has passed joins the run before it, or ends it and starts one (R139). -/
def State.joinSkip (s : State) (n : Nat) (l : OvsLine) : State :=
  let bar := s.bar n
  match bar.skips with
  | none => s.setBar n { bar with skips := some l.run }
  | some r =>
    if l.k ≤ r.last + 64 && l.k < r.first.k + 4096 then s.setBar n { bar with skips := some (r.add l) }
    else (s.setBar n { bar with skips := some l.run }).issueSkips n r

/-- The INH_WCO of the inhibit whose span holds a line at `pos` (R140). -/
def State.inhibitAt (s : State) (pos : Nat) : Option Nat :=
  (s.ftu.inhibits.find? fun p => decide (2 ^ 16 * p.1 ≤ pos) && match p.2 with
    | some r => decide (pos < 2 ^ 16 * r)
    | none => true).map (·.1)

/-- The resume position of the inhibit that began at INH_WCO `w`. -/
def State.inhibitEnd (s : State) (w : Nat) : Option Nat := (s.ftu.inhibits.find? fun p => p.1 == w).bind (·.2)

/-- A line of a bar is inhibited (R140): a later head of the same line does not count it again. -/
def State.noteInhibit (s : State) (n : Nat) (l : OvsLine) : State :=
  let bar := s.bar n
  if bar.inhLines.any fun u => u.k == l.k then s else s.setBar n { bar with inhLines := bar.inhLines ++ [l] }

/-- The position of the first line of pipe `n`'s generator at or past `w` (2^-16 nm): where the bar resumes. -/
def State.firstLineAt (s : State) (n w : Nat) : Nat :=
  let start := 2 ^ 16 * s.get (F.WTU_LG_START (s.pipeGen n))
  let p := s.pitch n
  if w ≤ start || p = 0 then start else start + (w - start + p - 1) / p * p

/-- The record of an inhibited run that ends where its span does: at the bar's first resumed line (R140, step 4). -/
def State.issueInhibit (s : State) (n : Nat) (r : OvsRun) : State :=
  s.issueOvs n r 0x031 (match s.inhibitEnd r.first.span with
    | some w => s.firstLineAt n (2 ^ 16 * w) / 2 ^ 16
    | none => (r.lastPos + s.pitch n) / 2 ^ 16)

/-- An inhibited line that every head has passed joins its span's run; after 65,536 lines a record is issued and a new one begins
(R140). -/
def State.joinInhibit (s : State) (n : Nat) (l : OvsLine) : State :=
  let bar := s.bar n
  match bar.inhibited with
  | none => s.setBar n { bar with inhibited := some l.run }
  | some r =>
    let new := s.setBar n { bar with inhibited := some l.run }
    if l.span ≠ r.first.span then new.issueInhibit n r
    else if r.count < 65536 then s.setBar n { bar with inhibited := some (r.add l) }
    else new.issueOvs n r 0x031 (l.pos / 2 ^ 16)

/-- Whether pipe `n` has no line before `w` left: none in its queue, and none that a head has still to resolve. -/
def State.passed (s : State) (n w : Nat) : Bool :=
  (s.pipe n).queue.all (fun q => decide (2 ^ 16 * w ≤ q.pos))
    && s.ftu.heads.all (fun p => p.2.lines.all fun l => l.pipe != n || decide (2 ^ 16 * w ≤ l.pos))

/-- An inhibit that is over is forgotten once every line of its span is resolved. -/
def State.dropInhibits (s : State) : State :=
  { s with ftu := { s.ftu with inhibits := s.ftu.inhibits.filter fun p => match p.2 with
      | some r => s.on F.FTU_OVS_CTRL_INH_ACTIVE || !(List.range 8).all fun n =>
          s.passed n r && (s.bar n).inhLines == [] && (s.bar n).inhibited == none
      | none => true } }

/-- The overspeed and inhibit runs of a bar as far as its lines are resolved (R139, R140). -/
def State.settleOvs (s : State) (n : Nat) : State :=
  let order := fun (a b : OvsLine) => decide (a.k ≤ b.k)
  let bar := s.bar n
  let open_ := fun (l : OvsLine) => !s.lineResolved n l.k
  let skips := sortBy order (bar.skipLines.filter fun l => !open_ l)
  let inhs := sortBy order (bar.inhLines.filter fun l => !open_ l)
  let s := s.setBar n { bar with skipLines := bar.skipLines.filter open_, inhLines := bar.inhLines.filter open_ }
  let s := skips.foldl (fun s l => s.joinSkip n l) s
  let s := inhs.foldl (fun s l => s.joinInhibit n l) s
  match (s.bar n).inhibited with
  | some r =>
    match s.inhibitEnd r.first.span with
    | some w =>
      if !s.on F.FTU_OVS_CTRL_INH_ACTIVE && s.passed n w && (s.bar n).inhLines == [] then
        ((s.setBar n { s.bar n with inhibited := none }).issueInhibit n r).dropInhibits
      else s
    | none => s
  | none => if s.ftu.inhibits = [] then s else s.dropInhibits

/-- The bar's records as far as its lines are resolved (R139, R140, R162). -/
def State.settleBar (s : State) (n : Nat) : State :=
  let b := s.bar n
  let done := sortBy (fun a c => decide (a.k ≤ c.k)) (b.notFired.filter fun l => s.lineResolved n l.k)
  let rest := b.notFired.filter fun l => !s.lineResolved n l.k
  let runs := done.foldl joinRun b.runs
  let ended := fun (r : DpRun) => r.over fun k => k ≤ b.seen && s.lineResolved n k
  let s := s.setBar n { b with notFired := rest, runs := runs.filter fun r => !ended r }
  ((runs.filter ended).foldl (fun s r => s.issueRun n r) s).settleOvs n

/-- Whether the overspeed run of bar `n` is over: every head has passed 64 lines without a skip, or the run has 4,096 lines
(R139). -/
def State.skipsOver (s : State) (n : Nat) : Bool :=
  match (s.bar n).skips with
  | some r => (decide (r.last + 64 ≤ (s.bar n).seen) && s.lineResolved n (r.last + 64)) || decide (r.first.k + 4095 ≤ r.last)
  | none => false

/-- The overspeed run of a bar becomes a record (R139). -/
def State.closeSkips (s : State) (n : Nat) : State :=
  let b := s.bar n
  match b.skips with
  | some r => (s.setBar n { b with skips := none }).issueSkips n r
  | none => s

def execOverspeedRecord (dt : Nat) (bar : Fin 8) (s : State) : Res :=
  evCmd dt (fun s => s.skipsOver bar) (fun s => s.closeSkips bar) s

/-- The inhibit ends at `r` (R140, step 4): one record for each bar that left lines out, once its heads have passed the span. -/
def State.endInhibit (s : State) (r : Nat) : State :=
  let s := (s.put F.FTU_OVS_CTRL_INH_ACTIVE 0).raise (320 + 50)
  (List.range 8).foldl State.settleOvs ((s.put F.FTU_OVS_RES_WCO r).setResume (some r))

/-- Whether WCO has reached the resume position of an inhibit in force (R140). -/
def State.inhibitOver (s : State) : Bool :=
  match s.ftu.inhibits.getLast? with
  | some (_, some r) => s.on F.FTU_OVS_CTRL_INH_ACTIVE && decide (r ≤ s.wco)
  | _ => false

def execInhibitEnd (dt : Nat) (s : State) : Res :=
  evCmd dt State.inhibitOver (fun s => s.endInhibit (s.get F.FTU_OVS_RES_WCO)) s

/-- POLICY written (R141). -/
def State.setPolicy (s : State) (inhibit : Bool) : State :=
  let s := s.put F.FTU_OVS_CTRL_POLICY (b2n inhibit)
  let active := s.on F.FTU_OVS_CTRL_INH_ACTIVE
  if inhibit then
    if s.on F.WTU_STATUS_OVER_LIMIT && !active then s.startInhibit else s
  else if active then s.endInhibit s.wco
  else s

def execOverspeedPolicyWrite (dt : Nat) (who : Requester) (inhibit : Bool) (s : State) : Res :=
  regCmd dt who O.FTU_OVS_CTRL (fun s => s.setPolicy inhibit) s

/-! ### Resolving lines (R155) -/

/-- A released head in a planned castling: its claim is given up and RELEASE sent (R487, step 2). -/
def State.release (s : State) (x : Nat) (c : Castle) : State :=
  let s := { s with twn := { s.twn with castle := some { c with released := x :: c.released } } }
  let s := s.sendBridge (x / 4) 0x008 [0, BitVec.ofNat 32 (s.get F.TWN_EPOCH)]
  s.twinTagged 0x07 [2, BitVec.ofNat 64 x]

/-- The claim a head link is given (R486): FORCE unless STANDBY. -/
def State.claim (s : State) (l : Nat) : State :=
  let force := s.twnState != twStandby
  s.sendBridge l 0x008 [BitVec.ofNat 32 (1 + 2 * b2n force), BitVec.ofNat 32 (s.get F.TWN_EPOCH)]

/-- The enabled heads of the bars that print. -/
def State.printHeads (s : State) : List Nat :=
  ((List.range 8).filter fun n => s.pipeState n != rpDisabled).flatMap fun n =>
    ((s.bankHeads n (s.activeBank n)).map (·.1)).filter s.headEn

/-- Whether every bar has switched in a planned castling (R487): its switch line is known and its enabled heads released. -/
def State.castleOver (s : State) (c : Castle) : Bool :=
  c.acked && ((List.range 8).all fun n =>
    s.pipeState n == rpDisabled || (Sparse.get (fun _ => none) c.first n).isSome)
    && s.printHeads.all fun x => c.released.contains x

/-- A castling completes (R487, R488): counted, with the WCO at it, and event 4 raised. -/
def State.castled (s : State) : State :=
  ((s.bump F.TWN_CASTLINGS).put F.TWN_LAST_CASTLE s.wco).raise (1216 + 4)

/-- Both twins increment the epoch and swap roles once every bar has switched; the new active one claims every link. -/
def State.castleSettle (s : State) : State :=
  match s.twn.castle with
  | some c =>
    if s.castleOver c then
      let s := { s with twn := { s.twn with castle := none, fireFrom := [] } }.bump F.TWN_EPOCH
      if s.twnState = twStandby then
        let s := s.setTwnState twActive
        (((List.range 32).filter fun l => s.on (F.FTU_LINK_STAT_UP l)).foldl State.claim s).castled
      else (s.setTwnState twStandby).castled
    else s
  | none => s

/-- Whether every line of head `x` before its bar's switch line is resolved (R487, step 2). -/
def State.releasable (s : State) (x n : Nat) (c : Castle) : Bool :=
  match Sparse.get (fun _ => none) c.first n with
  | some k => (s.head x).lines.all (fun l => k ≤ l.k) && (s.pipe n).queue.all (fun q => k ≤ q.k)
      && !c.released.contains x
  | none => false

/-- An ACTIVE twin releases head `x` once its last line before the switch line is resolved. -/
def State.tryRelease (s : State) (x n : Nat) : State :=
  match s.twn.castle with
  | some c => if s.twnState = twActive && c.acked && s.releasable x n c then (s.release x c).castleSettle else s
  | none => s

/-- A head's first line is resolved (R155): it leaves the head, its slot is free, and the bar's records follow. -/
def State.resolve (s : State) (x : Nat) (l : HeadLine) : State :=
  let h := s.head x
  let s := s.setHead x { h with lines := h.lines.erase l }
  let s := if l.arrived && !l.sent then s.put F.FTU_STORE_USED (s.get F.FTU_STORE_USED - 1) else s
  let b := s.bar l.pipe
  let s := (s.setBar l.pipe { b with seen := max b.seen l.k }).settleBar l.pipe
  s.tryRelease x l.pipe

/-- A head's line is resolved as not fired, with no report of the FTU. -/
def State.notFired (s : State) (x : Nat) (l : HeadLine) : State := (s.dropsLost x l.pipe l.k).resolve x l

/-- A head's line is resolved as not fired and reported (R162). -/
def State.notFiredFor (s : State) (x code : Nat) (l : HeadLine) : State := (s.reportLine x code l).notFired x l

/-- The error code of a FTU cause (R173). -/
def ftuCode (cls cause : Nat) : Nat := errCode 0x05 cls 0xF cause

/-- An error of head `x` on line `k`, logged (R173). -/
def State.headErr (s : State) (x k cls cause : Nat) : State := s.logErr siteFtu cls cause [x, k]

/-! ### Packed data and sending (R155–R157, R185) -/

/-- Whether the line's commit fell in a missed span: a later one has come (R159). -/
def State.commitLost (s : State) (l : HeadLine) : Bool :=
  l.commit.isNone && (s.pipe l.pipe).commits.any fun c => l.k + l.delay < c.k

/-- The first line of a head whose packed data has not arrived. -/
def State.arriving (s : State) (x : Nat) : Option HeadLine := (s.head x).lines.find? fun l => !l.arrived

def State.setLine (s : State) (x : Nat) (l l' : HeadLine) : State :=
  let h := s.head x
  s.setHead x { h with lines := h.lines.map fun (u : HeadLine) => if u = l then l' else u }

/-- A head's packed data arrives (R155–R157, R159). -/
def State.arrive (s : State) (x : Nat) (l : HeadLine) : State :=
  let scan := s.dropsOf x l.pipe l.k != []
  if s.commitLost l then (s.headErr x l.k 0x03 0x023).notFiredFor x (ftuCode 0x03 0x023) l
  else if l.flagged && !scan then s.notFired x l
  else if 2560 ≤ s.get F.FTU_STORE_USED then
    let s := (s.flag (F.FTU_LINK_STAT_STORE_FULL (x / 4))).raise (320 + 4)
    (s.headErr x l.k 0x06 0x050).notFiredFor x (ftuCode 0x06 0x050) l
  else
    let s := (s.setLine x l { l with arrived := true }).bump F.FTU_STORE_USED
    s.put F.FTU_STORE_PEAK (max (s.get F.FTU_STORE_PEAK) (s.get F.FTU_STORE_USED))

def execPackedDataArrival (dt : Nat) (x : Fin 128) (s : State) : Res :=
  evCmd dt (fun s => (s.arriving x).isSome) (fun s =>
    match s.arriving x with
    | some l => s.arrive x l
    | none => s) s

/-- The strobe time of a head's line and the width of its strobe (R158, R170): a decision in the TMP cycle of a write to WIDTH or
TIME_TRIM uses the values before it. -/
def State.strobeOf (s : State) (x : Nat) (l : HeadLine) (c : Commit) : Nat × Nat :=
  let dist : Int := (2 ^ 16 * (l.rho + 2 ^ 16 * s.get (F.FTU_HEAD_DIST_TRIM x)) : Nat)
  let base := c.t + (roundHalfUp dist (max 1 c.v)).toNat
  let now := (base + s.get (F.FTU_HEAD_STROBE_TIME_TRIM x), s.get (F.FTU_HEAD_STROBE_WIDTH x))
  match (s.head x).trimWas with
  | some (cyc, width, trim) => if (base + trim - 32) / 8 ≤ cyc then (base + trim, width) else now
  | none => now

def State.strobeTime (s : State) (x : Nat) (l : HeadLine) (c : Commit) : Nat := (s.strobeOf x l c).1

/-- WIDTH or TIME_TRIM of a head is about to be written: the values before the first write of the cycle are kept (R170). -/
def State.noteTrim (s : State) (x : Nat) : State :=
  let h := s.head x
  if (h.trimWas.map (·.1)) == some s.cycle then s
  else s.setHead x { h with
    trimWas := some (s.cycle, s.get (F.FTU_HEAD_STROBE_WIDTH x), s.get (F.FTU_HEAD_STROBE_TIME_TRIM x)) }

/-- Whether the decision instant of a line has come (R160). -/
def State.decisionDue (s : State) (x : Nat) (l : HeadLine) : Bool :=
  match l.commit with
  | some c => decide (s.strobeTime x l c ≤ s.now + 32)
  | none => false

/-- Whether the TMP cycle of a line's decision instant is over, so that all that coincides with the decision has happened (R170). -/
def State.decisionOver (s : State) (x : Nat) (l : HeadLine) : Bool :=
  match l.commit with
  | some c => decide ((s.strobeTime x l c - 32) / 8 < s.cycle)
  | none => false

/-- NW, the words of a head's payload (R150). -/
def State.payloadWords (s : State) (x : Nat) : Nat := 3 * s.nozzles x / 64

/-- The fragments of a head's line: header and words, 64 words each but the last (R152). -/
def fragments (h k nw payload : Nat) : List (List DWord) :=
  (List.range ((nw + 63) / 64)).map fun i =>
    let ofs := 64 * i
    let cnt := min 64 (nw - ofs)
    let head := 0x01 + field 8 2 h + field 10 1 (b2n (i == 0)) + field 11 1 (b2n (ofs + cnt == nw))
      + field 16 8 ofs + field 24 6 (cnt - 1) + field 32 32 k
    BitVec.ofNat 64 head :: (List.range cnt).map fun j => BitVec.ofNat 64 (payload / 2 ^ (64 * (ofs + j)))

/-- The payload position of nozzle `q` within head `x` (R149). -/
def State.payloadPos (s : State) (x q : Nat) : Nat :=
  let g := s.get (F.FTU_HEAD_CFG_SEG_LOG2 x)
  let seg := 2 ^ g
  let len := s.nozzles x / seg
  let (j, n) := if s.on (F.FTU_HEAD_CFG_SEG_MODE x) then (q % seg, q / seg) else (q / len, q % len)
  let c := if bit (s.get (F.FTU_HEAD_CFG_DIR x)) j then n else len - 1 - n
  c * seg + j

/-- The scan payload of a head's line: DOSE at the assigned nozzles, 0 elsewhere (R185). -/
def State.scanPayload (s : State) (x : Nat) (ds : List ScanDrop) : Nat :=
  ds.foldl (fun p d =>
    let i := 3 * s.payloadPos x d.q
    if d.q < s.nozzles x then setBits p (i + 2) i d.dose else p) 0

/-- A scan payload replaces a pipe payload that held a dose (R185). -/
def State.collide (s : State) (ds : List ScanDrop) : State :=
  let s := (s.bump F.DGU_COLLIDE).raise (384 + 18)
  ds.foldl (fun s d =>
    let sc := s.scan d.slot
    if !d.live || sc.collided then s
    else (s.setScan d.slot { sc with collided := true }).logErr siteDgu 0x01 0x031 [d.slot, d.head * 4096 + d.q]) s

/-- The line a head can send now: its first, arrived and not sent, with no acknowledge pending, its
decision instant ahead, and the head this device's to drive (R155, R486). -/
def State.sendable (s : State) (x : Nat) : Option HeadLine :=
  match (s.head x).lines.head? with
  | some l =>
    if s.headState x = hdIdle && (s.head x).ackFor.isNone && l.arrived && !l.sent && !s.decisionDue x l
      && s.drives x l.pipe l.pos then some l else none
  | none => none

/-- A head's line is sent as DOT fragments (R152, R155, R157, R185). -/
def State.send (s : State) (x : Nat) (l : HeadLine) : State :=
  let ds := s.dropsOf x l.pipe l.k
  if ds = [] && (l.mark = .uncorrectable || l.mark = .poison) then
    (s.headErr x l.k 0x02 0x012).notFiredFor x (ftuCode 0x02 0x012) l
  else
    let s := if l.mark = .corrected then s.bump F.FTU_STORE_ECC_CORR else s
    let s := if ds != [] && l.payload != 0 then s.collide ds else s
    let p := if ds = [] then l.payload else s.scanPayload x ds
    let s := (fragments (x % 4) l.k (s.payloadWords x) p).foldl (fun s f => s.sendDot (x / 4) f) s
    let s := s.setLine x l { l with sent := true }
    let s := s.setHead x { s.head x with ackFor := some (l.k % 2 ^ 32, s.now) }
    (s.put F.FTU_STORE_USED (s.get F.FTU_STORE_USED - 1)).setHeadState x hdSent

def execHeadLineSend (dt : Nat) (x : Fin 128) (s : State) : Res :=
  evCmd dt (fun s => (s.sendable x).isSome) (fun s =>
    match s.sendable x with
    | some l => s.send x l
    | none => s) s

/-! ### Latch acknowledges (R153, R154, R161) -/

/-- The sent line of a head that is still to be resolved. -/
def State.outstanding (s : State) (x : Nat) : Option HeadLine := (s.head x).lines.find? (·.sent)

/-- A latch acknowledge (R154, R161): STATUS and LINE. -/
def State.ack (s : State) (x status line : Nat) : State :=
  match (s.head x).ackFor with
  | none => s.bump F.FTU_ACK_ERRS
  | some (k, _) =>
    let s := s.setHead x { s.head x with ackFor := none }
    let st := s.headState x
    let waiting := decide (st = hdWaitAck)
    let s := if waiting && line = k then (s.bump F.FTU_LATE_COUNT).bump (F.FTU_HEAD_LATE_COUNT x) else s
    if status = 0 && line = k then
      let s := s.bump (F.FTU_LINK_ACKS (x / 4))
      if waiting then s.headRest x
      else match s.outstanding x with
        | some l =>
          let s := s.setLine x l { l with ackAt := some s.now }
          if st = hdSent then s.setHeadState x hdLatched else s
        | none => s
    else
      let cause := if line = k then 0x011 else 0x010
      let s := ((s.bump F.FTU_ACK_ERRS).flag (F.FTU_HEAD_STAT_ACK_ERR x)).raise (320 + 5)
      let s := s.headErr x k 0x02 cause
      let s := if st = hdSent || waiting then s.headRest x else s
      let s := match s.outstanding x with
        | some l => s.notFiredFor x (ftuCode 0x02 cause) l
        | none => s
      if status = 6 && s.twnState = twActive then s.depose else s

def execLatchAckReceive (dt : Nat) (x : Fin 128) (status : Fin 8) (line : Word) (s : State) : Res :=
  evCmd dt (fun _ => true) (fun s => s.ack x status line.toNat) s

/-- No acknowledge within 64 µs of the last fragment (R161); one in the TMP cycle of the timeout voids it (R170), so the timeout
takes place once that cycle is over. -/
def State.ackLate (s : State) (x : Nat) : Bool :=
  match (s.head x).ackFor with
  | some (_, t) => s.headState x = hdWaitAck && decide ((t + 256000) / 8 < s.cycle)
  | none => false

def State.ackTimeout (s : State) (x : Nat) : State :=
  let k := (((s.head x).ackFor).map (·.1)).getD 0
  let s := s.setHead x { s.head x with ackFor := none }
  (s.headErr x k 0x03 0x024).headRest x

def execAckTimeout (dt : Nat) (x : Fin 128) (s : State) : Res :=
  evCmd dt (fun s => s.ackLate x) (fun s => s.ackTimeout x) s

/-! ### The strobe decision and the strobe (R158–R163) -/

/-- The line a head is to decide on now: its first, with the cycle of its decision instant over and no strobe between its
decision and its start. -/
def State.deciding (s : State) (x : Nat) : Option HeadLine :=
  match (s.head x).lines.head? with
  | some l =>
    let clear := match (s.head x).firing with
      | some (f, _, _) => decide (f ≠ l)
      | none => true
    if clear && s.decisionOver x l then some l else none
  | none => none

/-- What follows a decision not to fire for the head's state (R163): LATCHED goes to IDLE, SENT to WAIT_ACK. -/
def State.noFire (s : State) (x : Nat) : State :=
  let st := s.headState x
  if st = hdLatched then s.headRest x else if st = hdSent then s.setHeadState x hdWaitAck else s

/-- A head's line as the overspeed policy counts it (R139, R140). -/
def State.ovsLine (s : State) (x : Nat) (l : HeadLine) : OvsLine :=
  { k := l.k, pos := l.pos, tk := l.tk, head := x, tag := l.tag, span := (s.inhibitAt l.pos).getD 0 }

/-- The strobe decision (R160): the conditions in order, the first that fails deciding. -/
def State.decide_ (s : State) (x : Nat) (l : HeadLine) : State :=
  match l.commit with
  | none => s
  | some c =>
    let (t, w) := s.strobeOf x l c
    let spaced := match (s.head x).lastS with
      | some p => decide (p + s.get (F.FTU_HEAD_MIN_IVL x) ≤ t)
      | none => true
    let good := match l.ackAt with
      | some a => decide (a / 8 ≤ (t - 32) / 8)
      | none => false
    if !s.drives x l.pipe l.pos then
      if s.twnState = twStandby && (match s.castlePos l.pipe with
          | some w => decide (w ≤ l.pos)
          | none => false) then
        (((s.logErr siteTwn 0x03 0x031).notFiredFor x (errCode 0x13 0x03 0 0x031) l).noFire x)
      else (s.notFired x l).noFire x
    else if !(s.on F.FTU_CTRL_EN && s.headUp x) then
      ((s.logErr siteFtu 0x04 0x040 [x / 4, l.k]).notFiredFor x (ftuCode 0x04 0x040) l).noFire x
    else if s.headState x = hdFenced then
      s.notFiredFor x (ftuCode 0x03 (if s.ftu.flgFence then 0x022 else 0x021)) l
    else if c.inhibit && (s.inhibitAt l.pos).isSome then ((s.noteInhibit l.pipe (s.ovsLine x l)).notFired x l).noFire x
    else if !spaced then ((s.noteSkip l.pipe (s.ovsLine x l)).notFired x l).noFire x
    else if !good then
      let s := ((s.flag (F.FTU_HEAD_STAT_LATE x)).raise (320 + 1)).headErr x l.k 0x03 0x020
      (s.notFiredFor x (ftuCode 0x03 0x020) l).noFire x
    else
      (s.setHead x { s.head x with firing := some (l, t, w) }).setHeadState x hdFiring

def execStrobeDecision (dt : Nat) (x : Fin 128) (s : State) : Res :=
  evCmd dt (fun s => (s.deciding x).isSome) (fun s =>
    match s.deciding x with
    | some l => s.decide_ x l
    | none => s) s

/-- The strobe that is to start now: its line, S and width. -/
def State.starting (s : State) (x : Nat) : Option (HeadLine × Nat × Nat) :=
  match (s.head x).firing with
  | some (l, t, w) => if (s.head x).highSince.isNone && t ≤ s.now then some (l, t, w) else none
  | none => none

/-- The strobe rises at S (R155, R160, R186). -/
def State.strobeStart (s : State) (x : Nat) (f : HeadLine × Nat × Nat) : State :=
  let (l, t, _) := f
  let s := s.setHead x { s.head x with highSince := some t, lastS := some t }
  let s := (s.put (F.FTU_HEAD_LAST_STROBE x) t).put (F.FTU_HEAD_LAST_LINE x) l.k
  let s := (s.bump F.FTU_STROBES).emit (.strobe x true t)
  (s.openWindows t x l.pipe l.k).resolve x l

def execStrobeStart (dt : Nat) (x : Fin 128) (s : State) : Res :=
  evCmd dt (fun s => (s.starting x).isSome) (fun s =>
    match s.starting x with
    | some f => s.strobeStart x f
    | none => s) s

/-- The Tempo at which the strobe of head `x` falls. -/
def State.strobeFall (s : State) (x : Nat) : Option Nat :=
  match (s.head x).highSince, (s.head x).firing with
  | some t, some (_, _, w) => some (t + w)
  | _, _ => none

/-- The strobe falls (R163). -/
def State.strobeEnd (s : State) (x t : Nat) : State :=
  let s := s.setHead x { s.head x with highSince := none, firing := none }
  (s.emit (.strobe x false t)).headRest x

def execStrobeEnd (dt : Nat) (x : Fin 128) (s : State) : Res :=
  evCmd dt (fun s => match s.strobeFall x with
    | some t => decide (t ≤ s.now)
    | none => false) (fun s =>
    match s.strobeFall x with
    | some t => s.strobeEnd x t
    | none => s) s

/-! ### The watchdog (R165, R166) -/

/-- Whether a pad can have been high for WDG_LIMIT FLG cycles, at most 65 MHz (R165). -/
def State.overHigh (s : State) (x : Nat) : Bool :=
  match (s.head x).highSince with
  | some t => decide (s.get (F.FTU_HEAD_CFG_WDG_LIMIT x) * 4000 ≤ 65 * (s.now - t))
  | none => false

/-- The watchdog cuts a strobe (R165). -/
def State.flagFall (s : State) (x : Nat) (stuck : Bool) : State :=
  let h := s.head x
  let k := (h.firing.map fun f => f.1.k).getD 0
  let s := s.setHead x { h with
    highSince := none, firing := none, stuck := stuck, enLow := !s.on (F.FTU_HEAD_CFG_EN x) }
  let s := (s.emit (.strobe x false s.now)).put (F.FTU_HEAD_STAT_FLAG_FALL x) 1
  let s := ((s.setHeadState x hdFenced).headErr x k 0x03 0x021).raise (320 + 2)
  match h.firing with
  | some (l, _, _) => (s.reportLine x (ftuCode 0x03 0x021) l).settleBar l.pipe
  | none => s

def execFlagFall (dt : Nat) (x : Fin 128) (stuck : Bool) (s : State) : Res :=
  evCmd dt (fun s => s.overHigh x) (fun s => s.flagFall x stuck) s

/-- The FLG oscillator stops: every head is fenced (R165). -/
def State.flgStop (s : State) : State :=
  let s := { s.put F.FTU_STAT_FLG_OK 0 with ftu := { s.ftu with flgFence := true } }
  let s := (List.range 128).foldl (fun s x => s.setHeadState x hdFenced) s
  (s.logErr siteFtu 0x03 0x022 []).raise (320 + 6)

def execFlgStopped (dt : Nat) (s : State) : Res := evCmd dt (fun s => s.on F.FTU_STAT_FLG_OK) State.flgStop s

/-- A head without a flag fall leaves FENCED (R165, R166). -/
def State.unfence (s : State) (x : Nat) : State :=
  if s.on (F.FTU_HEAD_STAT_FLAG_FALL x) || s.ftu.flgFence then s
  else s.setHeadState x (if s.headUp x then hdIdle else hdDisabled)

/-- FLG_RESUME written: the fences lift if FLG edges are seen (R165). -/
def State.flgResume (s : State) (edges : Bool) : State :=
  if edges && !s.on F.FTU_STAT_FLG_OK then
    let s := { s.put F.FTU_STAT_FLG_OK 1 with ftu := { s.ftu with flgFence := false } }
    (List.range 128).foldl State.unfence s
  else s

def execFlgResume (dt : Nat) (who : Requester) (edges : Bool) (s : State) : Res :=
  regCmd dt who O.FTU_CTRL (fun s => s.flgResume edges) s

/-- FLAG_FALL written 1 (R166): it stays set while the watchdog senses the pad high, which only a pad can be that did not
fall when it was cut; the fence ends once EN has been 0. -/
def State.clearFall (s : State) (x : Nat) (high : Bool) : State :=
  let h := s.head x
  if (h.stuck && high) || !s.on (F.FTU_HEAD_STAT_FLAG_FALL x) then s
  else
    let s := (s.setHead x { h with stuck := false }).put (F.FTU_HEAD_STAT_FLAG_FALL x) 0
    if h.enLow then s.unfence x else s

def execFlagFallClear (dt : Nat) (who : Requester) (x : Fin 128) (high : Bool) (s : State) : Res :=
  regCmd dt who (O.FTU_HEAD_STAT x) (fun s => s.clearFall x high) s

/-! ### Enabling heads (R163, R167, R486) -/

/-- HB_HEADh_CFG is written from FTU_HEADx_CFG (R167). -/
def State.writeBridge (s : State) (x : Nat) : State :=
  s.sendBridge (x / 4) (0x010 + x % 4 * 0x10) [BitVec.ofNat 32 (bits (s.word (O.FTU_HEAD_CFG x)) 15 0)]

/-- A head whose enable is complete leaves DISABLED (R163). -/
def State.headStart (s : State) (x : Nat) : State :=
  if s.headUp x && s.headState x == hdDisabled then s.setHeadState x hdIdle else s

/-- A head enable: its bridge's copy of the configuration is written over a link that is up (R163, R167). -/
def State.headEnable (s : State) (x : Nat) : State :=
  if s.headEn x then s
  else
    let s := s.put (F.FTU_HEAD_CFG_EN x) 1
    (if s.on (F.FTU_LINK_STAT_UP (x / 4)) then s.writeBridge x else s).headStart x

def execHeadEnable (dt : Nat) (who : Requester) (x : Fin 128) (s : State) : Res :=
  regCmd dt who (O.FTU_HEAD_CFG x) (fun s => s.headEnable x) s

/-- A head goes to DISABLED: a strobe in progress completes first, and a fence stays, but for one whose
FLAG_FALL has been cleared (R163, R166). -/
def State.headStop (s : State) (x : Nat) : State :=
  let st := s.headState x
  let h := s.head x
  let s := s.setHead x { h with ackFor := none, enLow := h.enLow || !s.on (F.FTU_HEAD_CFG_EN x) }
  if st = hdFenced then (if (s.head x).enLow then s.unfence x else s)
  else if st = hdFiring then s
  else s.setHeadState x hdDisabled

def execHeadDisable (dt : Nat) (why : HeadOff) (x : Fin 128) (s : State) : Res :=
  match why with
  | .reg who => regCmd dt who (O.FTU_HEAD_CFG x) (fun s => (s.put (F.FTU_HEAD_CFG_EN x) 0).headStop x) s
  | .link => evCmd dt (fun s => !s.on (F.FTU_LINK_STAT_UP (x / 4))) (fun s => s.headStop x) s

/-- A head link comes up (R167, R174, R486): the configuration of every head that it serves is written to the bridge. -/
def State.headLinkUp (s : State) (l : Nat) : State :=
  let s := (s.put (F.FTU_LINK_STAT_UP l) 1).claim l
  (List.range 4).foldl (fun s h =>
    let x := 4 * l + h
    (if s.served x then s.writeBridge x else s).headStart x) s

/-- A head link goes down (R163, R172, R174). -/
def State.headLinkDown (s : State) (l : Nat) : State :=
  let s := ((s.put (F.FTU_LINK_STAT_UP l) 0).flag (F.FTU_LINK_STAT_DOWN_SEEN l)).raise (320 + 3)
  (List.range 4).foldl (fun s h => s.headStop (4 * l + h)) s

/-! ### What the pipes and generators hand the FTU (R95, R151, R158, R159) -/

/-- A head's packed line is handed over by a pipe; a commit that came before it applies (R158). -/
def State.handLine (s : State) (x : Nat) (l : HeadLine) : State :=
  let c := (s.pipe l.pipe).commits.reverse.find? fun c => c.k == l.k + l.delay
  let h := s.head x
  s.setHead x { h with lines := h.lines ++ [{ l with commit := c }] }

/-- The commit of line `m` of pipe `n` at one head (R158, R159): the lines waiting on it take it; those that
waited on an earlier one are lost. -/
def State.headCommit (s : State) (n x : Nat) (c : Commit) : State :=
  let h := s.head x
  let mine := fun (l : HeadLine) => l.pipe == n && l.commit.isNone
  let take := fun (l : HeadLine) =>
    let l := if l.pipe == n && l.k == c.k then { l with tk := c.t } else l
    if mine l && l.k + l.delay == c.k then { l with commit := some c } else l
  let s := s.setHead x { h with lines := h.lines.map take }
  (h.lines.filter fun l => mine l && l.k + l.delay < c.k && l.arrived).foldl (fun s l =>
    let s := (s.headErr x l.k 0x03 0x023).notFiredFor x (ftuCode 0x03 0x023) l
    if l.sent then s.noFire x else s) s

/-- The final T_k of line `k` in the records of a bar that are still open. -/
def Bar.noteTempo (b : Bar) (k t : Nat) : Bar :=
  { b with
    notFired := b.notFired.map fun (e : NotFired) => if e.k = k then { e with tk := t } else e
    runs := b.runs.map fun (r : DpRun) => if r.first = k then { r with tk := t } else r }

/-- The commits of a bar that are kept (R158): the last 96, which the rows still to come wait on; and in a standby those that the
partner has not reported, which the record of a forced castling starts from (R488). -/
def State.keepCommits (s : State) (n : Nat) (l : List Commit) : List Commit :=
  let cut := l.length - 96
  (l.zipIdx.filter fun p => decide (cut ≤ p.2)
    || (s.twnState == twStandby && decide (Sparse.get (fun _ => 0) s.twn.lines n < p.1.k))).map (·.1)

/-- The group's first line of a signature takes its final T_k (R274). -/
def State.signTempo (s : State) (n k t : Nat) : State :=
  { s with twn := { s.twn with sigs := s.twn.sigs.map fun (e : Sig) =>
      if e.pipe = n && 64 * e.group = k then { e with tk := t } else e } }

/-- The commit of a line of pipe `n` (R158): kept for lines whose data is still to come. -/
def State.ftuCommit (s : State) (n : Nat) (c : Commit) : State :=
  let s := (s.setBar n ((s.bar n).noteTempo c.k c.t)).signTempo n c.k c.t
  let p := s.pipe n
  let s := s.setPipe n { p with commits := s.keepCommits n (p.commits ++ [c]) }
  (s.ftu.heads.map (·.1)).foldl (fun s x => s.headCommit n x c) s

/-- A skip notice of a pipe (R95, R138, R139): no head of the bar fires the line. With the cause OVERSPEED the
FTU accounts for it under its policy. -/
def State.skipNotice (s : State) (n : Nat) (q : QLine) (overspeed : Bool) : State :=
  let s := s.dropsLostLine n q.k
  let head := (s.lineHeads n q.bank q.k).min?.getD 0
  let s :=
    if overspeed then
      let l : OvsLine := {
        k := q.k, pos := q.pos, tk := q.tk, head := head, tag := q.tag, span := (s.inhibitAt q.pos).getD 0 }
      if s.on F.FTU_OVS_CTRL_POLICY && (s.inhibitAt q.pos).isSome then s.noteInhibit n l else s.noteSkip n l
    else s
  let b := s.bar n
  (s.setBar n { b with seen := max b.seen q.k }).settleBar n

end Sys2Proof.Machine
end

