-- ==== Sys2Proof/Machine/Render.lean ====
section
/-! DEFINITION. Render pipes (04) and nozzle compensation (05 R132–R136): queues, snapshots, tile fetch,
composition, tone, density, screening, compensation, packing, and the records of suppressed heads. -/

namespace Sys2Proof.Machine

/-- The event `i` of pipe `n` (R118). -/
def State.rpEvent (s : State) (n i : Nat) : State := s.raise (256 + n * 7 + i)

/-! ### The threshold store (R106–R108) -/

/-- Whether a cell lies in the array of the active bank of an enabled pipe (R108). -/
def State.cellActive (s : State) (i : Nat) : Bool :=
  (List.range 8).any fun n =>
    let a := s.screen n (s.activeBank n)
    s.pipeState n != rpDisabled && a.1 ≤ i && i < a.1 + a.2

/-- ADDR advances by 1 (R108). -/
def State.tsAdvance (s : State) : State := s.bump F.RP_TS_ADDR

/-- One cell written through the store's access port or by the FAB (R108, R297). -/
def State.tsStore (s : State) (i v : Nat) : State :=
  if s.cellActive i then (s.flag F.RP_TS_STAT_ACTIVE_WRITE).logErr (siteRp 0) 0x01 0x002 [0, 0, i]
  else { s with ts := Sparse.set tsDefault s.ts i { bits := BitVec.ofNat 64 v } }

def execThresholdStoreWrite (dt : Nat) (who : Requester) (hi : Word) (s : State) : Res :=
  highCmd dt who O.RP_TS_DATA hi (fun v s => (s.tsStore (s.get F.RP_TS_ADDR) v).tsAdvance) s

/-- A software read of the cell at ADDR: its low word, the high word latched (R6, R108). -/
def State.tsRead (s : State) (who : Requester) : State :=
  let i := s.get F.RP_TS_ADDR
  let c := s.tsCell i
  let s := match c.mark with
    | .good => s
    | .corrected => s.bump F.RP_TS_ECC_CORR
    | _ => (s.flag F.RP_TS_STAT_UNCORR).logErr (siteRp 0) 0x02 0x014 [0, 0, i]
  let v := c.bits.toNat
  ((s.latchHigh who O.RP_TS_DATA (v / 2 ^ 32)).emit (.readData who O.RP_TS_DATA (v % 2 ^ 32))).tsAdvance

def execThresholdStoreRead (dt : Nat) (who : Requester) (s : State) : Res :=
  readCmd dt who O.RP_TS_DATA (fun s => s.tsRead who) s

/-! ### Snapshots (R98–R103, R109) -/

/-- The geometry of a binding's plane: tile width and height, columns (R98). -/
def State.tileW (s : State) (n b j : Nat) : Nat :=
  2 ^ s.get (F.CMP_PLANE_GEOM_TW_LOG2 (s.get (F.RP_BANK_BIND_CFG_PLANE n b j)))
def State.tileH (s : State) (n b j : Nat) : Nat :=
  2 ^ s.get (F.CMP_PLANE_GEOM_TH_LOG2 (s.get (F.RP_BANK_BIND_CFG_PLANE n b j)))
def State.tileCols (s : State) (n b j : Nat) : Nat :=
  s.get (F.CMP_PLANE_GEOM_COLS_M1 (s.get (F.RP_BANK_BIND_CFG_PLANE n b j))) + 1

/-- y of line `k` in a binding (R98). -/
def State.bindY (s : State) (n b j k : Nat) : Nat := s.jobLine n b k % s.repLines n b j

/-- xp of pixel `x`, where it lies inside the plane (R98, R99). -/
def State.bindX (s : State) (n b j x : Nat) : Option Nat :=
  let xp : Int := (x : Int) - s.getInt (F.RP_BANK_BIND_XOFF n b j)
  if 0 ≤ xp && xp < ((s.tileCols n b j * s.tileW n b j : Nat) : Int) then some xp.toNat else none

/-- The blocks of a read that ECC corrects (R396). -/
def State.corrected (s : State) (d n : Nat) : Nat :=
  if s.on F.MEM_CTRL_ECC_EN then
    ((blocksOf d n).filter fun b => match s.flawAt b with
      | .oneLow | .oneHigh | .oneBoth => true
      | _ => false).length
  else 0

/-- A read by a pipe or the RRU, with the errors corrected in it. -/
def State.countedRead (s : State) (port d n : Nat) : Option Nat × Nat × State :=
  let (v, s) := s.memReadNat port d n
  (v, s.corrected d n, s)

/-- How a block reads the tiles of a snapshot: its site, its counters of corrected errors and of invalid
fills, the detail words' place for the binding, the generator line of the errors, and the line number that the
bindings see (R98; the RRU's by R241). -/
structure Fetcher where
  site : Site
  corr : Fld
  fills : Fld
  binding : Nat
  k : Nat
  job : Nat
  deriving DecidableEq, Repr

/-- The first and last pixel of a tile column on the line. -/
def State.tilePixels (s : State) (n b j c : Nat) : Nat × Nat :=
  let off := s.getInt (F.RP_BANK_BIND_XOFF n b j)
  let w := s.tileW n b j
  ((max 0 ((c * w : Nat) + off)).toNat, (min ((s.width n b - 1 : Nat) : Int) (((c + 1) * w : Nat) + off - 1)).toNat)

/-- One tile of a snapshot: its map entry and, for an overlay, its alpha byte are read (R100, R103, R109). Each read that fails is
logged and is a cause of the tile's marks; whether a tile whose alpha byte failed is needed cannot be told, and it counts as needed
except under R103's rules for VALID = 0 (DESIGN CHOICE, assumption 94). -/
def State.snapTile (s : State) (f : Fetcher) (n b j row c : Nat) : SnapTile × State :=
  let p := s.get (F.RP_BANK_BIND_CFG_PLANE n b j)
  let idx := row * s.tileCols n b j + c
  let (e, c1, s) := s.countedRead f.site.inst (s.mapEntry p idx) 8
  let (a, c2, s) := if j = 0 then (some 255, 0, s) else s.countedRead f.site.inst (s.get (F.RP_BANK_BIND_ALPHA_BASE n b j) + idx) 1
  let s := s.bump f.corr (c1 + c2)
  let px := s.tilePixels n b j c
  let fail := fun (s : State) (causes : List Nat) =>
    (({ bad := causes } : SnapTile), causes.foldl (fun (s : State) cause =>
      s.logErr f.site 0x02 cause [f.k % 2 ^ 32, f.k / 2 ^ 32, f.binding, px.1, px.2]) s)
  match a, e with
  | none, none => fail s [0x011, 0x013]
  | none, some _ => fail s [0x013]
  | some 0, _ => ({ alpha := 0, absent := true }, s)
  | some _, none => fail s [0x011]
  | some a, some e =>
    if bit e 0 then ({ addr := bits e 45 6 * 64, alpha := a }, s)
    else if s.on (F.RP_BANK_BIND_CFG_INVALID_POLICY n b j) then ({ alpha := a, absent := true }, s.bump f.fills)
    else fail s [0x012]

/-- The tile columns that pixels `x0` to `x1` touch: the first and how many (R100). -/
def State.snapCols (s : State) (n b j x0 x1 : Nat) : Nat × Nat :=
  let off := s.getInt (F.RP_BANK_BIND_XOFF n b j)
  let w := s.tileW n b j
  let lo := max 0 ((x0 : Int) - off)
  let hi := min ((x1 : Int) - off) ((s.tileCols n b j * w : Nat) - 1)
  if hi < lo then (0, 0) else (lo.toNat / w, hi.toNat / w - lo.toNat / w + 1)

/-- A tile-row snapshot of a binding for pixels `x0` to `x1` of a line (R100). -/
def State.snapshot (s : State) (f : Fetcher) (n b j x0 x1 : Nat) : Snap × State :=
  let row := s.bindY n b j f.job / s.tileH n b j
  let (c0, cnt) := s.snapCols n b j x0 x1
  let (tiles, s) := (List.range cnt).foldl (fun (a : List SnapTile × State) i =>
    let (t, s) := a.2.snapTile f n b j row (c0 + i)
    (a.1 ++ [t], s)) ([], s)
  ({ bank := b, row := row, firstCol := c0, tiles := tiles }, s)

/-! ### Fetch and composition (R98–R104) -/

/-- What a binding gives a pixel: nothing (outside, transparent or FILL), a mark with its causes, or the byte at an
address under an alpha. -/
inductive Src
  | outside
  | bad (causes : List Nat)
  | data (addr alpha : Nat)
  deriving DecidableEq, Repr

/-- The source of pixel `x` of line `k` in a binding under its snapshot (R98, R99, R103). -/
def State.source (s : State) (sn : Snap) (n b j k x : Nat) : Src :=
  match s.bindX n b j x with
  | none => .outside
  | some xp =>
    let w := s.tileW n b j
    match sn.tiles[xp / w - sn.firstCol]? with
    | none => .outside
    | some t =>
      if t.bad != [] then .bad t.bad
      else if t.absent then .outside
      else .data (t.addr + s.bindY n b j k % s.tileH n b j * w + xp % w) t.alpha

/-- The 64-byte words a binding needs for a line, each with its first and last pixel. -/
def lineBlocks (srcs : List (Nat × Src)) : List (Nat × Nat × Nat) :=
  srcs.foldl (fun acc p =>
    match p.2 with
    | .data a _ =>
      if acc.any fun q => q.1 == a / 64 then
        acc.map fun (q : Nat × Nat × Nat) => if q.1 = a / 64 then (q.1, q.2.1, p.1) else q
      else acc ++ [(a / 64, p.1, p.1)]
    | _ => acc) []

/-- The tile words of a binding are fetched: those that fail are logged and answered (R109, R111). -/
def State.fetch (s : State) (f : Fetcher) (srcs : List (Nat × Src)) : List Nat × State :=
  (lineBlocks srcs).foldl (fun (a : List Nat × State) q =>
    let s := a.2.settle (64 * q.1) 64
    let c := s.corrected (64 * q.1) 1
    let (ok, s) := s.readBlock q.1
    let s := s.bump f.corr c
    if ok then (a.1, s)
    else (q.1 :: a.1, s.logErr f.site 0x02 0x010 [f.k % 2 ^ 32, f.k / 2 ^ 32, f.binding, q.2.1, q.2.2])) ([], s)

/-- One binding's layer over the value beneath (R102, R103): the value and the causes of its marks. -/
def State.layer (s : State) (n b j : Nat) (bad : List Nat) (src : Src) (below : Nat × List Nat) : Nat × List Nat :=
  match src with
  | .outside => if j = 0 then (s.get (F.RP_BANK_BIND_CFG_FILL n b j), below.2) else below
  | .bad cs => (below.1, cs ++ below.2)
  | .data a alpha =>
    if bad.contains (a / 64) then (below.1, 0x010 :: below.2)
    else
      let v := (s.byteAt a).toNat
      if j = 0 then (v, below.2)
      else if alpha = 0 || (s.on (F.RP_BANK_BIND_CFG_KEY_EN n b j) && v = s.get (F.RP_BANK_BIND_CFG_KEY n b j)) then below
      else ((v * alpha + below.1 * (255 - alpha) + 127) / 255, below.2)

/-- TONE of a value (R104). -/
def State.tone (s : State) (n b v : Nat) : Nat := s.get (F.RP_BANK_TONE n b (v / 4)) / 2 ^ (8 * (v % 4)) % 256

/-- Density correction by a nozzle table entry (R105). -/
def density (e c : Nat) : Nat :=
  (min 255 (max 0 (((c * ntGain e + 256) / 512 : Nat) + ntOffset e))).toNat

/-- The cell index of a pixel (R106, R107). -/
def State.cellOf (s : State) (n b k x : Nat) : Nat :=
  let w := 2 ^ s.get (F.RP_BANK_SCR_W_LOG2 n b)
  let h := 2 ^ s.get (F.RP_BANK_SCR_H_LOG2 n b)
  s.get (F.RP_BANK_SCR_BASE n b) + (k + s.get (F.RP_BANK_SCR_OFF_YOFF n b)) % h * w
    + (x + s.get (F.RP_BANK_SCR_OFF_XOFF n b)) % w

/-- The dose of a value under a cell's thresholds (R107). -/
def doseOf (cell c : Nat) : Nat := ((List.range 7).filter fun i => bits cell (8 * i + 7) (8 * i) < c).length

/-! ### Nozzle table reads (R136) -/

/-- The entry as the pipe reads it at Tempo `t`: the first write of its render at or after that cycle found it
so (R136, R137). -/
def State.ntSeen (s : State) (p : Pipe) (i t : Nat) : Cell :=
  match p.ntLog.find? fun w => w.1 == i && t / 4 ≤ w.2.1 / 4 with
  | some (_, _, e, m) => { bits := BitVec.ofNat 64 e, mark := m }
  | none => s.ntCell i

/-- Whether a cell or entry cannot be read (R109). -/
def Cell.lost (c : Cell) : Bool := c.mark == .uncorrectable || c.mark == .poison

/-- A pixel after screening (R92): its dose, the causes of its mark, and the row, index and entry of its
nozzle; the index and entry of its redundant nozzle, which modes 2 and 3 read, and whether its row is eligible (R134, R136). -/
structure Pix where
  x : Nat
  dose : Nat
  bad : List Nat
  row : Nat
  idx : Option Nat
  entry : Nat
  spare : Option (Nat × Nat × Bool)
  deriving DecidableEq, Repr

/-- The redundant nozzle of a pixel, in modes 2 and 3, and whether row RR is eligible and not the firing row (R134, R136). -/
def State.spareOf (s : State) (n b k x row e : Nat) : Option (Nat × Bool) :=
  let rr := ntRR e
  if ntMode e = 2 || ntMode e = 3 then
    (s.nozzleAt n b rr x).map fun i => (i, rr != row && s.eligible n b rr k (x / 16384))
  else none

/-- The cell of a line's row buffer (R107). -/
def Pipe.rowCell (p : Pipe) (i : Nat) : Cell := Sparse.get tsDefault p.row i

/-- Stages 5 and 6 of a pixel with composed value `v` (R104–R107, R109, R136), with the registers as at the line's start and the
row buffer's cells. -/
def State.screenPixel (s : State) (p : Pipe) (n b k x t : Nat) (v : Nat × List Nat) : Pix :=
  let cell := p.rowCell (s.cellOf n b k x)
  let bad := if cell.lost then 0x014 :: v.2 else v.2
  match s.firingRow n b k x with
  | none => { x := x, dose := 0, bad := bad, row := 0, idx := none, entry := 0, spare := none }
  | some row =>
    match s.nozzleAt n b row x with
    | none => { x := x, dose := 0, bad := bad, row := row, idx := none, entry := 0, spare := none }
    | some i =>
      let ec := s.ntSeen p i t
      let e := ec.bits.toNat
      let sp := s.spareOf n b k x row e
      let sc := sp.map fun j => (j.1, s.ntSeen p j.1 t, j.2)
      let bad := if ec.lost || (sc.map fun q => q.2.1.lost).getD false then 0x015 :: bad else bad
      let dose := if bad = [] then doseOf cell.bits.toNat (density e (s.tone n b v.1)) else 0
      { x := x, dose := dose, bad := bad, row := row, idx := some i, entry := e,
        spare := sc.map fun q => (q.1, q.2.1.bits.toNat, q.2.2) }

/-! ### Compensation (R132–R135) -/

/-- What a pixel does with its dose: fire it, give shares to left and right, move it, or lose it. -/
inductive Fate
  | own
  | share (left right lost : Nat)
  | moved (idx : Nat)
  | dropped
  deriving DecidableEq, Repr

/-- The shares of a neighbour compensation (R133). -/
def shares (d wl wr : Nat) (rightFirst : Bool) : Fate :=
  let t := (d * (wl + wr) + 128) / 256
  let a := min t ((d * (if rightFirst then wr else wl) + 128) / 256)
  if rightFirst then .share (t - a) a (d - t) else .share a (t - a) (d - t)

/-- The fate of a pixel's dose (R132–R134). -/
def pixFate (en rightFirst : Bool) (p : Pix) : Fate :=
  if p.idx.isNone then .dropped
  else if ntFires p.entry then .own
  else
    let neighbour := shares p.dose (ntWL p.entry) (ntWR p.entry) rightFirst
    let spare := match p.spare with
      | some (i, e, avail) => if avail && ntFires e then some i else none
      | none => none
    match (if en then ntMode p.entry else 0), spare with
    | 1, _ => neighbour
    | 2, some i => .moved i
    | 3, some i => .moved i
    | 3, none => neighbour
    | _, _ => .dropped

def Fate.left : Fate → Nat
  | .share l _ _ => l
  | _ => 0
def Fate.right : Fate → Nat
  | .share _ r _ => r
  | _ => 0

/-- The counters of compensation (R135): pixels shared and moved, units lost and clipped. -/
structure CompCount where
  neigh : Nat := 0
  redund : Nat := 0
  lost : Nat := 0
  clipped : Nat := 0
  deriving DecidableEq, Repr

/-- Stage 7 over the line (R132–R135), pixel by pixel with the fates of its neighbours: the dots by nozzle
index and the counts. A share is lost at the line's ends and at a nozzle that does not fire. -/
def compensate : Fate → List (Pix × Fate) → List (Nat × Nat) × CompCount
  | _, [] => ([], {})
  | before, (p, f) :: rest =>
    let after := (rest.head?.map (·.2)).getD .dropped
    let (dots, c) := compensate f rest
    let got := before.right + after.left
    match f with
    | .own =>
      let sum := p.dose + got
      ((p.idx.getD 0, min 7 sum) :: dots, { c with clipped := c.clipped + (sum - min 7 sum) })
    | .share l r lost =>
      let edge := (if p.x = 0 then l else 0) + (if rest = [] then r else 0)
      (dots, { c with neigh := c.neigh + (if p.dose = 0 then 0 else 1), lost := c.lost + got + lost + edge })
    | .moved i =>
      ((i, p.dose) :: dots, { c with redund := c.redund + (if p.dose = 0 then 0 else 1), lost := c.lost + got })
    | .dropped => (dots, { c with lost := c.lost + p.dose + got })

/-! ### Rendering a line (R92–R94, R109, R110, R149–R151) -/

/-- The snapshots of a binding in force, and a line's pixel sources under them. -/
def Pipe.snap (p : Pipe) (j : Nat) : Option Snap := Sparse.get (fun _ => none) p.snaps j

/-- How pipe `n` fetches for binding `j` of line `k`. -/
def rpFetcher (n j k : Nat) : Fetcher :=
  { site := siteRp n, corr := F.RP_ECC_CORR n, fills := F.RP_INVALID_FILLS n, binding := j, k := k, job := k }

/-- A snapshot is taken for binding `j` of bank `b` where the line is the first of its tile row, of its bank switch or of
the enable (R100, R101); one taken again for the same line in the cycle of a switch replaces its first (R115). -/
def State.snapBinding (s : State) (n b : Nat) (q : QLine) (fresh : Bool) (j : Nat) : State :=
  let p := s.pipe n
  if !s.on (F.RP_BANK_BIND_CFG_EN n b j) then s
  else
    let row := s.bindY n b j q.k / s.tileH n b j
    let same := match p.snap j with
      | some sn => sn.row == row
      | none => false
    if same && !fresh then s
    else
      let (sn, s) := s.snapshot (rpFetcher n j q.k) n b j 0 (s.width n b - 1)
      let p := s.pipe n
      let again := q.took.contains j
      let old := p.unretired.map fun (u : Nat × Option Nat) => if u.1 = j && u.2.isNone then (u.1, some q.k) else u
      let s := s.setPipe n { p with
        snaps := Sparse.set (fun _ => none) p.snaps j (some sn)
        queue := p.queue.map fun (u : QLine) => if u.k = q.k && !again then { u with took := j :: u.took } else u
        unretired := if again then p.unretired else old ++ [(j, none)] }
      if again then s else s.bump (F.RP_SNAP_TAKEN n)

/-- The data of a line is fetched: its snapshots (R94, R100). In the cycle of a bank switch they use the new bank, and the next line
takes fresh ones (R115). -/
def State.fetchQueued (s : State) (n : Nat) (q : QLine) : State :=
  let p := s.pipe n
  let switched := decide ((p.switchedAt.map (· / 4)) = some (s.now / 4)) && p.epoch != q.epoch
  let b := if switched then s.activeBank n else q.bank
  let fresh := switched || p.lastEpoch != some q.epoch
  let old := if p.lastEpoch != some q.epoch then
      p.unretired.map fun (u : Nat × Option Nat) => if u.2.isNone then (u.1, some q.k) else u
    else p.unretired
  let s := s.setPipe n { p with lastEpoch := if switched then none else some q.epoch, unretired := old }
  let s := (List.range 4).foldl (fun s j => s.snapBinding n b q fresh j) s
  let p := s.pipe n
  s.setPipe n { p with queue := p.queue.map fun (u : QLine) =>
    if u.k = q.k then { u with fetchedAt := some s.now, snaps := p.snaps } else u }

/-- A line fetched in the PIX cycle of a bank switch, before it in the queue of commands, is fetched again (R115). -/
def State.fetchAgain (s : State) (n : Nat) : State :=
  ((s.pipe n).queue.filter fun q => decide ((q.fetchedAt.map (· / 4)) = some (s.now / 4))).foldl
    (fun s q => s.fetchQueued n q) s

/-- The first line of the queue that is not yet rendered: the line in the render, or the next. -/
def Pipe.toRender (p : Pipe) : Option QLine := p.queue.find? (·.word.isNone)

/-- The line whose render may start: the pipe's next, none running (R94). -/
def State.nextLine (s : State) (n : Nat) : Option QLine :=
  let st := s.pipeState n
  if (s.pipe n).busyAt.isNone && (st = rpRendering || st = rpDraining) then (s.pipe n).toRender else none

/-- The pipe may fetch for the next line of its queue while it renders the line before (R94): whether it does so by now is free. -/
def State.prefetch (s : State) (n : Nat) : State :=
  let p := s.pipe n
  match p.busyAt, (p.queue.filter (·.word.isNone))[1]? with
  | some _, some q =>
    if q.fetchedAt.isSome then s
    else
      let (v, s) := s.draw
      if v.toNat % 2 = 1 then s.fetchQueued n q else s
  | _, _ => s

/-- The registers of a pipe's bank as they stood at the line start: what a line in render takes from its bank (R92). A line keeps
them to its end: for the masks and the threshold row R92 and R107 say so; for the rest it is the model's choice (DESIGN CHOICE,
assumption 95), which shows only where the old bank is written behind a switch. -/
def State.atLine (s : State) (n : Nat) : State := { s with regs := (s.pipe n).startRegs }

/-- The cells of the array row that a line copies into the row buffer (R107), as they stood before a write of the same cycle
(R115). -/
def State.rowCells (s : State) (n b k : Nat) : List (Nat × Cell) :=
  let w := 2 ^ s.get (F.RP_BANK_SCR_W_LOG2 n b)
  let h := 2 ^ s.get (F.RP_BANK_SCR_H_LOG2 n b)
  let first := s.get (F.RP_BANK_SCR_BASE n b) + (k + s.get (F.RP_BANK_SCR_OFF_YOFF n b)) % h * w
  s.past.ts.filter fun c => decide (first ≤ c.1) && decide (c.1 < first + w)

/-- The render of a line starts (R92, R94, R100, R107). -/
def State.renderStart (s : State) (n : Nat) (q : QLine) : State :=
  let s := if q.fetchedAt.isSome then s else s.fetchQueued n q
  let p := s.pipe n
  let tag := { s.printTag n q.bank q.k [] with x0 := 0, x1 := 0 }
  let s := s.setPipe n { p with
    busyAt := some s.now, startRegs := s.regs, row := s.rowCells n q.bank q.k, ntLog := []
    queue := p.queue.map fun (u : QLine) => if u.k = q.k then { u with tag := tag } else u }
  (s.put (F.RP_LINE n) q.k).prefetch n

def execLineRenderStart (dt : Nat) (n : Fin 8) (s : State) : Res :=
  evCmd dt (fun s => (s.nextLine n).isSome) (fun s =>
    match s.nextLine n with
    | some q => s.renderStart n q
    | none => s) s

/-- SEG (R93). -/
def State.seg (s : State) (n b : Nat) : Nat := (s.width n b + 15) / 16

/-- The line whose render is over: SEG + 24 PIX cycles after its start (R93). -/
def State.renderedLine (s : State) (n : Nat) : Option (QLine × Nat) :=
  match (s.pipe n).busyAt, (s.pipe n).toRender with
  | some t, some q => if t + 4 * ((s.atLine n).seg n q.bank + 24) ≤ s.now then some (q, t) else none
  | _, _ => none

/-- Stages 2 and 3 of a line: the composed values with their marks, one per pixel (R98–R103, R109). -/
def State.compose (s : State) (n : Nat) (q : QLine) : List (Nat × List Nat) × State :=
  let b := q.bank
  let line := s.atLine n
  let xs := List.range (line.width n b)
  (List.range 4).foldl (fun (a : List (Nat × List Nat) × State) j =>
    match line.on (F.RP_BANK_BIND_CFG_EN n b j), Sparse.get (fun _ => none) q.snaps j with
    | true, some sn =>
      let srcs := xs.map fun x => (x, line.source sn n sn.bank j q.k x)
      let (bad, s) := a.2.fetch (rpFetcher n j q.k) srcs
      ((a.1.zip srcs).map (fun p => line.layer n b j bad p.2.2 p.1), s)
    | _, _ => a) (xs.map (fun _ => (0, [])), s)

/-- The first and last pixel of each value, in order of first use. -/
def spans (l : List (Nat × Nat)) : List (Nat × Nat × Nat) :=
  l.foldl (fun acc p =>
    if acc.any fun q => q.1 == p.1 then
      acc.map fun (q : Nat × Nat × Nat) => if q.1 = p.1 then (q.1, q.2.1, p.2) else q
    else acc ++ [(p.1, p.2, p.2)]) []

/-- The threshold cells and nozzle entries of a line that fail are logged, those corrected counted (R109, R111). -/
def State.reportCells (s : State) (n : Nat) (q : QLine) (t : Nat) (pix : List Pix) : State :=
  let line := s.atLine n
  let cells := spans (pix.map fun p => (line.cellOf n q.bank q.k p.x, p.x))
  let s := cells.foldl (fun s c =>
    match ((s.pipe n).rowCell c.1).mark with
    | .good => s
    | .corrected => s.bump (F.RP_ECC_CORR n)
    | _ => s.logErr (siteRp n) 0x02 0x014 [q.k % 2 ^ 32, q.k / 2 ^ 32, c.1, c.2.1, c.2.2]) s
  let read := fun (x : Nat) => t + 4 * (x % line.seg n q.bank + Config.ntReadLag % 25)
  pix.foldl (fun s p => (p.idx.toList ++ (p.spare.map (·.1)).toList).foldl (fun s i =>
    match (s.ntSeen (s.pipe n) i (read p.x)).mark with
    | .good => s
    | .corrected => s.bump (F.RP_ECC_CORR n)
    | _ => s.logErr (siteRp n) 0x02 0x015 [q.k % 2 ^ 32, q.k / 2 ^ 32, i, p.x, p.x]) s) s

/-- The payload of a head from the line's dots (R148–R150). -/
def State.packHead (s : State) (x : Nat) (dots : List (Nat × Nat)) : Nat :=
  dots.foldl (fun w d =>
    let q := d.1 % 4096
    if headOf d.1 = x && q < s.nozzles x then
      let i := 3 * s.payloadPos x q
      setBits w (i + 2) i d.2
    else w) 0

/-- The heads a cause flags on the line: those of the marked pixels' nozzles (R109, R151). -/
def State.flagged (s : State) (pix : List Pix) (pred : List Nat → Bool) : List Nat :=
  (pix.filterMap fun p => match p.idx with
    | some i => if pred p.bad && i % 4096 < s.nozzles (headOf i) then some (headOf i) else none
    | none => none).eraseDups

/-- A pipe's data-path record is issued (R110). -/
def State.issuePipeRun (s : State) (n : Nat) (r : DpRun) : State :=
  (s.issue (rankRp n) (s.dpDefect (siteRp n) (s.get F.DFQ_SEV_RP_DP) n r.tag r.pos r.lastPos r.tk r.code r.heads)).rpEvent n 0

/-- The runs of a pipe that line `k` has ended are issued (R110). -/
def State.settlePipe (s : State) (n k : Nat) : State :=
  let p := s.pipe n
  let ended := fun (r : DpRun) => r.over fun j => decide (j ≤ k)
  (p.runs.filter ended).foldl (fun s r => s.issuePipeRun n r) (s.setPipe n { p with runs := p.runs.filter fun r => !ended r })

/-- The causes of R109, with their error codes' class. -/
def dataCauses : List Nat := [0x010, 0x011, 0x012, 0x013, 0x014, 0x015]

/-- The slack of a line: T_k less the Tempo of its last packed word; the register keeps the least (R120). A
last word after T_k has no stated value there, and is free. -/
def State.noteSlack (s : State) (n tk word : Nat) : State :=
  let (v, s) := if word ≤ tk then (tk - word, s) else
    let (v, s) := s.draw
    (v.toNat % 2 ^ 32, s)
  s.put (F.RP_MIN_SLACK n) (min (s.get (F.RP_MIN_SLACK n)) v)

/-- CRC-64 of R483 over bytes, from a running value. -/
def crc64Byte (c b : Nat) : Nat :=
  (List.range 8).foldl (fun c _ => if c % 2 = 1 then (c / 2) ^^^ 0xC96C5795D7870F42 else c / 2) (c ^^^ b)

/-- Whether a signature's group is complete: its last line, or one of a later group, has been rendered. -/
def State.sigDone (s : State) (e : Sig) : Bool :=
  e.last % 64 == 63 || s.twn.sigs.any fun u => u.head == e.head && decide (e.group < u.group)

/-- The signature as it is sent and compared: the final exclusive-or applied. -/
def Sig.value (e : Sig) : DWord := e.crc ^^^ allOnes

/-- The record of a mismatch (R273, R274). -/
def State.sigDefect (s : State) (e : Sig) : Defect :=
  { severity := s.get F.DFQ_SEV_SIG, cause := 5, source := 0x13, inst := 0, bar := some e.pipe, xBar := true,
    job := e.tag.job, rep := e.tag.rep,
    wcoStart := e.pos / 2 ^ 16, wcoEnd := (e.pos + 64 * s.pitch e.pipe) / 2 ^ 16, tempo := e.tk,
    xStart := e.tag.x0, xEnd := e.tag.x1, nozzle := some (firstNozzle e.head),
    data := field 0 16 e.head + field 32 32 e.group }

/-- A standby signature compared with this twin's (R484). -/
def State.sigCompare (s : State) (e : Sig) (t : TheirSig) : State :=
  let s := { s with twn := { s.twn with
    sigs := s.twn.sigs.erase e, theirs := s.twn.theirs.erase t } }
  if e.mask ≠ t.mask then s.bump F.TWN_SIG_UNCOMPARED
  else if e.value = t.crc then s.bump F.TWN_SIG_OK
  else ((s.bump F.TWN_SIG_BAD).issue rankTwn (s.sigDefect e)).raise (1216 + 3)

/-- The signatures received whose group is complete here are compared, in an ACTIVE twin with its partner. -/
def State.sigSettle (s : State) : State :=
  if s.twnState = twActive && !s.twn.lost then
    s.twn.theirs.foldl (fun (s : State) t =>
      match s.twn.sigs.find? fun e => e.head == t.head && e.group == t.group && s.sigDone e with
      | some e => s.sigCompare e t
      | none => s) s
  else s

/-- A line's payload joins the head's signature of its group (R483), in a paired device; the T_k of the group's first line is taken
from its commit, before or after. -/
def State.sign (s : State) (n : Nat) (q : QLine) (x payload : Nat) (span : Nat × Nat) (counted : Bool) : State :=
  let st := s.twnState
  if !(st = twActive || st = twStandby || st = twCastling) then s
  else
    let g := q.k / 64
    let mine := fun (e : Sig) => e.head == x && e.group == g
    let first := (((s.pipe n).commits.reverse.find? fun c => c.k == 64 * g).map (·.t)).getD q.tk
    let e : Sig := (s.twn.sigs.find? mine).getD {
      head := x, group := g, pipe := n, tag := { q.tag with x0 := span.1, x1 := span.2 }, first := q.k, last := q.k, tk := first,
      pos := q.pos - q.k % 64 * s.pitch n, at_ := s.now }
    let crc := (toBytes (8 * s.payloadWords x) payload).foldl (fun c b => crc64Byte c b.toNat) e.crc.toNat
    let e' := if counted then
        { e with mask := e.mask ||| BitVec.ofNat 64 (2 ^ (q.k % 64)), crc := BitVec.ofNat 64 crc, last := q.k, at_ := s.now }
      else { e with last := q.k, at_ := s.now }
    { s with twn := { s.twn with sigs := (s.twn.sigs.filter fun e => !mine e) ++ [e'] } }.sigSettle

/-- The drops of a line for heads that get no packed data (pixels beyond WIDTH) are not fired; DESIGN CHOICE (assumption 102). -/
def State.dropsUnsent (s : State) (n k : Nat) (heads : List Nat) : State :=
  (s.dgu.drops.filter fun d => d.pipe == n && d.k == k && !heads.contains d.head).foldl State.dropNotFired s

/-- A line's heads get their packed data (R149–R151). -/
def State.pack (s : State) (n : Nat) (q : QLine) (dots : List (Nat × Nat)) (flagged : List Nat) : State :=
  let line := s.atLine n
  let s := s.dropsUnsent n q.k (line.lineHeads n q.bank q.k)
  (List.range 4).foldl (fun s f =>
    if line.rowOnLine n q.bank f q.k then
      (line.rowHeads n q.bank f).foldl (fun s xp =>
        let x := xp.1
        let payload := s.packHead x dots
        let bad := flagged.contains x
        let span := (xp.2, min q.tag.last (xp.2 + 4095))
        let s := s.handLine x {
          pipe := n, k := q.k, pos := q.pos, tk := q.tk, tag := { q.tag with x0 := span.1, x1 := span.2 },
          delay := line.rowDelay n q.bank f, rho := line.rowRho n q.bank f, payload := payload, flagged := bad }
        s.sign n q x payload span (!bad && s.dropsOf x n q.k == [])) s
    else s) s

/-- A pipe enters DISABLED (R114): its runs are issued, its snapshots have no further line. -/
def State.pipeOff (s : State) (n : Nat) : State :=
  let p := s.pipe n
  let s := (s.put (F.RP_STAT_STATE n) rpDisabled).put (F.RP_STAT_QUEUED n) 0
  let s := s.setPipe n { p with
    queue := [], busyAt := none, lastEpoch := none, snaps := [], runs := [], commits := [],
    unretired := p.unretired.map fun (u : Nat × Option Nat) => (u.1, some 0) }
  (p.runs.foldl (fun s r => s.issuePipeRun n r) s).scanPipeOff n

/-- An enable with the pipe DISABLED (R112, R114, R123): refused, it stays DISABLED with EN as written (R8). -/
def State.pipeStart (s : State) (n : Nat) : State :=
  let b := s.get (F.RP_CTRL_BANK_SEL n)
  if s.on F.RP_NT_STAT_INIT_DONE && s.bankValid n b then
    let p := s.pipe n
    let s := ((s.put (F.RP_CTRL_EN n) 1).put (F.RP_STAT_STATE n) rpIdle).put (F.RP_STAT_ACTIVE_BANK n) b
    s.setPipe n { p with epoch := p.epoch + 1, lastEpoch := none, commits := [] }
  else ((s.put (F.RP_CTRL_EN n) 1).flag (F.RP_STAT_CFG_ERR n)).logErr (siteRp n) 0x01 0x001

/-- A DRAINING pipe with nothing left is DISABLED, raising event 4 (R114). -/
def State.drained (s : State) (n : Nat) : State :=
  let s := (s.pipeOff n).rpEvent n 4
  if s.on (F.RP_CTRL_EN n) then s.pipeStart n else s

/-- The lines that a pipe keeps (R94): up to 16; a launch beyond waits at its door until one of them is finished (DESIGN CHOICE,
assumption 96: the manual states no outcome for it). -/
def State.showQueue (s : State) (n : Nat) : State := s.put (F.RP_STAT_QUEUED n) (min 16 (s.pipe n).queue.length)

/-- The pipe's state after its queue has changed (R114). -/
def State.settleQueue (s : State) (n : Nat) : State :=
  let s := s.showQueue n
  if (s.pipe n).queue = [] then
    let st := s.pipeState n
    if st = rpRendering then s.put (F.RP_STAT_STATE n) rpIdle
    else if st = rpDraining then s.drained n
    else s
  else s

/-- A line is finished, rendered and committed: its flagged heads join the runs, its slack is noted with its final T_k, and
it leaves the queue (R110, R114, R120). -/
def State.finishLine (s : State) (n : Nat) (q : QLine) (word : Nat) : State :=
  let p := s.pipe n
  let runs := q.flags.foldl (fun runs e => joinRun runs {
    code := e.1, k := q.k, pos := q.pos, tk := q.tk, tag := e.2.2, heads := e.2.1 }) p.runs
  let s := s.setPipe n { p with runs := runs, queue := p.queue.filter fun (u : QLine) => u.k != q.k }
  ((s.noteSlack n q.tk word).settlePipe n q.k).settleQueue n

/-- The render of a line that started at `t` ends (R93, R109–R111, R132–R135, R149–R151); the last packed word leaves within 160 PIX
cycles of it (R116). -/
def State.renderEnd (s : State) (n : Nat) (q : QLine) (t : Nat) : State :=
  let b := q.bank
  let line := s.atLine n
  let (vals, s) := s.compose n q
  let p := s.pipe n
  let read := fun (x : Nat) => t + 4 * (x % line.seg n b + Config.ntReadLag % 25)
  let pix := vals.mapIdx fun x v => line.screenPixel p n b q.k x (read x) v
  let s := s.reportCells n q t pix
  let rightFirst := q.k % 2 == 1 && line.on (F.RP_BANK_COMP_ALT n b)
  let (dots, c) := compensate .dropped (pix.map fun x => (x, pixFate (line.on (F.RP_BANK_COMP_EN n b)) rightFirst x))
  let s := (s.bump (F.RP_COMP_NEIGH n) c.neigh).bump (F.RP_COMP_REDUND n) c.redund
  let s := (s.bump (F.RP_COMP_LOST n) c.lost).bump (F.RP_COMP_CLIPPED n) c.clipped
  let flagged := s.flagged pix fun l => l != []
  let s := if flagged = [] then s else s.bump (F.RP_SUPPRESSED n)
  let flags := dataCauses.filterMap fun c =>
    let heads := s.flagged pix fun l => l.contains c
    let span := line.headSpan n b heads
    if heads = [] then none else some (errCode 0x04 0x02 n c, heads, { q.tag with x0 := span.1, x1 := span.2 })
  let (v, s) := s.draw
  let word := t + 4 * (line.seg n b + 24) + 4 * (v.toNat % 161)
  let q := { q with word := some word, flags := flags }
  let p := s.pipe n
  let s := s.setPipe n { p with
    queue := p.queue.map fun (u : QLine) => if u.k = q.k then q else u, busyAt := none, ntLog := [] }
  let s := ((s.bump (F.RP_LINES_DONE n)).tally 0x04 n 0).pack n q dots flagged
  if q.committed then s.finishLine n q word else s

def execLineRenderEnd (dt : Nat) (n : Fin 8) (s : State) : Res :=
  evCmd dt (fun s => (s.renderedLine n).isSome) (fun s =>
    match s.renderedLine n with
    | some (q, t) => s.renderEnd n q t
    | none => s) s

/-! ### Retiring snapshots (R101) -/

/-- Whether the oldest snapshot's last line is over: a later snapshot of its binding has replaced it, or the
pipe has gone to another bank or to DISABLED, and no line before that is still to be rendered with it. -/
def State.retirable (s : State) (n : Nat) : Bool :=
  match (s.pipe n).unretired.head? with
  | some (_, some k) => (s.pipe n).queue.all fun q => q.word.isSome || q.fetchedAt.isNone || decide (k ≤ q.k)
  | _ => false

/-- The oldest snapshot retires (R101, R118). -/
def State.retireSnap (s : State) (n : Nat) : State :=
  let p := s.pipe n
  let s := (s.setPipe n { p with unretired := p.unretired.drop 1 }).bump (F.RP_SNAP_RETIRED n)
  if s.get (F.RP_SNAP_RETIRED n) = s.get (F.RP_SNAP_WATCH n) then s.rpEvent n 5 else s

def execSnapshotRetire (dt : Nat) (n : Fin 8) (s : State) : Res :=
  evCmd dt (fun s => s.retirable n) (fun s => s.retireSnap n) s

/-! ### Enable and disable (R112, R114) -/

def State.pipeEnable (s : State) (n : Nat) : State :=
  let st := s.pipeState n
  if st = rpDisabled then s.pipeStart n else s.put (F.RP_CTRL_EN n) 1

def execPipeEnable (dt : Nat) (who : Requester) (n : Fin 8) (s : State) : Res :=
  regCmd dt who (O.RP_CTRL n) (fun s => s.pipeEnable n) s

/-- A line that will never be committed leaves the heads that hold its packed data: it is not fired, with no report of the FTU. -/
def State.withdrawLine (s : State) (n k : Nat) : State :=
  (s.ftu.heads.map (·.1)).foldl (fun s x =>
    (((s.head x).lines.filter fun l => l.pipe == n && l.k == k).foldl (fun (s : State) l =>
      let s := s.notFired x l
      if l.sent then s.noFire x else s) s)) s

/-- Lines launched and not committed leave the queue, the one in the render with them; those rendered leave the heads. -/
def State.dropLines (s : State) (n : Nat) (gone : QLine → Bool) : State :=
  let p := s.pipe n
  let running := match p.toRender with
    | some q => gone q
    | none => false
  let s := s.setPipe n { p with
    queue := p.queue.filter (fun u => !gone u), busyAt := if running then none else p.busyAt }
  (p.queue.filter gone).foldl (fun s q => (if q.word.isSome then s.withdrawLine n q.k else s).dropsLostLine n q.k) s

/-- EN falls (R114): lines launched and not committed are dropped; a rendering pipe drains. A launch of the same PIX cycle is
dropped too (R115). -/
def State.pipeDisable (s : State) (n : Nat) : State :=
  let s := s.put (F.RP_CTRL_EN n) 0
  let p := s.pipe n
  let st := s.pipeState n
  let s := if st = rpIdle || st = rpRendering then s.setPipe n { p with fellAt := some s.now } else s
  if st = rpIdle then s.pipeOff n
  else if st = rpRendering then
    let s := s.bump (F.RP_DROPPED n) (p.queue.filter fun q => !q.committed).length
    ((s.dropLines n fun q => !q.committed).put (F.RP_STAT_STATE n) rpDraining).settleQueue n
  else s

def execPipeDisable (dt : Nat) (who : Requester) (n : Fin 8) (s : State) : Res :=
  regCmd dt who (O.RP_CTRL n) (fun s => s.pipeDisable n) s

def execSlackRst (dt : Nat) (who : Requester) (n : Fin 8) (s : State) : Res :=
  regCmd dt who (O.RP_CTRL n) (fun s => s.put (F.RP_MIN_SLACK n) 0xFFFFFFFF) s

/-! ### What the generators tell a pipe (R91, R94–R97) -/

/-- A launch reaches the pipe (R94, R118). -/
def State.rpLaunch (s : State) (n k pos tk : Nat) : State :=
  let st := s.pipeState n
  if st = rpIdle || st = rpRendering then
    let p := s.pipe n
    let b := s.get (F.RP_STAT_ACTIVE_BANK n)
    let q : QLine := { k := k, pos := pos, tk := tk, bank := b, epoch := p.epoch, tag := s.printTag n b k [] }
    let s := (s.setPipe n { p with queue := p.queue ++ [q] }).put (F.RP_STAT_STATE n) rpRendering
    let s := (s.showQueue n).prefetch n
    if s.get (F.RP_MARK_LINE n) = k then s.rpEvent n 6 else s
  else
    match (s.pipe n).fellAt with
    | some t => if t / 4 = s.now / 4 then s.bump (F.RP_DROPPED n) else s
    | none => s

/-- Heads of a record about a line or span as a whole, as a run of its own. -/
def State.issueSpan (s : State) (n b k pos lastPos tk cause : Nat) (heads : List Nat) : State :=
  s.issuePipeRun n {
    code := errCode 0x04 0x03 n cause, heads := heads, first := k, last := k, lastPos := lastPos, pos := pos,
    tk := tk, tag := s.printTag n b k heads }

/-- A line whose render has not started at its commit is skipped (R95). -/
def State.skipLine (s : State) (n : Nat) (q : QLine) : State :=
  let fast := s.on F.WTU_STATUS_OVER_LIMIT
  let s := ((s.bump (F.RP_SKIPPED n)).tally 0x04 n 1).rpEvent n 1
  let s := if fast then s else
    (s.logErr (siteRp n) 0x03 0x020 [q.k % 2 ^ 32, q.k / 2 ^ 32]).issueSpan n q.bank q.k q.pos q.pos q.tk 0x020
      (s.lineHeads n q.bank q.k)
  let p := s.pipe n
  let s := s.setPipe n { p with queue := p.queue.filter fun (u : QLine) => u.k != q.k }
  ((s.skipNotice n q fast).settlePipe n q.k).settleQueue n

/-- The commit of line `k` reaches the pipe (R95), with its final T_k. -/
def State.rpCommit (s : State) (n k tk : Nat) : State :=
  let p := s.pipe n
  let started := p.busyAt.isSome && (p.toRender.map (·.k)) == some k
  match p.queue.find? fun q => q.k == k && !q.committed with
  | some q =>
    let q := { q with committed := true, tk := tk }
    match q.word with
    | some word => s.finishLine n q word
    | none =>
      if started then s.setPipe n { p with queue := p.queue.map fun (u : QLine) => if u.k = k then q else u }
      else s.skipLine n q
  | none => s

/-- A missed-span notice (R97): the lines of the span are never rendered, and one data-path defect covers it. The
manual gives no T_k for a line that was never launched, so the record's Tempo is free. -/
def State.rpMissed (s : State) (n k0 k1 pos0 pos1 : Nat) : State :=
  if s.pipeState n = rpDisabled then s
  else
    let inSpan := fun (u : QLine) => k0 ≤ u.k && u.k ≤ k1 && !u.committed
    let s := s.dropLines n inSpan
    let b := s.activeBank n
    let (v, s) := s.draw
    let heads := (s.bankHeads n b).map (·.1)
    let s := s.issueSpan n b k0 pos0 pos1 v.toNat 0x021 heads
    ((s.logErr (siteRp n) 0x03 0x021 [k0 % 2 ^ 32, k0 / 2 ^ 32]).rpEvent n 2).settleQueue n

end Sys2Proof.Machine
end

