-- ==== Sys2Proof/Machine/Rru.lean ====
section
/-! DEFINITION. The Reference Render Unit (09 R240–R245, R261, R262). -/

namespace Sys2Proof.Machine

/-- The states of the IPL and of the RRU (R262). -/
def unitDisabled : Nat := 0
def unitRunning : Nat := 1
def unitDraining : Nat := 2

/-- The active bank of the IPL and of the RRU: BANK_SEL while DISABLED. -/
def State.iplBank (s : State) : Nat :=
  if s.get F.IPL_STAT_STATE = unitDisabled then s.get F.IPL_CTRL_BANK_SEL else s.get F.IPL_STAT_ACTIVE_BANK

def State.rruBank (s : State) : Nat :=
  if s.get F.RRU_STAT_STATE = unitDisabled then s.get F.RRU_CTRL_BANK_SEL else s.get F.RRU_STAT_ACTIVE_BANK

/-- CHANNELS (R239). -/
def State.channels (s : State) : Nat := s.get F.IPL_CTRL_CH_M1 + 1

/-- The render pipe and bank that a channel names (R241). -/
def State.refPipe (s : State) (b c : Nat) : Nat := s.get (F.RRU_BANK_CH_CFG_PIPE b c)
def State.refBank (s : State) (b c : Nat) : Nat := s.get (F.RRU_BANK_CH_CFG_PBANK b c)

/-- y of the bar line that lay under the bar where a stitched line at `pos` (2^-16 nm) lies (R241). -/
def State.refY (s : State) (b c pos : Nat) : Option Nat :=
  let w : Int := (pos : Int) - ((2 ^ 16 * s.get (F.RRU_BANK_CH_DIST b c) : Nat) : Int)
  let o : Int := ((2 ^ 16 * s.get (F.RRU_BANK_CH_ORIGIN b c) : Nat) : Int)
  if w < o then none else some ((w - o) / ((s.get (F.RRU_BANK_CH_PITCH b c) : Nat) : Int)).toNat

/-- x of stitched pixel `u` (R241). -/
def State.refX (s : State) (b c u : Nat) : Int :=
  (s.getInt (F.RRU_BANK_CH_XORG b c) + ((u * s.get (F.RRU_BANK_CH_XSTEP b c) : Nat) : Int)) / 2 ^ 16

/-- The generator line whose job line is `y` in the channel's pipe bank (R241). -/
def State.refLine (s : State) (b c y : Nat) : Nat :=
  (s.get (F.RP_BANK_LINE0 (s.refPipe b c) (s.refBank b c)) + y) % 2 ^ 64

/-- The bar pixels that the stitched line touches, clipped to the bar (R241, R242). -/
def State.refSpan (s : State) (b c : Nat) : Option (Nat × Nat) :=
  let lo := max 0 (s.refX b c 0)
  let hi := min ((s.width (s.refPipe b c) (s.refBank b c) - 1 : Nat) : Int) (s.refX b c (s.stWidth - 1))
  if lo ≤ hi then some (lo.toNat, hi.toNat) else none

/-- How the RRU fetches for a binding of stitched line `k`. -/
def rruFetcher (j k job : Nat) : Fetcher :=
  { site := siteRru, corr := F.RRU_ECC_CORR, fills := F.RRU_INVALID_FILLS, binding := j, k := k, job := job }

def rruSnap (l : List (Nat × Option (Nat × Snap))) (i : Nat) : Option (Nat × Snap) := Sparse.get (fun _ => none) l i

/-- Snapshots that no line can still use retire, in the order they were taken (R101, R244). -/
def State.rruRetire (s : State) : State :=
  let ids := fun (l : List (Nat × Option (Nat × Snap))) => l.filterMap fun p => p.2.map (·.1)
  let live := ids s.rru.snaps ++ s.rru.busy.flatMap fun r => ids r.snaps
  let out := s.rru.unretired.takeWhile fun i => !live.contains i
  out.foldl (fun s _ =>
    let s := s.bump F.RRU_SNAP_RETIRED
    if s.get F.RRU_SNAP_RETIRED = s.get F.RRU_SNAP_WATCH then s.raise (256 + 59) else s)
    { s with rru := { s.rru with unretired := s.rru.unretired.drop out.length } }

/-- A snapshot for channel `c`, binding `j` at the start of a reference line, where the tile row or bank is new
(R244). -/
def State.rruSnapOne (s : State) (r : RefLine) (c j : Nat) : State :=
  let n := s.refPipe r.bank c
  let b := s.refBank r.bank c
  match s.refY r.bank c r.pos, s.refSpan r.bank c, s.on (F.RP_BANK_BIND_CFG_EN n b j) with
  | some y, some (x0, x1), true =>
    let line := s.refLine r.bank c y
    let row := s.bindY n b j line / s.tileH n b j
    let same := match rruSnap s.rru.snaps (4 * c + j) with
      | some p => p.2.row == row
      | none => false
    if same then s
    else
      let (sn, s) := s.snapshot (rruFetcher j r.k line) n b j x0 x1
      let s := s.bump F.RRU_SNAP_TAKEN
      let id := s.get F.RRU_SNAP_TAKEN
      { s with rru := { s.rru with
          snaps := Sparse.set (fun _ => none) s.rru.snaps (4 * c + j) (some (id, sn)),
          unretired := s.rru.unretired ++ [id] } }
  | _, _, _ => s

/-- Reference line `r` is started (R240, R244): in a new bank no snapshot of the old one serves a later line. -/
def State.refStart (s : State) (r : RefLine) : State :=
  let fresh := s.rru.lastBank != some r.bank
  let s := { s with rru := { s.rru with queue := s.rru.queue.drop 1, lastBank := some r.bank } }
  let s := if fresh then { s with rru := { s.rru with snaps := [] } } else s
  let s := (List.range s.channels).foldl (fun s c => (List.range 4).foldl (fun s j => s.rruSnapOne r c j) s) s
  { s with rru := { s.rru with busy := s.rru.busy ++ [{ r with snaps := s.rru.snaps }] } }.rruRetire

/-- The line that may start: the next one launched, with a free place of the two (R240). -/
def State.refReady (s : State) : Option RefLine :=
  if s.get F.RRU_STAT_STATE = unitRunning && s.rru.busy.length + s.rru.done.length < 2 then s.rru.queue.head? else none

def execReferenceLineStart (dt : Nat) (s : State) : Res :=
  evCmd dt (fun s => s.refReady.isSome) (fun s =>
    match s.refReady with
    | some r => s.refStart r
    | none => s) s

/-- CURVE of a tone value (R242). -/
def State.curve (s : State) (b c v : Nat) : Nat :=
  let w := s.word (0x00404000 + b * 0x1000 + c * 0x200 + v / 2 * 4)
  if v % 2 = 0 then bits w 11 0 else bits w 27 16

/-- The reference of a channel over the line (R241, R242): none where void. -/
def State.refChannel (s : State) (r : RefLine) (c : Nat) : List (Option Nat) × State :=
  let us := List.range s.stWidth
  let n := s.refPipe r.bank c
  let b := s.refBank r.bank c
  match s.refY r.bank c r.pos with
  | none => (us.map (fun _ => none), s)
  | some y =>
    let line := s.refLine r.bank c y
    let xs := us.map fun u => s.refX r.bank c u
    let inside := fun (x : Int) => decide (0 ≤ x) && decide (x < (s.width n b : Int))
    let (vals, s) := (List.range 4).foldl (fun (a : List (Nat × List Nat) × State) j =>
      match a.2.on (F.RP_BANK_BIND_CFG_EN n b j), rruSnap r.snaps (4 * c + j) with
      | true, some (_, sn) =>
        let srcs := xs.map fun x => (x.toNat, if inside x then a.2.source sn n b j line x.toNat else .outside)
        let (bad, s) := a.2.fetch (rruFetcher j r.k line) srcs
        ((a.1.zip srcs).map (fun p => s.layer n b j bad p.2.2 p.1), s)
      | _, _ => a) (us.map (fun _ => (0, [])), s)
    ((xs.zip vals).map fun p =>
      if !inside p.1 then some 0
      else if p.2.2 != [] then none
      else some (s.curve r.bank c (s.tone n b p.2.1)), s)

/-- The RRU enters DISABLED (R262). -/
def State.rruOff (s : State) : State :=
  { s.put F.RRU_STAT_STATE unitDisabled with
    rru := { s.rru with queue := [], busy := [], done := [], snaps := [], lastBank := none } }.rruRetire

/-- Whether a bank of the RRU is valid (R261). -/
def State.rruBankValid (s : State) (b : Nat) : Bool :=
  (List.range s.channels).all fun c =>
    s.on (F.RRU_BANK_CH_CFG_EN b c) && s.get (F.RRU_BANK_CH_PITCH b c) != 0
      && s.get (F.RRU_BANK_CH_XSTEP b c) != 0 && s.on (F.RP_BANK_BIND_CFG_EN (s.refPipe b c) (s.refBank b c) 0)

/-- An enable of the RRU while DISABLED (R261, R262): refused, it stays DISABLED with EN as written (R8). -/
def State.rruStart (s : State) : State :=
  let b := s.get F.RRU_CTRL_BANK_SEL
  if s.rruBankValid b then
    ((s.put F.RRU_CTRL_EN 1).put F.RRU_STAT_STATE unitRunning).put F.RRU_STAT_ACTIVE_BANK b
  else ((s.put F.RRU_CTRL_EN 1).flag F.RRU_STAT_CFG_ERR).logErr siteRru 0x01 0x001

/-- A DRAINING RRU with no line under way is DISABLED, raising event 58. -/
def State.rruSettle (s : State) : State :=
  if s.get F.RRU_STAT_STATE = unitDraining && s.rru.busy = [] then
    let s := s.rruOff.raise (256 + 58)
    if s.on F.RRU_CTRL_EN then s.rruStart else s
  else s

/-- The oldest reference line under way is complete (R240). -/
def State.refComplete (s : State) (r : RefLine) : State :=
  let (vals, s) := (List.range s.channels).foldl (fun (a : List (List (Option Nat)) × State) c =>
    let (v, s) := a.2.refChannel r c
    (a.1 ++ [v], s)) ([], s)
  let s := { s with rru := { s.rru with busy := s.rru.busy.drop 1, done := s.rru.done ++ [(r.k, vals)] } }
  ((s.put F.RRU_LINE r.k).tally 0x04 8 0).rruRetire.rruSettle

def execReferenceLineComplete (dt : Nat) (s : State) : Res :=
  evCmd dt (fun s => s.rru.busy != []) (fun s =>
    match s.rru.busy with
    | r :: _ => s.refComplete r
    | [] => s) s

/-- EN rises (R262). -/
def State.rruEnable (s : State) : State :=
  if s.get F.RRU_STAT_STATE = unitDisabled then s.rruStart else s.put F.RRU_CTRL_EN 1

def execRruEnable (dt : Nat) (who : Requester) (s : State) : Res := regCmd dt who O.RRU_CTRL State.rruEnable s

/-- EN = 0 written to the RRU (R262). -/
def State.rruDisable (s : State) : State :=
  if s.get F.IPL_STAT_STATE != unitDisabled then (s.flag F.RRU_STAT_CFG_ERR).logErr siteRru 0x01 0x001 []
  else
    let s := s.put F.RRU_CTRL_EN 0
    if s.get F.RRU_STAT_STATE = unitRunning then
      { s.put F.RRU_STAT_STATE unitDraining with rru := { s.rru with queue := [], done := [] } }.rruSettle
    else s

def execRruDisable (dt : Nat) (who : Requester) (s : State) : Res :=
  regCmd dt who O.RRU_CTRL (fun s => s.rruDisable) s

/-- A launch of line `k` at `pos` reaches the RRU (R240). -/
def State.rruLaunch (s : State) (k pos : Nat) : State :=
  if s.get F.RRU_STAT_STATE = unitRunning then
    { s with rru := { s.rru with
        queue := s.rru.queue ++ [{ k := k, pos := pos, bank := s.get F.RRU_STAT_ACTIVE_BANK }] } }
  else s

/-- Reference lines for which no stitched line forms are discarded (R240). -/
def State.rruForget (s : State) (gone : Nat → Bool) : State :=
  { s with rru := { s.rru with
      queue := s.rru.queue.filter fun r => !gone r.k,
      busy := s.rru.busy.filter fun r => !gone r.k,
      done := s.rru.done.filter fun p => !gone p.1 } }.rruRetire.rruSettle

/-- The reference of stitched line `k`, consumed; a line that is not complete is abandoned and counted late, and
every pixel of it is void (R240). -/
def State.rruTake (s : State) (k : Nat) : Option (List (List (Option Nat))) × State :=
  match s.rru.done.find? fun p => p.1 == k with
  | some p => (some p.2, s.rruForget fun j => decide (j ≤ k))
  | none =>
    let s := s.rruForget fun j => decide (j ≤ k)
    (none, (((s.bump F.RRU_LATE).tally 0x04 8 1).logErr siteRru 0x03 0x020 [k % 2 ^ 32, k / 2 ^ 32]).raise (256 + 56))

end Sys2Proof.Machine
end

