-- ==== Sys2Proof/Machine/MemCtl.lean ====
section
/-! DEFINITION. The memory controllers (15): opening, slot tables and arbitration, rows and refresh, training and fencing;
and the service levels, which follow the fenced channels (19). -/

namespace Sys2Proof.Machine

/-! ### Service levels (R542) -/

/-- Whether the unit with a block identifier passed its built-in check (R534, R542). -/
def State.unitOk (s : State) (b : Nat) : Bool := !s.boot.failedUnits.getLsbD b

/-- The physical channels that the channel map names (R406). -/
def State.mapped (s : State) : List Nat :=
  (List.range (2 ^ s.chLog2)).map fun j => s.get F.MEM_CHMAP_LIST / 2 ^ (4 * j) % 16

/-- The channel states (R407). -/
def mcReset : Nat := 0
def mcTraining : Nat := 1
def mcReady : Nat := 2
def mcRetraining : Nat := 3
def mcFenced : Nat := 4

def State.mcState (s : State) (n : Nat) : Nat := s.get (F.MC_STAT_STATE n)

/-- The service bits (R542): MANAGEMENT, MEMORY, INSPECT, PRINT and FULL. A boot sequence that ended FAILED leaves no more than
the first two (R535, R538). -/
def State.service (s : State) : Nat :=
  let ok := fun (l : List Nat) => l.all s.unitOk
  let l0 := ok [1]
  let l1 := l0 && ok [14] && s.on F.MEM_CTRL_OPEN && 2 ≤ (s.mapped.filter fun n => s.mcState n != mcFenced).length
  let l2 := l1 && ok [2, 7, 8, 4, 9, 15]
  let l3 := l1 && ok [2, 3, 4, 5, 15]
  let l4 := l2 && l3 && ok [6, 11, 12]
  b2n l0 + 2 * b2n l1 + if s.boot.step = 8 then 0 else 4 * b2n l2 + 8 * b2n l3 + 16 * b2n l4

def State.setService (s : State) : State := s.put F.SEC_BOOT_STAT_SERVICE s.service

/-- The boot sequence ends FAILED (R534), with a boot cause of the SEC (R548). -/
def State.bootFail (s : State) (cls cause detail : Nat) : State :=
  let s := s.logErr siteSec cls cause [s.get F.SEC_BOOT_STAT_STAGE, detail]
  { s.put F.SEC_BOOT_STAT_STAGE 6 with boot := { s.boot with step := 8 } }.setService.raise (64 + 3)

/-! ### Channel states (R405, R407) -/

/-- A channel enters a state: outside READY it is not in self-refresh (R407), and a change of the fenced channels recomputes
SERVICE (R542, R551). -/
def State.setMcState (s : State) (n st : Nat) : State :=
  let f := s.get F.MEM_STAT_FENCED
  let was := bit f n
  let f' := if st = mcFenced then f ||| 2 ^ n else if was then f - 2 ^ n else f
  let s := (s.put (F.MC_STAT_STATE n) st).put F.MEM_STAT_FENCED f'
  let s := if st = mcReady then s else s.put (F.MC_STAT_SR n) 0
  if f' != f then s.setService else s

/-- MEM event `i` (R418). -/
def State.memEvent (s : State) (i : Nat) : State := s.raise (896 + i)

/-- A channel is fenced (R405, R407). -/
def State.fence (s : State) (n : Nat) : State :=
  let s := s.setChan n { s.chan n with fencedLogged := false }
  ((s.setMcState n mcFenced).logErr (siteMem n) 0x04 0x041 []).memEvent n

/-- A training or retrain ends with a new setting (R404, R421). -/
def State.trained (s : State) (n : Nat) (e : TrainEyes) : State :=
  let s := (s.put (F.MC_STAT_LAST_GOOD n) 1).bump (F.MC_TRAIN_COUNT n)
  let s := s.put (F.MC_LAST_TRAIN n) (s.tempoCopy .mem)
  let s := (s.put (F.MC_TRAIN_MARGIN_RD_EYE n) e.rd.toNat).put (F.MC_TRAIN_MARGIN_WR_EYE n) e.wr.toNat
  (s.put (F.MC_TRAIN_MARGIN_CA_EYE n) e.ca.toNat).setMcState n mcReady

/-- No working setting is found, and the channel keeps its last good one (R405). -/
def State.trainFailed (s : State) (n : Nat) : State :=
  let s := (s.flag (F.MC_STAT_RETRAIN_FAIL n)).bump (F.MC_TRAIN_FAILS n)
  ((s.setMcState n mcReady).logErr (siteMem n) 0x04 0x040 []).memEvent n

/-! ### Opening the memory (R399, R406, R535, R578) -/

/-- OPEN is written: the map must name no channel twice and no FENCED one. -/
def State.memOpen (s : State) : State :=
  if s.on F.MEM_CTRL_OPEN then s
  else if noRepeat s.mapped && s.mapped.all (fun n => s.mcState n != mcFenced) then s.put F.MEM_CTRL_OPEN 1
  else s.logErr (siteMem 0) 0x01 0x001 []

def execMemOpen (dt : Nat) (who : Requester) (s : State) : Res := regCmd dt who O.MEM_CTRL State.memOpen s

/-- The boot ROM's channel map (R535): with fewer than 16 READY channels, the largest power of two of them. -/
def State.bootMap (s : State) : State :=
  let ready := (List.range 16).filter fun n => s.mcState n == mcReady
  let mask := ready.foldl (fun (m n : Nat) => m + 2 ^ n) 0
  let s := s.put F.SEC_BOOT_STAT_CH_READY mask
  if ready.length = 16 then s
  else if ready.length < 2 then s.bootFail 0x06 0x032 mask
  else
    let m := Nat.log2 ready.length
    let list := (ready.take (2 ^ m)).foldr (fun (n acc : Nat) => n + 16 * acc) 0
    let s := (s.put F.MEM_CHMAP_CH_LOG2 m).put F.MEM_CHMAP_LIST list
    s.logErr siteSec 0x06 0x032 [s.get F.SEC_BOOT_STAT_STAGE, mask]

/-- Boot training ends (R404): every channel is READY or FENCED. -/
def State.bootTrained (s : State) (found : List (Option TrainEyes)) : State :=
  let s := (List.range 16).foldl (fun s n =>
    match found.getD n none with
    | some e => (s.trained n e).setChan n { s.chan n with trackAt := s.now }
    | none => s.fence n) s
  (s.put F.MEM_STAT_INIT_DONE 1).bootMap

def execBootTrainingEnd (dt : Nat) (found : List (Option TrainEyes)) (s : State) : Res :=
  evCmd dt (fun s => s.boot.step == 4 && !s.on F.MEM_STAT_INIT_DONE) (fun s => s.bootTrained found) s

/-- The boot zeroing ends (R578): every block of memory holds zeros with valid check bits. -/
def State.memZeroed (s : State) : State := { s with mem := { s.mem with zeroed := true, bytes := [], flaws := [] } }

def execMemoryZeroingEnd (dt : Nat) (s : State) : Res :=
  evCmd dt (fun s => s.boot.step == 4 && s.on F.MEM_STAT_INIT_DONE && s.on F.MEM_CTRL_ECC_EN && !s.on F.MEM_CTRL_OPEN)
    State.memZeroed s

/-! ### Retrain and full training (R404, R405, R407) -/

/-- A retrain is asked for: READY starts one, RETRAINING notes a further one, and FENCED starts full training. -/
def State.retrain (s : State) (n : Nat) : State :=
  let st := s.mcState n
  if st = mcReady then (s.setChan n { s.chan n with steps := 0, again := false }).setMcState n mcRetraining
  else if st = mcRetraining then s.setChan n { s.chan n with again := true }
  else if st = mcFenced then s.setMcState n mcTraining
  else s

def execRetrain (dt : Nat) (who : Requester) (n : Fin 16) (s : State) : Res :=
  regCmd dt who (O.MC_CTRL n) (fun s => s.retrain n) s

/-- Tempo units between retrain steps (10 µs) and in a millisecond. -/
def stepSpacing : Nat := 40000
def milli : Nat := 4000000

/-- One retrain step (R404), which closes the channel for a free time of at most 250 ns; the 96th ends the retrain with the setting found,
if any, and a further request starts the next one. -/
def State.retrainStep (s : State) (n : Nat) (found : Option TrainEyes) : State :=
  let (v, s) := s.draw
  let c := { s.chan n with closedTo := s.now + v.toNat % 1001 }
  if c.steps + 1 < 96 then s.setChan n { c with steps := c.steps + 1, stepAt := some s.now }
  else
    let s := s.setChan n { c with steps := 0, stepAt := some s.now, again := false }
    let s := match found with
      | some e => s.trained n e
      | none => s.trainFailed n
    if c.again then s.retrain n else s

def execRetrainStep (dt : Nat) (n : Fin 16) (found : Option TrainEyes) (s : State) : Res :=
  evCmd dt (fun s => s.mcState n == mcRetraining && match (s.chan n).stepAt with
    | some t => decide (t + stepSpacing ≤ s.now)
    | none => true) (fun s => s.retrainStep n found) s

/-- FENCE is written (R407). -/
def State.fenceNow (s : State) (n : Nat) : State := if s.mcState n = mcReady then s.fence n else s

def execChannelFence (dt : Nat) (who : Requester) (n : Fin 16) (s : State) : Res :=
  regCmd dt who (O.MC_CTRL n) (fun s => s.fenceNow n) s

/-- The content of a channel becomes undefined (R578): what was stored in it no longer stands. -/
def State.forgetChannel (s : State) (n : Nat) : State :=
  let s := { s with mem := { s.mem with
    bytes := s.mem.bytes.filter fun p => s.channelOf p.1 != n,
    flaws := s.mem.flaws.filter fun p => s.channelOf (64 * p.1) != n } }
  s.setChan n { s.chan n with gen := (s.chan n).gen + 1, trackAt := s.now }

/-- Full training from FENCED ends (R405, R407, R578). -/
def State.fencedTrained (s : State) (n : Nat) (found : Option TrainEyes) : State :=
  match found with
  | some e => (s.forgetChannel n).trained n e
  | none => if s.on (F.MC_STAT_LAST_GOOD n) then (s.forgetChannel n).trainFailed n else s.fence n

def execFencedTrainingEnd (dt : Nat) (n : Fin 16) (found : Option TrainEyes) (s : State) : Res :=
  evCmd dt (fun s => s.mcState n == mcTraining && s.on F.MEM_STAT_INIT_DONE) (fun s => s.fencedTrained n found) s

/-- A tracking window (R404): a drift of more than 8 delay steps starts a retrain. -/
def execTrackingWindow (dt : Nat) (n : Fin 16) (drift : BitVec 8) (s : State) : Res :=
  evCmd dt (fun s =>
      let p := s.get F.MEM_TRAIN_TRACK_PERIOD
      s.mcState n == mcReady && p != 0 && decide ((s.chan n).trackAt + p * milli ≤ s.now))
    (fun s =>
      let s := s.setChan n { s.chan n with trackAt := s.now }
      if 8 < drift.toNat then s.retrain n else s) s

/-! ### Slot tables and arbitration (R408–R415) -/

def execSlotSwap (dt : Nat) (who : Requester) (s : State) : Res :=
  regCmd dt who O.MEM_CTRL (fun s => s.put F.MEM_STAT_SWAP_PEND 1) s

/-- The requested swap takes effect at a table wrap (R410). The phase of the wraps is not specified, so any moment from the
request on may be one. -/
def execSlotTableSwap (dt : Nat) (s : State) : Res :=
  evCmd dt (fun s => s.on F.MEM_STAT_SWAP_PEND) (fun s =>
    ((s.put F.MEM_STAT_ACTIVE_COPY (1 - s.get F.MEM_STAT_ACTIVE_COPY)).put F.MEM_STAT_SWAP_PEND 0).memEvent 16) s

/-- The number of the slot at Tempo `t`, counted from the device reset (R408): a slot is 12 Tempo units. -/
def State.slotAt (s : State) (t : Nat) : Nat := (t + Config.slotPhase s.mem.resets) / 12

/-- The number of the slot under way. -/
def State.slotNumber (s : State) : Nat := s.slotAt s.now

/-- The owner of a slot in the active table (R409). -/
def State.slotOwner (s : State) (i : Nat) : Option Nat :=
  let p := if s.on F.MEM_STAT_ACTIVE_COPY then s.get (F.MEM_SLOT_COPYB_PORT i) else s.get (F.MEM_SLOT_PORT i)
  if p < 28 then some p else none

/-- The winner of an open slot among the requesting ports (R411): the highest PRIO, then the first after that level's
pointer in ascending cyclic order. -/
def State.winner (s : State) (c : MemChan) (req : List Nat) : Option Nat :=
  let prio := fun (p : Nat) => s.get (F.MEM_PORT_CFG_PRIO p)
  let top := (req.map prio).max?.getD 0
  let level := req.filter fun p => prio p == top
  let ptr : Option Nat := Sparse.get (fun _ => none) c.pointers top
  match ptr with
  | some q => (level.find? fun p => q < p).or level.head?
  | none => level.head?

/-- A grant is made to port `p` (R415): its wait is counted. -/
def State.grant (s : State) (n p : Nat) : State :=
  let c := s.chan n
  let since := ((c.waiting.find? fun r => r.port == p).map (·.since)).getD s.now
  let waited := s.now - since
  let s := if s.on F.MEM_CTRL_COMPAT then s else s.bump (F.MEM_PORT_GRANTS p)
  let s := if s.slotAt since < s.slotNumber then s.bump (F.MEM_PORT_WAITS p) else s
  let s := s.put (F.MEM_PORT_MAX_WAIT p) (max (s.get (F.MEM_PORT_MAX_WAIT p)) (waited / 6))
  s.setChan n { c with grant := some (p, 0, s.now), waiting := c.waiting.filter fun r => r.port != p }

/-- The level's pointer names the winner (R411). -/
def State.pointTo (s : State) (n p : Nat) : State :=
  let c := s.chan n
  s.setChan n { c with pointers := Sparse.set (fun _ => none) c.pointers (s.get (F.MEM_PORT_CFG_PRIO p)) (some p) }

/-- The holder passes a request into the channel queue, or not; a full queue stops the hold limit's count (R411–R413). -/
def State.transfer (s : State) (n : Nat) (free passes : Bool) : State :=
  let c := s.chan n
  match c.grant with
  | none => s
  | some (p, k, t) =>
    if free && passes then
      let s := if s.on F.MEM_CTRL_COMPAT then s.bump (F.MEM_PORT_GRANTS p) else s
      s.setChan n { c with grant := some (p, k + 1, s.now) }
    else s.setChan n { c with grant := some (p, k, if free then t else s.now) }

/-- MEM_ARB.BURST as it acts. -/
def State.burst (s : State) : Nat := max 1 (s.get F.MEM_ARB_BURST)

/-- A slot that a retrain step closes: the requests wait, and the running grant passes nothing, for which the hold limit does not count. -/
def State.lostSlot (s : State) (n slot : Nat) (req : List Nat) : State :=
  let c := s.chan n
  let kept := c.waiting.filter fun r => req.contains r.port
  let held := c.grant.map (·.1)
  let fresh := req.filter fun p => held != some p && !kept.any fun r => r.port == p
  s.setChan n { c with
    lastSlot := some slot, waiting := kept ++ fresh.map fun (p : Nat) => { port := p, since := s.now }
    grant := c.grant.map fun g => (g.1, g.2.1, s.now) }

/-- One slot at a channel's ingress (R411). During a retrain step the slot is lost, and the requests wait (R404, R416). -/
def State.arbitrate (s : State) (n : Nat) (inp : SlotInput) : State :=
  let slot := s.slotNumber
  let req := (List.range 28).filter fun p => inp.requests.getLsbD p
  if s.now < (s.chan n).closedTo then s.lostSlot n slot req
  else
    let c := s.chan n
    let held := c.grant.map (·.1)
    let kept := c.waiting.filter fun r => req.contains r.port
    let owner := (s.slotOwner (slot % 128)).filter fun p => req.contains p && inp.reservedFree
    let runs := match c.grant with
      | some (p, k, _) => req.contains p && decide (k < s.burst) && !s.on F.MEM_CTRL_COMPAT
      | none => false
    let goesOn := fun (p : Nat) => held == some p && runs && (owner.isNone || owner == some p)
    let fresh := req.filter fun p => !goesOn p && !kept.any fun r => r.port == p
    let s := s.setChan n { c with
      lastSlot := some slot, waiting := kept ++ fresh.map fun (p : Nat) => { port := p, since := s.now } }
    match owner with
    | some p =>
      if held = some p && runs then s.transfer n inp.reservedFree inp.passes
      else (s.grant n p).transfer n inp.reservedFree inp.passes
    | none =>
      if runs then s.transfer n inp.queueFree inp.passes
      else
        let s := s.setChan n { s.chan n with grant := none }
        match s.winner (s.chan n) req with
        | some p => ((s.grant n p).pointTo n p).transfer n inp.queueFree inp.passes
        | none => s

def execArbitrationSlot (dt : Nat) (n : Fin 16) (inp : SlotInput) (s : State) : Res :=
  evCmd dt (fun s => (s.chan n).lastSlot != some s.slotNumber) (fun s => s.arbitrate n inp) s

/-- Whether a running grant has been idle for HOLD_LIMIT FLG cycles at the fastest FLG clock of 65 MHz (R412, R417), before this MEM cycle:
one whose burst ends in the cycle of the limit ends as a burst (R416). -/
def State.grantIdle (s : State) (n : Nat) : Bool :=
  match (s.chan n).grant with
  | some (_, k, t) =>
    (if s.on F.MEM_CTRL_COMPAT then k == 0 else decide (k < s.burst))
      && decide (max 1 (s.get F.MEM_ARB_HOLD_LIMIT) * 4000 ≤ (s.now / 6 * 6 - t) * 65)
  | none => false

/-- A grant is cut (R412). -/
def State.cutGrant (s : State) (n : Nat) : State :=
  match (s.chan n).grant with
  | some (p, _, _) =>
    let s := s.setChan n { s.chan n with grant := none }
    (((s.flag (F.MEM_PORT_CFG_HOLD_CUT p)).bump (F.MEM_PORT_HOLD_CUTS p)).logErr (siteMem n) 0x03 0x021 [p]).memEvent 18
  | none => s

def execGrantFlagFall (dt : Nat) (n : Fin 16) (s : State) : Res :=
  evCmd dt (fun s => s.grantIdle n) (fun s => s.cutGrant n) s

/-! ### Rows, activates and refresh (R400–R403) -/

/-- A read request of a port for one block (R396). -/
def State.portRead (s : State) (port d : Nat) (q : RowQueue) : State :=
  let (r, s) := (s.settle d 64).memGet port d 64 (some q)
  s.emit (.memData port d r)

def execMemoryRead (dt : Nat) (port : Fin 28) (blk : BitVec 32) (q : RowQueue) (s : State) : Res :=
  evCmd dt (fun _ => true) (fun s => s.portRead port (64 * blk.toNat) q) s

/-- The same, with its acknowledge. -/
def State.portWrite (s : State) (port d : Nat) (data : List (Option Byte)) (poison : Bool) (q : RowQueue) : State :=
  let (ok, s) := (s.settle d 64).writeEnabled port d data poison (some q)
  s.emit (.memAck port d ok)

def execMemoryWrite (dt : Nat) (port : Fin 28) (blk : BitVec 32) (data : List (Option Byte)) (poison : Bool) (q : RowQueue)
    (s : State) : Res :=
  evCmd dt (fun _ => true) (fun s => s.portWrite port (64 * blk.toNat) data poison q) s

/-- An open row with no access for OPEN_MAX MEM cycles is closed (R400); a MEM cycle is 6 Tempo units. -/
def execRowClose (dt : Nat) (n : Fin 16) (bank : Fin 32) (s : State) : Res :=
  evCmd dt (fun s =>
      let b := (s.chan n).bank bank
      b.openRow.isSome && decide (b.usedAt + 6 * max 1 (s.get F.MEM_PAGE_OPEN_MAX) ≤ s.now))
    (fun s =>
      let c := s.chan n
      s.setChan n (c.setBank bank { c.bank bank with openRow := none, hits := 0 })) s

/-- A per-bank refresh (R402): it keeps what the bank holds, and the PMU counts it (R520). -/
def execRefresh (dt : Nat) (n : Fin 16) (_bank : Fin 32) (s : State) : Res :=
  evCmd dt (fun s => s.mcState n == mcReady || s.mcState n == mcRetraining)
    (fun s => s.tally 0x0E n 4) s

/-- The refresh window in Tempo units (R402): 32 ms, or 16 ms while a die is hot. -/
def MemChan.window (c : MemChan) : Nat := if c.hot then 16 * milli else 32 * milli

/-- A refresh window ends (R403): every count clears. -/
def execRefreshWindowEnd (dt : Nat) (n : Fin 16) (s : State) : Res :=
  evCmd dt (fun s => decide ((s.chan n).winStart + (s.chan n).window ≤ s.now)) (fun s =>
    let c := s.chan n
    s.setChan n { c with winStart := s.now, oldActs := some (s.memCycle, c.acts),
                         acts := c.acts.map fun (a : Activate) => { a with count := 0 } }) s

/-- Whether the device is printing or inspecting (R402): a render pipe, the RRU, the IPL or a CIN port is enabled. -/
def State.realTime (s : State) : Bool :=
  s.anyPipeOn || s.get F.RRU_STAT_STATE != unitDisabled || s.get F.IPL_STAT_STATE != unitDisabled
    || (List.range 16).any fun n => s.get (F.CIN_PORT_STAT_STATE n) != 0

/-- A channel idle for MEM_SR.IDLE MEM cycles enters self-refresh (R402). -/
def execSelfRefreshEntry (dt : Nat) (n : Fin 16) (s : State) : Res :=
  evCmd dt (fun s =>
      let idle := s.get F.MEM_SR_IDLE
      s.mcState n == mcReady && !s.on (F.MC_STAT_SR n) && idle != 0
        && decide ((s.chan n).lastReq + 6 * idle ≤ s.now) && !(s.on F.MEM_CTRL_BLOCK_RT_SR && s.realTime))
    (fun s => ((s.put (F.MC_STAT_SR n) 1).bump (F.MC_SR_ENTRIES n)).setChan n { s.chan n with srAt := some s.memCycle }) s

def execDramHighTemperature (dt : Nat) (n : Fin 16) (hot : Bool) (s : State) : Res :=
  evCmd dt (fun _ => true) (fun s => s.setChan n { s.chan n with hot := hot }) s

end Sys2Proof.Machine
end

