-- ==== Sys2Proof/Machine/Eng.lean ====
section
/-! DEFINITION. The Cregar engines (12): registers, regions, caches and fetch, faults, the issue of an instruction, and
starting and stopping. -/

namespace Sys2Proof.Machine

/-! ### Registers (R323) -/

/-- Scalar register `r`: s0 reads as 0, and a write to it is discarded. -/
def State.sreg (s : State) (e r : Nat) : DWord := if r = 0 then 0 else Sparse.get (fun _ => 0) (s.engine e).x r
def State.setS (s : State) (e r : Nat) (v : DWord) : State :=
  if r = 0 then s else s.setEngine e { s.engine e with x := Sparse.set (fun _ => 0) (s.engine e).x r v }

def State.vreg (s : State) (e r : Nat) : VWord := Sparse.get (fun _ => 0) (s.engine e).v r
def State.setV (s : State) (e r : Nat) (v : VWord) : State :=
  s.setEngine e { s.engine e with v := Sparse.set (fun _ => 0) (s.engine e).v r v }

/-- Predicate register `r`: p0 reads as all ones, and a write to it is discarded. -/
def State.preg (s : State) (e r : Nat) : DWord :=
  if r = 0 then BitVec.allOnes 64 else Sparse.get (fun _ => 0) (s.engine e).p r
def State.setP (s : State) (e r : Nat) (v : DWord) : State :=
  if r = 0 then s else s.setEngine e { s.engine e with p := Sparse.set (fun _ => 0) (s.engine e).p r v }

/-- The PC, in ENGe_PC. -/
def State.pc (s : State) (e : Nat) : DWord := BitVec.ofNat 64 (s.get (F.ENGINE_PC e))
def State.setPc (s : State) (e : Nat) (a : DWord) : State := s.put (F.ENGINE_PC e) a.toNat

/-! ### States (R340) -/

def egOff : Nat := 0
def egRunning : Nat := 1
def egWaiting : Nat := 2
def egHalted : Nat := 3
def egFaulted : Nat := 4

def State.engState (s : State) (e : Nat) : Nat := s.get (F.ENGINE_STAT_STATE e)

/-- A bit of a bitmap register of the engines. -/
def State.putEngBit (s : State) (f : Fld) (e : Nat) (b : Bool) : State := s.put f (setBits (s.get f) (e % 32) (e % 32) (b2n b))

/-- The state changes, and the bit of ENG_RUNNING with it: 1 while RUNNING or WAITING (R346). -/
def State.setEngState (s : State) (e st : Nat) : State :=
  (s.put (F.ENGINE_STAT_STATE e) st).putEngBit (F.ENG_RUNNING (e / 32)) e (st == egRunning || st == egWaiting)

/-- An engine that stops issuing drops its WAIT, its stop request and what its fetch pipe held. -/
def State.engStill (s : State) (e st : Nat) : State :=
  (s.setEngine e { s.engine e with wait := none, stop := false, behind := [] }).setEngState e st

/-- The class of a fault cause (R339). -/
def faultClass (cause : Nat) : Nat := if cause < 0x010 then 0x01 else if cause < 0x040 then 0x02 else 0x05

/-- The engine faults (R338): FAULTED with the PC where it is, the address and the cause placed, its bit in ENG_FAULTED set,
event 48 raised and the cause logged. -/
def State.engFault (s : State) (e cause : Nat) (addr : DWord) : State :=
  let s := (s.engStill e egFaulted).put (F.ENGINE_STAT_FAULT_CAUSE e) cause
  let s := (s.put (F.ENGINE_FAULT_ADDR e) addr.toNat).putEngBit (F.ENG_FAULTED (e / 32)) e true
  (s.logErr siteEng (faultClass cause) cause [e, addr.toNat]).raise (704 + 48)

/-! ### The address map (R324) -/

/-- Where an engine address lies: device memory, local memory of an engine (with whether it is the own one under its own
address), cluster memory of a cluster, a BAR0 register, or nowhere. -/
inductive Region
  | dev
  | loc (own : Bool) (e off : Nat)
  | clu (c off : Nat)
  | bar (off : Nat)
  | none
  deriving DecidableEq, Repr

def State.region (s : State) (e a : Nat) : Region :=
  if 0xC00000000000 ≤ a then if a < 0xC00004000000 then .bar (a - 0xC00000000000) else .none
  else if 0x820000000000 ≤ a then
    if a < 0x820000000000 + 12 * 0x200000 then
      .clu ((a - 0x820000000000) / 0x200000) ((a - 0x820000000000) % 0x200000) else .none
  else if 0x810000000000 ≤ a then
    if a < 0x810000000000 + 192 * 0x40000 then
      .loc false ((a - 0x810000000000) / 0x40000) ((a - 0x810000000000) % 0x40000) else .none
  else if 0x800000100000 ≤ a then if a < 0x800000300000 then .clu (e / 16) (a - 0x800000100000) else .none
  else if 0x800000000000 ≤ a then if a < 0x800000040000 then .loc true e (a - 0x800000000000) else .none
  else if s.belowTop a then .dev
  else .none

/-- The sampler's code of a region (R522). -/
def Region.code : Region → Nat
  | .loc _ _ _ => 1
  | .clu _ _ => 2
  | .bar _ => 3
  | _ => 0

/-- Whether an engine outside the secure management domain is kept out of a memory of a secure cluster (R512). -/
def State.engKeptOut (s : State) (e : Nat) : Region → Bool
  | .loc _ o _ => s.secureEngine o && !s.secureEngine e
  | .clu c _ => s.secureEngine (16 * c) && !s.secureEngine e
  | _ => false

/-! ### Local and cluster memory (R322, R332) -/

def locKey (e off : Nat) : Nat := 0x40000 * e + off
def cluKey (c off : Nat) : Nat := 0x200000 * c + off

/-- `n` bytes of a local or cluster memory, none where a word of them is uncorrectable; a corrected word is counted, and an
uncorrectable one of a cluster memory is recorded. -/
def State.ememRead (s : State) (e : Nat) (r : Region) (n : Nat) : Option (List Byte) × State :=
  match r with
  | .loc _ o off =>
    let k := locKey o off
    let marks := (List.range ((k + n - 1) / 8 - k / 8 + 1)).map fun i =>
      Sparse.get (fun _ => Mark.good) s.emem.locMark (k / 8 + i)
    let s := s.bump (F.ENGINE_ECC_CORR e) (marks.filter (· == .corrected)).length
    (if marks.any fun m => m == .uncorrectable || m == .poison then none
      else some ((List.range n).map fun i => Sparse.get (fun _ => 0) s.emem.loc (k + i)), s)
  | .clu c off =>
    let k := cluKey c off
    let words := (List.range ((k + n - 1) / 8 - k / 8 + 1)).map (k / 8 + ·)
    let mark := fun (w : Nat) => Sparse.get (fun _ => Mark.good) s.emem.cluMark w
    let bad := words.filter fun w => mark w == .uncorrectable || mark w == .poison
    let s := s.bump (F.ENG_CL_ECC_CORR c) (words.filter fun w => mark w == .corrected).length
    match bad with
    | [] => (some ((List.range n).map fun i => Sparse.get (fun _ => 0) s.emem.clu (k + i)), s)
    | w :: _ => (none, s.put (F.ENG_CL_UNCORR_ADDR c) (8 * w % 0x200000))
  | _ => (none, s)

/-- Bytes stored in a sparse memory from an index on, under enables. -/
def putBytes (m : List (Nat × Byte)) (k : Nat) : List (Option Byte) → List (Nat × Byte)
  | [] => m
  | some v :: l => putBytes (Sparse.set (fun _ => 0) m k v) (k + 1) l
  | none :: l => putBytes m (k + 1) l

/-- The words whose eight bytes a store renews are good again; what a smaller store leaves of a marked word stays marked. -/
def renew (m : List (Nat × Mark)) (k : Nat) (l : List (Option Byte)) : List (Nat × Mark) :=
  (List.range (l.length / 8)).foldl (fun m i =>
    if ((l.drop (8 * i)).take 8).all (·.isSome) then Sparse.set (fun _ => Mark.good) m (k / 8 + i) .good else m) m

/-- Bytes stored in a local or cluster memory under enables. -/
def State.ememWrite (s : State) (r : Region) (l : List (Option Byte)) : State :=
  match r with
  | .loc _ o off =>
    let k := locKey o off
    { s with emem := { s.emem with loc := putBytes s.emem.loc k l, locMark := renew s.emem.locMark k l } }
  | .clu c off =>
    let k := cluKey c off
    { s with emem := { s.emem with clu := putBytes s.emem.clu k l, cluMark := renew s.emem.cluMark k l } }
  | _ => s

/-! ### Data cache (R328) -/

/-- The free choices of the cache before an instruction (R328): each write-back started may land, in the order of one block, and
each line may be evicted. The address of a line lost in it, if any. -/
def State.cacheMoves (s : State) (e : Nat) : Option DWord × State :=
  let s := (s.engine e).wb.foldl (fun (s : State) p =>
    let (v, s) := s.draw
    if v.toNat % 2 = 1 then s.landAll e (· == p.1) else s) s
  (s.engine e).dc.foldl (fun (a : Option DWord × State) p =>
    let (v, s) := a.2.draw
    if v.toNat % 2 = 0 then (a.1, s)
    else
      let s := (s.dropLine e p.1).startBack e p.1 p.2
      (if p.2.lost then some (BitVec.ofNat 64 (64 * p.1)) else a.1, s)) (none, s)

/-! ### Instruction fetch (R324, R329, R332) -/

/-- Whether instructions can be fetched from an address: device memory and own local memory. -/
def State.fetchable (s : State) (e a : Nat) : Bool :=
  match s.region e a with
  | .dev => true
  | .loc own _ _ => own
  | _ => false

/-- An instruction line read from its memory, none where it is uncorrectable. -/
def State.readILine (s : State) (e line : Nat) : Option (List Byte) × State :=
  match s.region e (64 * line) with
  | .dev => s.memRead (engPort e) (64 * line) 64
  | r => s.ememRead e r 64

/-- A line taken into the instruction cache: 128 sets of four lines, the set by the line's number (DESIGN CHOICE, assumption 108), where a
full set gives up a line that is free. -/
def State.fillILine (s : State) (e line : Nat) : Option (List Byte) × State :=
  let s := s.tally 0x0B e 4
  match s.readILine e line with
  | (some bs, s) =>
    let g := s.engine e
    let set := g.ic.filter fun p => p.1 % 128 == line % 128 && p.1 != line
    let (v, s) := s.draw
    let gone := if 4 ≤ set.length then (set.map (·.1))[v.toNat % set.length]? else none
    (some bs, s.setEngine e { g with
      ic := (line, { bytes := bs }) :: g.ic.filter fun p => p.1 != line && gone != some p.1 })
  | (none, s) => (none, s)

/-- The line that holds the PC: from what the fetch pipe still holds, from the cache, or from memory. How long a line stays in
the cache, and what is still in the pipe, the manual leaves open; a line with a parity error is counted and fetched again. -/
def State.fetchLine (s : State) (e line : Nat) : Option (List Byte) × State :=
  let g := s.engine e
  match g.behind.find? fun p => p.1 == line with
  | some (_, l) =>
    let (v, s) := s.draw
    if v.toNat % 2 = 1 then (some l.bytes, s)
    else s.fillILine e line
  | none =>
    match g.ic.find? fun p => p.1 == line with
    | some (_, l) =>
      if l.mark != .good then (s.bump (F.ENGINE_ECC_CORR e)).fillILine e line
      else
        let (v, s) := s.draw
        if v.toNat % 2 = 1 then (some l.bytes, s) else s.fillILine e line
    | none => s.fillILine e line

/-- The instruction word at the PC, or the cause of the fault that its fetch takes. -/
def State.engFetch (s : State) (e : Nat) : Except Nat Nat × State :=
  let a := (s.pc e).toNat
  if a % 4 ≠ 0 then (.error 0x003, s)
  else if !s.fetchable e a then (.error 0x004, s)
  else match s.fetchLine e (a / 64) with
    | (some bs, s) => (.ok (ofBytes ((bs.drop (a % 64)).take 4)), s)
    | (none, s) => (.error 0x010, s)

/-! ### Sampling (R522, R523) -/

def State.sampler (s : State) (c : Nat) : Sampler := Sparse.get (fun _ => {}) s.pmu.samp c
def State.setSampler (s : State) (c : Nat) (p : Sampler) : State :=
  { s with pmu := { s.pmu with samp := Sparse.set (fun _ => {}) s.pmu.samp c p } }

/-- What a record says of an instruction (R522). -/
structure Sample where
  pc : DWord
  word : Nat
  engine : Nat
  flags : Nat
  daddr : DWord
  deriving DecidableEq, Repr

/-- The record's eight words. -/
def Sample.words (r : Sample) (latency tempo : Nat) : List Nat :=
  let p := r.pc.toNat
  let d := r.daddr.toNat
  [p % 2 ^ 32, p / 2 ^ 32, r.word % 2 ^ 32, latency % 2 ^ 16 + 2 ^ 16 * (r.engine % 16) + 2 ^ 24 * (r.flags % 2 ^ 8),
    d % 2 ^ 32, d / 2 ^ 32, tempo % 2 ^ 32, tempo / 2 ^ 32 % 2 ^ 32]

/-- A record is written at WR, or is lost in MODE 0 with the buffer full (R523). The latency in cycles is free. -/
def State.sample (s : State) (c : Nat) (r : Sample) : State :=
  let wr := s.get (F.PMU_SMP_WR c)
  let held := (wr + 2 ^ 32 - s.get (F.PMU_SMP_RD c)) % 2 ^ 32
  let p := s.sampler c
  if 512 ≤ held && !s.on (F.PMU_SMP_CFG_MODE c) then
    let s := s.bump (F.PMU_SMP_LOST c)
    if p.lostLogged then s
    else ((s.setSampler c { p with lostLogged := true }).raise (1088 + 45)).logErr (sitePmu c) 0x06 0x030
  else
    let (v, s) := s.draw
    let base := F.PMU_SBUF c (8 * (wr % 512))
    let s := ((r.words v.toNat (s.tempoCopy .eng)).zipIdx).foldl (fun (s : State) w =>
      s.setWord (base.off + 4 * w.2) w.1) s
    let s := (s.setSampler c { p with lostLogged := false }).bump (F.PMU_SMP_WR c)
    let s := if 512 ≤ held then s.put (F.PMU_SMP_RD c) (wr + 1 + 2 ^ 32 - 512) else s
    if held + 1 = s.get (F.PMU_SMP_WATERMARK c) then s.raise (1088 + 33 + c) else s

/-- The retirements before the next tag: 2^P_LOG2 and a random part; a P_LOG2 outside 8 to 24 acts as the nearer limit (R531). -/
def State.drawInterval (s : State) (c : Nat) : Nat × State :=
  let p := max 8 (min 24 (s.get (F.PMU_SMP_CFG_P_LOG2 c)))
  let (v, s) := s.draw
  (2 ^ p + v.toNat % 2 ^ (p - 4), s)

/-- The PMU counts an instruction that retires as the first of its cycle, or as the second of a pair (R334, R520): behind a first one
which of the two is free. -/
def State.countRetired (s : State) (e : Nat) : State :=
  if s.pmuFor 0x0B e 1 = [] && s.pmuFor 0x0B e 2 = [] then s
  else
    let (v, s) := s.draw
    let second := (s.engine e).half && bit v.toNat 0
    (s.setEngine e { s.engine e with half := !second }).tally 0x0B e (if second then 2 else 1)

/-- An instruction retires: the cluster's sampler counts it, and takes it if it is the tagged one; the PMU counts it. -/
def State.engRetire (s : State) (e : Nat) (o : Op) (r : Sample) : State :=
  let s := s.countRetired e
  let c := e / 16
  if s.on (F.PMU_SMP_CFG_EN c) && bit (s.get (F.PMU_SMP_CFG_ENG_MASK c)) (e % 16) then
    let (left, s) := match (s.sampler c).left with
      | some n => (n, s)
      | none => s.drawInterval c
    if left = 0 then
      if o.ofKind (s.get (F.PMU_SMP_CFG_KIND c)) then
        let s := s.setSampler c { s.sampler c with left := none }
        s.sample c r
      else s.setSampler c { s.sampler c with left := some 0 }
    else s.setSampler c { s.sampler c with left := some (left - 1) }
  else s

/-! ### Issue (R334, R338) -/

/-- What an instruction does: it is done, with the data address and region and whether it missed the cache; it branches,
taken or not, to a target; it faults; it halts with a code; or it waits. -/
inductive EngRes
  | done (s : State) (data : Option (DWord × Nat)) (miss : Bool)
  | branch (s : State) (taken : Bool) (target : DWord)
  | fault (s : State) (cause : Nat) (addr : DWord)
  | halt (s : State) (code : Nat)
  | sleep (s : State) (w : Nat) (deadline : DWord)

/-- An instruction that touches no memory is done. -/
def EngRes.ok (s : State) : EngRes := .done s none false

/-- The record of an instruction at the PC. -/
def State.sampleOf (s : State) (e : Nat) (o : Op) (w : Nat) (data : Option (DWord × Nat)) (miss mis : Bool) : Sample :=
  { pc := s.pc e, word := w, engine := e % 16,
    flags := b2n o.isLoad + 2 * b2n o.isStore + 4 * b2n o.isVector + 8 * b2n o.isBranch + 16 * b2n miss + 32 * b2n mis
      + 64 * (data.map (·.2)).getD 0,
    daddr := (data.map (·.1)).getD 0 }

/-- The instruction at the PC completes and the PC moves on to `next`. -/
def State.engDone (s : State) (e : Nat) (r : Sample) (o : Op) (next : DWord) : State :=
  (s.setPc e next).engRetire e o r

/-- A static prediction (R334): backward taken, forward not taken, jumps taken. -/
def mispredicted (o : Op) (pc target : DWord) (taken : Bool) : Bool :=
  match o with
  | .j | .jal | .jalr => false
  | _ => taken != decide (target.toNat ≤ pc.toNat)

/-- A branch that ran in `s` with the result `s'`, taken or not (R334, R335). -/
def State.branched (s : State) (e : Nat) (o : Op) (w : Nat) (target : DWord) (taken : Bool) (s' : State) : State :=
  let mis := mispredicted o (s.pc e) target taken
  (if mis then s'.tally 0x0B e 5 else s').engDone e (s.sampleOf e o w none false mis) o (if taken then target else s.pc e + 4)

/-- A branch goes to its target: one that cannot be fetched faults with no effect. -/
def State.engBranch (s : State) (e : Nat) (o : Op) (w : Nat) (target : DWord) (s' : State) : State :=
  if target.toNat % 4 ≠ 0 then s.engFault e 0x003 target
  else if s.fetchable e target.toNat then s.branched e o w target true s'
  else s.engFault e 0x004 target

/-- What an instruction did in `s` is carried out. -/
def State.engFinish (s : State) (e : Nat) (o : Op) (w : Nat) : EngRes → State
  | .done s' data miss =>
    (if miss then s'.tally 0x0B e 3 else s').engDone e (s.sampleOf e o w data miss false) o (s.pc e + 4)
  | .branch s' true target => s.engBranch e o w target s'
  | .branch s' false target => s.branched e o w target false s'
  | .fault s' cause addr => s'.engFault e cause addr
  | .halt s' code =>
    let s' := (s'.engDone e (s.sampleOf e o w none false false) o (s.pc e + 4)).put (F.ENGINE_STAT_HALT_CODE e) code
    (s'.engStill e egHalted).raise (704 + 49)
  | .sleep s' w deadline =>
    (s'.setEngine e { s'.engine e with wait := some (w, deadline) }).setEngState e egWaiting

/-- The instruction `o` in word `w` is carried out once the cache has made its free moves. -/
def State.engRun (s : State) (e : Nat) (o : Op) (w : Nat) (body : Nat → State → EngRes) : State :=
  match s.cacheMoves e with
  | (some lost, s) => s.engFault e 0x011 lost
  | (none, s) => s.engFinish e o w (body w s)

/-- Whether an engine issues: RUNNING, and not being turned off. -/
def State.issuing (s : State) (e : Nat) : Bool := s.engState e == egRunning && !(s.engine e).off

/-- A fetched word is carried out in `s'` where it is the instruction `o`; otherwise the state stays `s`. -/
def State.engWord (s s' : State) (e : Nat) (o : Op) (w : Nat) (body : Nat → State → EngRes) : State :=
  if cregar w = some o then s'.engRun e o w body else s

/-- The instruction at the PC issues where it is `o`; a fetch that faults does so whatever the instruction; where the word is
another instruction, that one's command carries it out and this one does nothing. -/
def State.engIssue (s : State) (e : Nat) (o : Op) (body : Nat → State → EngRes) : State :=
  match s.engFetch e with
  | (.error cause, s') => s'.engFault e cause (s.pc e)
  | (.ok w, s') => s.engWord s' e o w body

/-- The command of an instruction: engine `e` issues it. -/
def engCmd (dt : Nat) (e : Nat) (o : Op) (body : Nat → State → EngRes) (s : State) : Res :=
  evCmd dt (fun s => s.issuing e) (fun s => s.engIssue e o body) s

/-! ### Operand forms (R333, R335) -/

/-- R form: s[d] = f (s[a], s[b]). -/
def formR (e : Nat) (f : DWord → DWord → DWord) (w : Nat) (s : State) : EngRes :=
  .ok (s.setS e (insD w) (f (s.sreg e (insA w)) (s.sreg e (insB w))))

/-- I form: s[d] = f (s[a], imm16). -/
def formI (e : Nat) (f : DWord → Nat → DWord) (w : Nat) (s : State) : EngRes :=
  .ok (s.setS e (insD w) (f (s.sreg e (insA w)) (insImm16 w)))

/-- B form: a branch by a comparison of s[a] and s[b], which are the fields at bits 6 and 11. -/
def formB (e : Nat) (f : DWord → DWord → Bool) (w : Nat) (s : State) : EngRes :=
  .branch s (f (s.sreg e (insD w)) (s.sreg e (insA w))) (s.pc e + 4 * immS 16 (insImm16 w))

/-- V form that writes the active elements of vd. -/
def formV (e : Nat) (f : Nat → Bool → Nat → Nat → Nat) (w : Nat) (s : State) : EngRes :=
  let z := insEsz w
  .ok (s.setV e (insD w) (mergeElems z (s.preg e (insPm w)) (s.vreg e (insD w)) fun i =>
    f z (insU w) (elem z (s.vreg e (insA w)) i) (elem z (s.vreg e (insB w)) i)))

/-- V form that writes a predicate. -/
def formC (e : Nat) (f : Nat → Bool → Nat → Nat → Bool) (w : Nat) (s : State) : EngRes :=
  let z := insEsz w
  .ok (s.setP e (insD w % 8) (ofFlags z (s.preg e (insPm w)) fun i =>
    f z (insU w) (elem z (s.vreg e (insA w)) i) (elem z (s.vreg e (insB w)) i)))

/-! ### Starting and stopping (R340–R343, R512) -/

/-- Whether a requester may control engine `e`: the secure management domain, and PF0 while SECURE_BOOT is 0, control a secure
engine; the rights of PF3 control any other. -/
def State.engMay (s : State) (who : Requester) (e : Nat) : Bool :=
  if s.secureEngine e then s.isSecure who || (actsAsPf0 who && !s.on F.SEC_FUSE_SECURE_BOOT) else bit (s.rights who) 3

/-- The engines that a control write of word `w` names and its writer may control; a refused one is logged with cause 0x041
if it is secure. -/
def State.engNamed (s : State) (who : Requester) (off w v : Nat) : List Nat × State :=
  let es := ((List.range 32).filter fun j => bit v j).map (32 * w + ·)
  let s := (es.filter fun e => s.secureEngine e && !s.engMay who e).foldl (fun (s : State) e =>
    s.logErr siteEng 0x05 0x041 [e, off]) s
  (es.filter fun e => s.engMay who e, s)

/-- A control request refused (R339). -/
def State.engRefuse (s : State) (e : Nat) : State :=
  s.logErr siteEng 0x01 0x001 [e, s.get (F.ENGINE_FAULT_ADDR e) % 2 ^ 32]

/-- Whether a Tempo lies in the running ENG cycle. -/
def State.thisEng (s : State) : Option Nat → Bool
  | some t => Domain.eng.cycleOf t == Domain.eng.cycleOf s.now
  | none => false

/-- A start of engine `e` (R340, R341): from OFF with fresh caches and registers, from HALTED or FAULTED with everything kept. An OFF of
the same ENG cycle acts instead (R343). -/
def State.engStart (s : State) (e : Nat) : State :=
  let st := s.engState e
  if (s.engine e).off || s.thisEng (s.engine e).offAt || st = egRunning || st = egWaiting then s
  else if !s.on F.ENG_STAT || (s.pc e).toNat % 4 ≠ 0 then s.engRefuse e
  else if st = egOff then
    let x : List (Nat × DWord) := Sparse.set (fun _ => 0) (Sparse.set (fun _ => 0) [] 1 (BitVec.ofNat 64 e)) 2
      (BitVec.ofNat 64 (s.get (F.ENGINE_ARG e)))
    (s.setEngine e { x := x, startAt := some s.now }).setEngState e egRunning
  else (s.setEngine e { s.engine e with startAt := some s.now }).setEngState e egRunning

/-- A stop of engine `e` (R340). One in the ENG cycle of a START acts before it, on an engine that was at rest (R343). -/
def State.engStop (s : State) (e : Nat) : State :=
  let st := s.engState e
  if (st = egRunning || st = egWaiting) && !(s.engine e).off && !s.thisEng (s.engine e).startAt then s.setEngine e { s.engine e with stop := true } else s

/-- OFF for engine `e` (R340). -/
def State.engOff (s : State) (e : Nat) : State :=
  s.setEngine e (if s.engState e = egOff then { s.engine e with offAt := some s.now }
    else { s.engine e with off := true, stop := false, offAt := some s.now })

/-- Every dirty line is written back, and both caches are invalidated (R340). -/
def State.engDrain (s : State) (e : Nat) : State :=
  let lines := (s.engine e).dc
  let s := lines.foldl (fun (s : State) p => s.startBack e p.1 p.2) s
  let s := s.landAll e fun _ => true
  let s := s.setEngine e { s.engine e with dc := [], ic := [], behind := [] }
  match lines.find? fun p => p.2.lost with
  | some p => s.engFault e 0x011 (BitVec.ofNat 64 (64 * p.1))
  | none => s

/-- An engine is OFF at once, its dirty lines discarded (R342). -/
def State.engKill (s : State) (e : Nat) : State :=
  let g := s.engine e
  (s.setEngine e { g with dc := [], ic := [], behind := [], wb := [], wait := none, stop := false, off := false }).setEngState e egOff

/-- Every engine a bitmap word names takes an action, where its requester may command it (R340, R512). -/
def State.engEach (s : State) (act : State → Nat → State) (who : Requester) (off w v : Nat) : State :=
  let (es, s) := s.engNamed who off w v
  es.foldl act s

def execEngStart (dt : Nat) (who : Requester) (w : Fin 6) (v : Word) (s : State) : Res :=
  regCmd dt who (O.ENG_START w) (fun s => s.engEach State.engStart who (O.ENG_START w) w v.toNat) s

def execEngStop (dt : Nat) (who : Requester) (w : Fin 6) (v : Word) (s : State) : Res :=
  regCmd dt who (O.ENG_STOP w) (fun s => s.engEach State.engStop who (O.ENG_STOP w) w v.toNat) s

def execEngOff (dt : Nat) (who : Requester) (w : Fin 6) (v : Word) (s : State) : Res :=
  regCmd dt who (O.ENG_OFF w) (fun s => s.engEach State.engOff who (O.ENG_OFF w) w v.toNat) s

/-- A stopping engine is HALTED, with the PC at the next instruction, or at its WAIT. -/
def execStopComplete (dt : Nat) (e : Fin 192) (s : State) : Res :=
  evCmd dt (fun s => (s.engine e).stop && (s.engState e == egRunning || s.engState e == egWaiting))
    (fun s => s.engStill e egHalted) s

def execOffComplete (dt : Nat) (e : Fin 192) (s : State) : Res :=
  evCmd dt (fun s => (s.engine e).off) (fun s => (s.engDrain e).engKill e) s

/-- Local and cluster memories are zeroed with good check bits, and INIT_DONE is set (R341). -/
def execEngInitDone (dt : Nat) (s : State) : Res :=
  evCmd dt (fun s => !s.on F.ENG_STAT) (fun s => { s with emem := {} }.put F.ENG_STAT 1) s

end Sys2Proof.Machine
end

