-- ==== Sys2Proof/Machine/Sec.lean ====
section
/-! DEFINITION. Security (18 R498–R512): owner keys, signed commands and the secure management domain. -/

namespace Sys2Proof.Machine

/-- SEC event `i` (R527). -/
def State.secEvent (s : State) (i : Nat) : State := s.raise (64 + i)

/-! ### Key slots and identity (R498–R504) -/

def slEmpty : Nat := 0
def slEnrolled : Nat := 1
def slRevoked : Nat := 2

/-- The state of slot `k` (R502). -/
def State.slot (s : State) (k : Nat) : Nat := s.get F.SEC_FUSE_SLOT / 4 ^ k % 4

def State.setSlot (s : State) (k st : Nat) : State :=
  let w := s.get F.SEC_FUSE_SLOT
  s.put F.SEC_FUSE_SLOT (w - s.slot k * 4 ^ k + st * 4 ^ k)

/-- The key field of slot `k`: x and its parity byte (R502, R529). -/
def State.keyBytes (s : State) (k : Nat) : List Byte :=
  (List.range 12).flatMap (fun i => toBytes 4 (s.get (F.SEC_OWNER_KEY k i))) ++ toBytes 1 (s.get (F.SEC_OWNER_KEY k 12) % 2)

/-- SEC_OWNER_SET (R502). -/
def State.ownerSet (s : State) : List Byte :=
  sha384 ((List.range 4).flatMap fun k =>
    toBytes 1 (s.slot k) ++ (if s.slot k = slEmpty then List.replicate 49 0 else s.keyBytes k))

/-- Word `i` of bytes as a run of registers shows them. -/
def wordOf (bs : List Byte) (i : Nat) : Nat := ofBytes ((bs.drop (4 * i)).take 4)

/-- Whether a signature over a message is valid under the key of slot `k` (R304, R503, R504). -/
def State.sigValid (s : State) (k : Nat) (msg r t : List Byte) : Bool :=
  let key := s.keyBytes k
  decide (k < 4) && s.slot k == slEnrolled
    && ecdsaOk (beOf (key.take 48)) (beOf (key.drop 48)) (sha384 msg) (beOf r) (beOf t)

/-- The 48 bytes of the n-th nonce (R504). -/
def nonceBytes (n : Nat) : List Byte := (List.range 12).flatMap fun i => toBytes 4 (Config.nonceWord n i).toNat

/-! ### Commands (R503–R507) -/

/-- The staging block. -/
def State.staged (s : State) : List Byte := (List.range 52).flatMap fun i => toBytes 4 (s.get (F.SEC_CMD i))

/-- A field of a command block. -/
def cmdField (b : List Byte) (o n : Nat) : Nat := ofBytes ((b.drop o).take n)

def cmdCode (b : List Byte) : Nat := cmdField b 0 2

/-- GO is written for a command of the given code: the block is taken with the nonce in force, and a new nonce is drawn. GO is
discarded while a command is under way. A block with a code that is no command's is taken by any of them and refused. -/
def State.secGo (s : State) (code : Nat) : State :=
  let b := s.staged
  let known := 1 ≤ cmdCode b && cmdCode b ≤ 5
  if s.on F.SEC_CMD_STAT_BUSY || (known && cmdCode b ≠ code) then s
  else { s with sec := { s.sec with cmd := some (b, s.sec.nonces), nonces := s.sec.nonces + 1, goAt := some s.now } }.put F.SEC_CMD_STAT_BUSY 1

def execSecEnrol (dt : Nat) (who : Requester) (s : State) : Res :=
  regCmd dt who O.SEC_CMD_CTRL (fun s => s.secGo 1) s
def execSecRevoke (dt : Nat) (who : Requester) (s : State) : Res :=
  regCmd dt who O.SEC_CMD_CTRL (fun s => s.secGo 2) s
def execSecSecureBoot (dt : Nat) (who : Requester) (s : State) : Res :=
  regCmd dt who O.SEC_CMD_CTRL (fun s => s.secGo 3) s
def execSecSetDomain (dt : Nat) (who : Requester) (s : State) : Res :=
  regCmd dt who O.SEC_CMD_CTRL (fun s => s.secGo 4) s
def execSecAttest (dt : Nat) (who : Requester) (s : State) : Res :=
  regCmd dt who O.SEC_CMD_CTRL (fun s => s.secGo 5) s

/-- Whether any slot has ever been enrolled. -/
def State.anyKey (s : State) : Bool := (List.range 4).any fun k => s.slot k != slEmpty

/-- Whether a command needs a signature (R504). -/
def State.signedCmd (s : State) (b : List Byte) : Bool :=
  match cmdCode b with
  | 1 => s.anyKey
  | 2 => true
  | 3 => true
  | 4 => s.on F.SEC_FUSE_SECURE_BOOT
  | _ => false

/-- Whether every byte of a range of the block is 0. -/
def cmdZero (b : List Byte) (o n : Nat) : Bool := ((b.drop o).take n).all (· == 0)

/-- The format of a command (R503, R505): its code, reserved bytes, field ranges, and x on the curve. -/
def State.cmdFormatOk (s : State) (b : List Byte) : Bool :=
  let slotOk := decide (cmdField b 2 1 < 4)
  let len := cmdField b 72 4
  cmdZero b 4 4 && cmdZero b 57 7 && cmdZero b 88 24 && (!s.signedCmd b || decide (cmdField b 3 1 < 4))
    && match cmdCode b with
      | 1 => slotOk && decide (cmdField b 56 1 < 2) && onCurve (beOf ((b.drop 8).take 48))
      | 2 => slotOk
      | 3 => true
      | 4 => cmdField b 64 8 % 64 == 0 && len % 64 == 0 && decide (64 ≤ len) && decide (len ≤ 262144)
          && decide (0 < cmdField b 76 4) && decide (cmdField b 76 4 < 4096)
          && cmdField b 80 8 % 4 == 0 && decide (cmdField b 80 8 < len)
      | 5 => true
      | _ => false

/-- Whether a command's signature is valid (R503, R504). -/
def State.cmdSigned (s : State) (b : List Byte) (nonce : Nat) : Bool :=
  s.sigValid (cmdField b 3 1) (b.take 112 ++ nonceBytes nonce ++ toBytes 8 Config.fusedSerial.toNat)
    ((b.drop 112).take 48) ((b.drop 160).take 48)

/-- Whether the slots forbid a command (R505). -/
def State.slotsForbid (s : State) (b : List Byte) : Bool :=
  let k := cmdField b 2 1
  let others := (List.range 4).any fun j => j != k && s.slot j == slEnrolled
  match cmdCode b with
  | 1 => s.slot k != slEmpty
  | 2 => s.slot k != slEnrolled || (s.on F.SEC_FUSE_SECURE_BOOT && !others)
  | 3 => (List.range 4).all fun j => s.slot j != slEnrolled
  | _ => false

/-- Whether a command writes fuses. -/
def writesFuses (b : List Byte) : Bool := 1 ≤ cmdCode b && cmdCode b ≤ 3

/-- The cause for which a command is refused (R505), in the order of its table; and SET_DOMAIN on a locked domain (R510). -/
def State.cmdCause (s : State) (b : List Byte) (nonce : Nat) (supply : Bool) : Option Nat :=
  if !s.cmdFormatOk b then some 0x001
  else if s.signedCmd b && !s.cmdSigned b nonce then some 0x050
  else if s.slotsForbid b then some 0x051
  else if writesFuses b && !supply then some 0x030
  else if cmdCode b = 4 && s.on F.SEC_DOMAIN_LOCK then some 0x052
  else none

/-- The error class of a cause (R528). -/
def secClass (cause : Nat) : Nat :=
  if cause = 0x001 then 0x01 else if cause < 0x030 then 0x02 else if cause = 0x030 then 0x06 else 0x05

/-- A command ends refused, or a fuse or code check fails: REFUSED, its cause, the log entry and event 1. -/
def State.cmdRefuse (s : State) (b : List Byte) (cause : Nat) : State :=
  let s := ((s.put F.SEC_CMD_STAT_BUSY 0).flag F.SEC_CMD_STAT_REFUSED).put F.SEC_CMD_STAT_CAUSE cause
  (s.logErr siteSec (secClass cause) cause [cmdCode b]).secEvent 1

/-- A command ends carried out: DONE and event 0. -/
def State.cmdDone (s : State) : State := ((s.put F.SEC_CMD_STAT_BUSY 0).flag F.SEC_CMD_STAT_DONE).secEvent 0

/-- A slot whose fuses fail their read-back (R506). -/
def State.slotFault (s : State) (k : Nat) : State :=
  (s.setSlot k slRevoked).put F.SEC_FUSE_FUSE_FAULT (s.get F.SEC_FUSE_FUSE_FAULT ||| 2 ^ k)

/-- ENROL: the key is fused. What a failed fuse write leaves of it the manual does not say. -/
def State.enrol (s : State) (b : List Byte) (good : Bool) : State :=
  let k := cmdField b 2 1
  if good then
    let s := (List.range 12).foldl (fun (s : State) i => s.put (F.SEC_OWNER_KEY k i) (cmdField b (8 + 4 * i) 4)) s
    ((s.put (F.SEC_OWNER_KEY k 12) (cmdField b 56 1)).setSlot k slEnrolled).cmdDone
  else
    let s := (List.range 13).foldl (fun (s : State) i =>
      let (v, s) := s.draw
      s.put (F.SEC_OWNER_KEY k i) v.toNat) s
    (s.slotFault k).cmdRefuse b 0x010

def State.revoke (s : State) (b : List Byte) (good : Bool) : State :=
  let k := cmdField b 2 1
  if good then (s.setSlot k slRevoked).cmdDone else (s.slotFault k).cmdRefuse b 0x010

def State.secureBoot (s : State) (b : List Byte) (good check : Bool) : State :=
  if good then (s.put F.SEC_FUSE_SECURE_BOOT 1).cmdDone
  else (if check then s.put F.SEC_FUSE_SECURE_BOOT 1 else s).cmdRefuse b 0x010

/-- The engines of a cluster mask. -/
def clusterEngines (m : Nat) : List Nat := (List.range 192).filter fun e => bit m (e / 16)

/-- An engine is turned OFF as ENG_OFF does (R340, R511). -/
def State.turnOff (s : State) (e : Nat) : State := if s.engState e = egOff then s else (s.engDrain e).engKill e

/-- SET_DOMAIN (R511): the clusters' engines go OFF, the code is copied and checked, and the first engine starts on it. -/
def State.setDomain (s : State) (b : List Byte) : State :=
  let m := cmdField b 76 4
  let e := 16 * (((List.range 12).filter fun c => bit m c).headD 0)
  let before := s.get F.SEC_DOMAIN_CLUSTERS
  let s := (clusterEngines m).foldl State.turnOff s
  let s := s.put F.SEC_DOMAIN_CLUSTERS (before ||| m)
  let len := cmdField b 72 4
  let (code, s) := s.memRead 15 (cmdField b 64 8) len
  let code := code.getD []
  let s := s.ememWrite (.loc true e 0) (code.map some)
  if sha384 code = (b.drop 8).take 48 then
    let s := (s.put (F.ENGINE_PC e) (0x0000800000000000 + cmdField b 80 8)).put (F.ENGINE_ARG e) 0
    (s.engStart e).cmdDone
  else (s.put F.SEC_DOMAIN_CLUSTERS before).cmdRefuse b 0x011

/-- What an ATTEST signs (R501): the challenge, the serial number, the owner key set, the digest of the image and SEC_FUSE. -/
def State.attested (s : State) (b : List Byte) : List Byte :=
  (b.drop 8).take 48 ++ toBytes 8 Config.fusedSerial.toNat ++ s.ownerSet
    ++ (List.range 12).flatMap (fun i => toBytes 4 (s.get (F.FAB_DIGEST i))) ++ toBytes 4 (s.word O.SEC_FUSE)

/-- A number from 1 up to the order of the base point. -/
def inOrder (n : Nat) : Nat := n % (p384N - 1) + 1

/-- The random number of a signing: six draws of 64 bits. -/
def State.signingNumber (s : State) : Nat × State :=
  (List.range 6).foldl (fun (a : Nat × State) _ =>
    let (v, s) := a.2.draw
    (2 ^ 64 * a.1 + v.toNat, s)) (0, s)

/-- ATTEST (R501): the signature with the identity key, big-endian with the first byte in bits [7:0] of word 0. -/
def State.attest (s : State) (b : List Byte) : State :=
  let digest := sha384 (s.attested b)
  let (k, s) := s.signingNumber
  let (r, t) := ecdsaSign (inOrder Config.identityKey) digest (inOrder k)
  let bytes := fun (n : Nat) => (toBytes 48 n).reverse
  ((List.range 12).foldl (fun (s : State) i =>
    (s.put (F.SEC_ATTEST_R i) (wordOf (bytes r) i)).put (F.SEC_ATTEST_S i) (wordOf (bytes t) i)) s).cmdDone

/-- A command ends (R505, R506). -/
def State.cmdEnd (s : State) (b : List Byte) (nonce : Nat) (f : FuseOutcome) : State :=
  let s := { s with sec := { s.sec with cmd := none } }
  match s.cmdCause b nonce f.supply with
  | some cause => s.cmdRefuse b cause
  | none => match cmdCode b with
    | 1 => s.enrol b f.readBack
    | 2 => s.revoke b f.readBack
    | 3 => s.secureBoot b f.readBack f.bootCheck
    | 4 => s.setDomain b
    | _ => s.attest b

def execSecCommandEnd (dt : Nat) (fuses : FuseOutcome) (s : State) : Res :=
  evCmd dt (fun s => s.sec.cmd.isSome) (fun s =>
    match s.sec.cmd with
    | some (b, n) => s.cmdEnd b n fuses
    | none => s) s

/-! ### The secure management domain (R510) -/

/-- Whether a requester may write SEC_DOMAIN. -/
def State.mayDomain (s : State) (who : Requester) : Bool :=
  !s.on F.SEC_DOMAIN_LOCK && (s.isSecure who || (bit (s.rights who) 0 && !s.on F.SEC_FUSE_SECURE_BOOT))

/-- SEC_DOMAIN is written. -/
def State.domainWrite (s : State) (who : Requester) (v : Nat) : State :=
  if s.mayDomain who then
    let s := s.put F.SEC_DOMAIN_CLUSTERS v
    if bit v 31 then s.put F.SEC_DOMAIN_LOCK 1 else s
  else s.logErr siteSec 0x05 0x052

def execDomainLock (dt : Nat) (who : Requester) (v : Word) (s : State) : Res :=
  regCmd dt who O.SEC_DOMAIN (fun s => s.domainWrite who (setBits v.toNat 31 31 1)) s

end Sys2Proof.Machine
end

