-- ==== Sys2Proof/Machine/Evf.lean ====
section
/-! DEFINITION. The Event Fabric's routes and timers (13): pending and active sets, commits and their checks, and
timers. Delivery is in Deliver.lean. -/

namespace Sys2Proof.Machine

/-! ### Routes (R349, R350) -/

/-- A channel's route. -/
structure Route where
  source : Nat
  owner : Nat
  secure : Bool
  count : Nat
  tasks : List Nat
  deriving DecidableEq, Repr

/-- TASK `i` of the entry at `base`. -/
def State.taskAt (s : State) (base i : Nat) : Nat :=
  let w := s.word (base + 4 + i / 2 * 4)
  if i % 2 = 0 then bits w 11 0 else bits w 27 16

/-- The route of the entry at `base`: the first TASKS tasks are used (R349). -/
def State.routeAt (s : State) (base : Nat) : Route :=
  let w := s.word base
  let n := bits w 19 16
  { source := bits w 10 0, owner := bits w 14 12, secure := bit w 15, count := n,
    tasks := (List.range (min n 8)).map fun i => s.taskAt base i }

def pendingBase (n : Nat) : Nat := 0x00C01000 + n * 0x20
def activeBase (n : Nat) : Nat := 0x00C05000 + n * 0x20

def State.pendingRoute (s : State) (n : Nat) : Route := s.routeAt (pendingBase n)
def State.activeRoute (s : State) (n : Nat) : Route := s.routeAt (activeBase n)

/-- The channels with an entry that differs from its reset value, in order. -/
def State.usedChannels (s : State) : List Nat :=
  (List.range 512).filter fun n => s.regs.any fun p =>
    (pendingBase n ≤ p.1 && p.1 < pendingBase (n + 1)) || (activeBase n ≤ p.1 && p.1 < activeBase (n + 1))

/-- The DIRTY channels. -/
def State.dirtyChannels (s : State) : List Nat := s.usedChannels.filter fun n => s.on (F.EVF_CH_CFG_DIRTY n)

/-! ### Links (R348, R384) -/

/-- The sources linked to a task, with whether the link is a timer's. -/
def linked (task : Nat) : List Nat × Bool :=
  if 1664 ≤ task && task < 1696 then ([768 + (task - 1664)], true)
  else if task = 1604 || task = 1605 then ([136 + (task - 1604)], false)
  else if 1536 ≤ task && task < 1600 then ([832 + (task - 1536) / 2, 864, 865, 866], false)
  else ([], false)

/-- Whether a source's events are derived: it is linked to some task (R348). -/
def derivedSource (src : Nat) : Bool :=
  (768 ≤ src && src < 800) || src == 136 || src == 137 || (832 ≤ src && src < 867)

/-! ### Commit checks (R352–R354) -/

/-- A task in a reserved range (R347). -/
def reservedTask (t : Nat) : Bool := (1606 ≤ t && t < 1664) || (1696 ≤ t && t < 1856) || 2048 ≤ t

/-- The first task that a list names twice. -/
def twice : List Nat → Option Nat
  | [] => none
  | t :: ts => if ts.contains t then some t else twice ts

/-- Why a route fails R352, with the offending number. -/
def routeInvalid (r : Route) : Option Nat :=
  if r.owner = 7 then some 7
  else if r.count = 0 then none
  else if 8 < r.count then some r.count
  else if !implemented r.source then some r.source
  else match r.tasks.find? reservedTask with
    | some t => some t
    | none => twice r.tasks

/-- Whether a task is allowed to a route's OWNER (R353). -/
def State.taskAllowed (s : State) (o t : Nat) : Bool :=
  let free := o == 0 || o == 6
  if t < 1536 then free || bit (s.get (F.HIF_CLRIGHTS (t / 128))) o
  else if t < 1600 then free || s.dmaOwner ((t - 1536) / 2) == o
  else if t < 1606 then o == 0
  else if t < 1696 then s.get (F.EVF_TMR_CFG_OWNER (t - 1664)) == o
  else free || (t - 1856) / 32 == o

/-- Whether a task belongs to an engine of the secure management domain (R353). -/
def State.secureTask (s : State) (t : Nat) : Bool := decide (t < 1536) && s.secureEngine (t / 8)

/-- The cause and number for which a route is rejected under R352 or R353. -/
def State.routeBad (s : State) (r : Route) : Option (Nat × Nat) :=
  match routeInvalid r with
  | some v => some (0x001, v)
  | none =>
    match r.tasks.find? fun t => !s.taskAllowed r.owner t with
    | some t => some (0x040, t)
    | none =>
      if r.count != 0 && !r.secure && 64 ≤ r.source && r.source < 128 then some (0x041, r.source)
      else if r.secure then none
      else (r.tasks.find? s.secureTask).map fun t => (0x041, t)

/-- The channels left when those without a plain link onward or from behind are taken away: none if no cycle is free of timer
links (R354). -/
def cyclic (rs : List (Nat × Route)) : Nat → List (Nat × Route)
  | 0 => rs
  | fuel + 1 =>
    let plain := fun (a b : Nat × Route) => a.2.tasks.any fun t => !(linked t).2 && (linked t).1.contains b.2.source
    cyclic (rs.filter fun a => rs.any (plain a) && rs.any fun b => plain b a) fuel

/-- The outcome of the checks on the set that a commit of `chans` would leave: the cause, the first failing channel and the
offending number, or none. -/
def State.checkRoutes (s : State) (chans : List Nat) : Option (Nat × Nat × Nat) :=
  let rs := (s.usedChannels.map fun n => (n, if chans.contains n then s.pendingRoute n else s.activeRoute n)).filter
    fun p => p.2.count != 0 || p.2.owner == 7
  match rs.findSome? fun p => (s.routeBad p.2).map fun b => (b.1, p.1, b.2) with
  | some b => some b
  | none =>
    match (cyclic (rs.filter fun p => p.2.count != 0) 512).head? with
    | some p => some (0x003, p.1, p.2.source)
    | none => none

/-- A word of the active set is replaced; what it held stays known while an event presented up to now waits for its delivery
(R351, R359). -/
def State.swapWord (s : State) (n i : Nat) : State :=
  let off := activeBase n + 4 * i
  let s := if s.presented = [] then s
    else { s with evf := { s.evf with before := s.evf.before ++ [(s.cycle, off, s.word off)] } }
  s.setWord off (s.word (pendingBase n + 4 * i))

/-- The entries of `chans` replace their active entries, and their DIRTY bits clear (R351). -/
def State.swapRoutes (s : State) (chans : List Nat) : State :=
  chans.foldl (fun s n => (List.range 5).foldl (fun (s : State) i => s.swapWord n i) (s.put (F.EVF_CH_CFG_DIRTY n) 0)) s

def State.commitStat (s : State) (r : Nat) : CommitStat := Sparse.get (fun _ => {}) s.evf.stats r

def State.setCommitStat (s : State) (r : Nat) (c : CommitStat) : State :=
  { s with evf := { s.evf with stats := Sparse.set (fun _ => {}) s.evf.stats r c } }

/-- DONE of requester `r` is set (R351). -/
def State.commitDone (s : State) (r : Nat) : State :=
  s.setCommitStat r { s.commitStat r with done := true, doneAt := some s.cycle }

/-- A write of `v` to the requester's EVF_COMMIT_STAT: a 1 clears DONE or REJECTED, except one that is set in this TMP cycle (R8, R363). -/
def State.commitClear (s : State) (r v : Nat) : State :=
  let c := s.commitStat r
  s.setCommitStat r { c with
    done := c.done && (!bit v 1 || c.doneAt == some s.cycle)
    rejected := c.rejected && (!bit v 2 || c.rejectedAt == some s.cycle) }

/-- The error class of a commit's cause (R362). -/
def commitClass (cause : Nat) : Nat := if 0x040 ≤ cause then 0x05 else 0x01

/-- A commit ends (R351): the entries go into the active set, or the commit is rejected. -/
def State.commitEnd (s : State) (r : Nat) (chans : List Nat) : State :=
  match s.checkRoutes chans with
  | none => ((s.swapRoutes chans).commitDone r).raise (768 + 34)
  | some (cause, n, v) =>
    let code := errCode 0x0C (commitClass cause) 0xF cause
    ((s.setCommitStat r { s.commitStat r with
        rejected := true, rejectedAt := some s.cycle, channel := n, code := code }).raise
      (768 + 35)).logErr siteEvf (commitClass cause) cause [n, v]

/-- COALESCE rises by 1 up to 65,535 (R356). -/
def State.coalesce (s : State) (t : Nat) : State := s.put (F.EVF_TASK_COALESCE t) (min 65535 (s.get (F.EVF_TASK_COALESCE t) + 1))

/-- A trigger of a busy task is absorbed, as the EVF shows it: COALESCE, OVERRUN and event 32 (R356). -/
def State.absorb (s : State) (t : Nat) : State := ((s.coalesce t).flag (F.EVF_TASK_OVERRUN t)).raise (768 + 32)

/-- The DIRTY entries that a requester may write (R350, R351). -/
def State.commitChans (s : State) (who : Requester) : List Nat :=
  s.dirtyChannels.filter fun n => s.allowed who (pendingBase n) true

/-- EVF_COMMIT is written (R351, R354). -/
def State.commitStart (s : State) (who : Requester) : State :=
  if s.evf.check.isSome then s.logErr siteEvf 0x01 0x002 []
  else { s with evf := { s.evf with check := some { who := reqCode who, chans := s.commitChans who } } }

def execEvfCommit (dt : Nat) (who : Requester) (s : State) : Res :=
  regCmd dt who O.EVF_COMMIT (fun s => s.commitStart who) s

def execCommitCheckEnd (dt : Nat) (s : State) : Res :=
  evCmd dt (fun s => s.evf.check.isSome) (fun s =>
    match s.evf.check with
    | some c => { s with evf := { s.evf with check := none } }.commitEnd c.who c.chans
    | none => s) s

/-! ### Writes of pending entries (R350, R354) -/

/-- Word `i` of a pending entry after a write, OWNER and SECURE only where the requester may write them (R350). -/
def State.pendingWord (s : State) (who : Requester) (n i v : Nat) : Nat :=
  let old := s.word (pendingBase n + 4 * i)
  if i = 0 then
    let w := setBits (setBits old 10 0 v) 19 16 (v / 2 ^ 16)
    let w := if s.holdsPf0 who || who == .fab then setBits w 14 12 (v / 2 ^ 12) else w
    if s.isSecure who || (who == .fab && s.fab.opening) then setBits w 15 15 (v / 2 ^ 15) else w
  else setBits (setBits old 11 0 v) 27 16 (v / 2 ^ 16)

/-- A word of a pending entry is written (R350, R354). -/
def State.pendingWrite (s : State) (who : Requester) (n i v : Nat) : State :=
  if s.stationLocked 9 then s.lockedWrite 9 (pendingBase n + 4 * i)
  else if s.evf.check.isSome then s.logErr siteEvf 0x01 0x002 [n]
  else (s.setWord (pendingBase n + 4 * i) (s.pendingWord who n i v)).put (F.EVF_CH_CFG_DIRTY n) 1

def execEvfPendingWrite (dt : Nat) (who : Requester) (n : Fin 512) (word : Fin 5) (value : Word) (s : State) : Res :=
  regCmd dt who (pendingBase n + 4 * word) (fun s => s.pendingWrite who n word value.toNat) s

/-! ### Timers (R358) -/

/-- DELAY as it acts. -/
def State.timerDelay (s : State) (t : Nat) : Nat := max 1 (s.get (F.EVF_TMR_DELAY t))

/-- A timer is started in this TMP cycle. -/
def State.timerStart (s : State) (t : Nat) : State :=
  { s with evf := { s.evf with started := Sparse.set (fun _ => 0) s.evf.started t s.cycle } }.put
    (F.EVF_TMR_CFG_RUNNING t) 1

/-- Whether a running timer has reached DELAY (R358). -/
def State.timerDue (s : State) (t : Nat) : Bool :=
  s.on (F.EVF_TMR_CFG_RUNNING t) && Sparse.get (fun _ => 0) s.evf.started t + s.timerDelay t ≤ s.cycle

/-- A timer expires: it presents its source, stops and counts (R358). -/
def State.timerExpire (s : State) (t : Nat) : State :=
  ((s.put (F.EVF_TMR_CFG_RUNNING t) 0).bump (F.EVF_TMR_FIRES t)).raise (768 + t)

/-- Whether a timer absorbs a trigger (R356, R358); one whose expiry is due in this cycle does not (R359). -/
def State.timerBusy (s : State) (t : Nat) : Bool :=
  s.on (F.EVF_TMR_CFG_RUNNING t) && !s.on (F.EVF_TMR_CFG_RETRIG t) && !s.timerDue t

/-- A trigger that the timer takes (R358). An expiry of the same cycle comes before the new run (R359). -/
def State.timerTrigger (s : State) (t : Nat) : State :=
  if s.on (F.EVF_TMR_CFG_EN t) then (if s.timerDue t then s.timerExpire t else s).timerStart t else s

def execEvfTimerExpire (dt : Nat) (t : Fin 32) (s : State) : Res :=
  evCmd dt (fun s => s.timerDue t) (fun s => s.timerExpire t) s

/-- Clearing EN stops a running timer without an event. -/
def State.timerStop (s : State) (t : Nat) : State := s.put (F.EVF_TMR_CFG_RUNNING t) 0

end Sys2Proof.Machine
end

