-- ==== Sys2Proof/Machine/Ipl.lean ====
section
/-! DEFINITION. The inspection pipeline (09): tables, the delay store and statistics, stitching, coverage,
comparison, segmentation, streaks, missed coverage, the machine-vision ring, and its states. -/

namespace Sys2Proof.Machine

/-! ### Tables (R269) -/

/-- The width of an entry, by selector. -/
def tblWidth (sel : Nat) : Nat :=
  match sel with
  | 0 => 16
  | 1 => 32
  | 2 => 32
  | 3 => 12
  | 4 => 12
  | 5 => 24
  | 6 => 24
  | _ => 8

/-- The number of entries, by selector. -/
def tblSize (sel : Nat) : Nat :=
  match sel with
  | 0 => 16 * 12288
  | 1 => 16 * 16384
  | 2 => 16 * 1024
  | 3 => 4913 * 8
  | 4 => 4913 * 8
  | 5 => 144
  | 6 => 144
  | _ => 4096

/-- An entry never written holds an undefined value. -/
def tblDefault (i : Nat) : Cell := { bits := Config.undefWord (2 ^ 41 + i) }

def tblKey (sel idx : Nat) : Nat := 2 ^ 20 * sel + idx

def State.tblCell (s : State) (sel idx : Nat) : Cell := Sparse.get tblDefault s.ipl.tbl (tblKey sel idx)

/-- What a table holds of a value: the entry's width, less the reserved bits of a class's SEVERITY and MIN_AREA (R269). -/
def tblValue (sel idx v : Nat) : Nat :=
  let v := v % 2 ^ tblWidth sel
  if (sel == 5 || sel == 6) && 128 ≤ idx then setBits v 7 4 0 else v

/-- The value of an entry; none where it is uncorrectable. -/
def State.tblAt (s : State) (sel idx : Nat) : Option Nat :=
  let c := s.tblCell sel idx
  if c.lost then none else some (tblValue sel idx c.bits.toNat)

/-- Entries used by a line: corrected ones are counted, uncorrectable ones latched and logged (R234). -/
def State.touchTbl (s : State) (k : Nat) (keys : List (Nat × Nat)) : State :=
  keys.foldl (fun s p =>
    match (s.tblCell p.1 p.2).mark with
    | .good => s
    | .corrected => s.bump F.IPL_ECC_CORR
    | _ => ((s.put F.IPL_TBL_ECC_UNCORR_SEL p.1).put F.IPL_TBL_ECC_UNCORR_ADDR p.2).logErr siteIpl 0x02 0x011
        [k % 2 ^ 32, p.1]) s

/-- Whether a table belongs to the active bank of the enabled IPL (R260). -/
def State.tblActive (s : State) (sel : Nat) : Bool :=
  s.get F.IPL_STAT_STATE != unitDisabled && (sel == 3 + s.get F.IPL_STAT_ACTIVE_BANK || sel == 5 + s.get F.IPL_STAT_ACTIVE_BANK)

/-- Whether a splice locks a table of the shadow bank (R309). -/
def State.tblLocked (s : State) (sel : Nat) : Bool :=
  s.stationLocked 8 && 3 ≤ sel && sel ≤ 6 && (sel - 3) % 2 != s.iplBank

/-- A write to the active bank is discarded (R260). -/
def State.iplActiveWrite (s : State) (detail : Nat) : State :=
  (s.flag F.IPL_STAT_WR_ACTIVE).logErr siteIpl 0x01 0x002 [0, detail]

/-- A write of a table entry, by software or the FAB (R260, R269, R297). -/
def State.tblWrite (s : State) (sel idx v : Nat) : State :=
  if tblSize sel ≤ idx then s.logErr siteIpl 0x01 0x003 [0, sel]
  else if s.tblActive sel then s.iplActiveWrite sel
  else if s.tblLocked sel then s.lockedWrite 8 O.IPL_TBL_DATA
  else { s with ipl := { s.ipl with
    tbl := Sparse.set tblDefault s.ipl.tbl (tblKey sel idx) { bits := BitVec.ofNat 64 (tblValue sel idx v) } } }

/-- An access of IPL_TBL DATA (R269). -/
def State.tblAccess (s : State) (who : Requester) (data : Option Word) : State :=
  let sel := s.get F.IPL_TBL_SEL
  let idx := s.get F.IPL_TBL_ADDR
  match data with
  | some v =>
    let s' := s.tblWrite sel idx v.toNat
    if tblSize sel ≤ idx then s' else s'.bump F.IPL_TBL_ADDR
  | none =>
    if tblSize sel ≤ idx then (s.logErr siteIpl 0x01 0x003 [0, sel]).emit (.readData who O.IPL_TBL_DATA 0)
    else
      let s := s.touchTbl 0 [(sel, idx)]
      let v := tblValue sel idx (s.tblCell sel idx).bits.toNat
      (s.emit (.readData who O.IPL_TBL_DATA v)).bump F.IPL_TBL_ADDR

def execIplTableAccess (dt : Nat) (who : Requester) (data : Option Word) (s : State) : Res :=
  match data with
  | some _ => regCmd dt who O.IPL_TBL_DATA (fun s => s.tblAccess who data) s
  | none => readCmd dt who O.IPL_TBL_DATA (fun s => s.tblAccess who data) s

/-! ### Camera samples: stages 1 to 3 (R231–R234) -/

/-- The flags of R212, bit by bit in its order. -/
def flShort : Nat := 1
def flLong : Nat := 2
def flMissing : Nat := 4
def flDual : Nat := 8
def flBad : Nat := 16
def flUnconfirmed : Nat := 32

/-- Whether a line's samples are void as a whole (R234). -/
def PortLine.void (l : PortLine) : Bool := l.flags / flMissing % 2 == 1 || l.flags / flBad % 2 == 1

/-- Whether sample `i` of a line is one that was not received (R234). -/
def PortLine.padded (l : PortLine) (dual : Bool) (i : Nat) : Bool :=
  l.got ≤ i || (dual && l.gotShort ≤ i)

/-- Whether a failed word of the delay store holds sample `i` (R267). -/
def PortLine.failed (l : PortLine) (i : Nat) : Bool := l.lost.1 ≤ i && i < l.lost.1 + l.lost.2

/-- The index of a linearisation entry (R231, R269). -/
def State.linIndex (s : State) (n i x : Nat) : Nat := n * 12288 + i % s.iplComps * 4096 + x

/-- L of sample `i` with camera value `x` (R231). -/
def State.lin (s : State) (n i x : Nat) : Option Nat := s.tblAt 0 (s.linIndex n i x)

/-- M of a sample pair (R232). -/
def merge (knee sat ratio ll ls : Nat) : Nat :=
  let sr := min (2 ^ 20 - 1) ((ls * ratio + 128) / 256)
  if ll ≤ knee then ll
  else if sat ≤ ll then sr
  else
    let w := (ll - knee) * 256 / (sat - knee)
    ((256 - w) * ll + w * sr + 128) / 256

/-- C of a merged sample (R233). -/
def correct (m dark flat : Nat) : Nat :=
  (min 65535 (max 0 ((((m : Int) - dark) * flat + 8192) / 16384))).toNat

/-- L of sample `i`, long and short; none where the sample is void (R234). -/
def State.linPair (s : State) (n : Nat) (dual : Bool) (l : PortLine) (i x : Nat) : Option (Nat × Nat) :=
  if l.void || l.padded dual i || (s.tblAt 1 (n * 16384 + i)).isNone then none
  else
    match s.lin n i x, (if dual then s.lin n i (l.short.getD i 0) else some 0) with
    | some a, some b => some (a, b)
    | _, _ => none

/-- C of every sample of a port line; none where void (R231–R234). -/
def State.cSamples (s : State) (n : Nat) (dual : Bool) (l : PortLine) : Array (Option Nat) :=
  ((l.samples.mapIdx fun i x =>
    if l.failed i then none
    else
      match s.linPair n dual l i x, s.tblAt 1 (n * 16384 + i) with
      | some (a, b), some e =>
        let m := if dual then merge (s.get F.IPL_MERGE_KNEE) (s.get F.IPL_MERGE_SAT) l.ratio a b else a
        some (correct m (e % 2 ^ 16) (e / 2 ^ 16))
      | _, _ => none)).toArray

/-- The table entries that stages 1 to 3 use for a line. -/
def State.sampleKeys (s : State) (n : Nat) (dual : Bool) (l : PortLine) : List (Nat × Nat) :=
  if l.void then []
  else (l.samples.mapIdx fun i x =>
    if l.padded dual i then []
    else (0, s.linIndex n i x) :: (1, n * 16384 + i)
      :: (if dual then [(0, s.linIndex n i (l.short.getD i 0))] else [])).flatten

/-! ### The delay store and statistics (R229, R236, R255, R256) -/

def State.stored (s : State) (n : Nat) : List PortLine := Sparse.get (fun _ => []) s.ipl.store n

def State.setStored (s : State) (n : Nat) (l : List PortLine) : State :=
  { s with ipl := { s.ipl with store := Sparse.set (fun _ => []) s.ipl.store n l } }

/-- The enabled slots in order. -/
def State.slots (s : State) : List Nat := (List.range 16).filter fun i => s.on (F.IPL_SLOT_CFG_EN i)

def State.slotPort (s : State) (i : Nat) : Nat := s.get (F.IPL_SLOT_CFG_PORT i)
def State.slotDelay (s : State) (i : Nat) : Nat := s.get (F.IPL_SLOT_CFG_DELAY i)

/-- The samples that the delay store holds. -/
def State.storeUsed (s : State) : Nat :=
  s.slots.foldl (fun a i => a + ((s.stored (s.slotPort i)).map fun l => l.samples.length).sum) 0

/-- Port lines that no line still to form needs are let go: those for stitched lines before `k`. -/
def State.storeTrim (s : State) (k : Nat) : State :=
  s.slots.foldl (fun s i =>
    s.setStored (s.slotPort i) ((s.stored (s.slotPort i)).filter fun l => k + s.slotDelay i ≤ l.k)) s

/-- There is no room for line `k` of a port that feeds slot `slot`: the oldest stitched line not yet formed is handled as void in
every slot (R229). -/
def State.storeOverflow (s : State) (k slot : Nat) : State :=
  let s := (s.logErr siteIpl 0x03 0x020 [k % 2 ^ 32, slot]).raise (512 + 12)
  match s.ipl.todo.find? fun t => !t.lost with
  | none => s
  | some t =>
    let todo := s.ipl.todo.map fun (u : StLine) => if u.k = t.k then { u with lost := true } else u
    { s with ipl := { s.ipl with todo := todo } }.storeTrim (t.k + 1)

/-- Room is made for a port line, voiding one stitched line after another (R229). -/
def State.storeRoom (s : State) (k slot need : Nat) : Nat → State
  | 0 => s
  | fuel + 1 =>
    if s.storeUsed + need ≤ 2097152 || s.ipl.todo.all (·.lost) then s
    else (s.storeOverflow k slot).storeRoom k slot need fuel

def State.portStats (s : State) (n : Nat) : PortStats := Sparse.get (fun _ => {}) s.ipl.stats n

def State.setPortStats (s : State) (n : Nat) (p : PortStats) : State :=
  { s with ipl := { s.ipl with stats := Sparse.set (fun _ => {}) s.ipl.stats n p } }

/-- Z (R255). -/
def State.zones (s : State) : Nat := max 1 (s.get F.IPL_STATS_CFG_ZONES)

/-- The zone of a camera pixel: the last one that starts at or before it (R255). -/
def zoneOf (z p px : Nat) : Nat := ((List.range z).filter fun i => i * p / z ≤ px).length - 1

/-- A line's non-void samples enter the port's statistics (R255). -/
def State.statsLine (s : State) (n : Nat) (dual : Bool) (l : PortLine) : State :=
  let st := s.portStats n
  let first := st.first.getD (l.setId, l.exposeAt)
  let other := l.setId != first.1 || l.flags / flUnconfirmed % 2 == 1
  let flags := st.flags ||| (b2n other + 2 * b2n (l.flags % 8 != 0) + 4 * b2n (l.flags / flBad % 2 == 1))
  let st := { st with first := some first, flags := flags }
  if l.flags / flMissing % 2 = 1 then s.setPortStats n st
  else
    let nc := s.iplComps
    let p := l.samples.length / nc
    let z := s.zones
    let st := { st with lines := st.lines + 1 }
    let add := fun (st : PortStats) (q : Nat × Nat) =>
      match s.linPair n dual l q.1 q.2 with
      | none => st
      | some (v, _) =>
        let c := q.1 % nc
        let h := c * 256 + v / 256
        let zi := zoneOf z p (q.1 / nc) * 3 + c
        let zo := Sparse.get (fun _ => (0, 0)) st.zones zi
        { st with
          samples := st.samples + 1, clipped := st.clipped + b2n (q.2 == 4095),
          hist := Sparse.set (fun _ => 0) st.hist h (Sparse.get (fun _ => 0) st.hist h + 1),
          zones := Sparse.set (fun _ => (0, 0)) st.zones zi (zo.1 + v, zo.2 + 1) }
    s.setPortStats n ((l.samples.mapIdx fun i x => (i, x)).foldl add st)

/-- A zone's mean; over no samples the manual states none, and it is free. -/
def State.zoneMean (s : State) (q : Nat × Nat) : Nat × State :=
  if q.2 = 0 then
    let (v, s) := s.draw
    (v.toNat % 2 ^ 16, s)
  else (q.1 / q.2, s)

/-- The 4,096 bytes of a statistics record (R256). -/
def State.statsRecord (s : State) (n strip : Nat) (st : PortStats) : List Byte × State :=
  let nc := s.iplComps
  let z := s.zones
  let (zs, s) := (List.range 192).foldl (fun (a : List Byte × State) i =>
    let (v, s) := if i / 3 < z && i % 3 < nc then a.2.zoneMean (Sparse.get (fun _ => (0, 0)) st.zones i) else (0, a.2)
    (a.1 ++ toBytes 4 v, s)) ([], s)
  let f := st.first.getD (0, 0)
  let hist := (List.range 768).flatMap fun i => toBytes 4 (min (2 ^ 32 - 1) (Sparse.get (fun _ => 0) st.hist i))
  (toBytes 4 strip ++ toBytes 1 n ++ toBytes 1 nc ++ toBytes 2 f.1 ++ toBytes 2 st.flags ++ toBytes 2 z
    ++ toBytes 4 st.lines ++ toBytes 8 st.samples ++ toBytes 8 st.clipped ++ toBytes 8 f.2 ++ toBytes 24 0
    ++ hist ++ zs ++ toBytes 192 0, s)

/-- A port completes a strip: its statistics are written, where statistics are enabled, and cleared (R255, R256). -/
def State.statsWrite (s : State) (n strip : Nat) : State :=
  let st := s.portStats n
  let s := s.setPortStats n {}
  if !s.on F.IPL_STATS_CFG_EN || s.get F.IPL_STAT_STATE = unitDisabled then s
  else
    let size := 2 ^ s.get F.IPL_STATS_CFG_SIZE_LOG2
    let prod := s.get F.IPL_STATS_PROD
    let detail := [((s.get F.IPL_LINE) % 2 ^ 32), n]
    if size ≤ (prod + 2 ^ 32 - s.get F.IPL_STATS_CONS) % 2 ^ 32 then
      let s := s.bump F.IPL_STATS_LOST
      let s := if s.ipl.statsFull then s else
        { s with ipl := { s.ipl with statsFull := true } }.logErr siteIpl 0x06 0x031 detail
      s.raise (512 + 4)
    else
      let s := { s with ipl := { s.ipl with statsFull := false } }
      let (r, s) := s.statsRecord n strip st
      let (ok, s) := s.memWrite 9 (s.get F.IPL_STATS_BASE + prod % size * 4096) r
      if ok then
        let s := s.bump F.IPL_STATS_PROD
        if s.on F.IPL_STATS_CFG_EVENT then s.raise (512 + 3) else s
      else s.logErr siteIpl 0x02 0x013 detail

/-- A line goes into the delay store, whose words may be upset there (R236; DESIGN CHOICE, assumption 100): which samples a failed
word holds is free. -/
def State.store (s : State) (n : Nat) (l : PortLine) : State :=
  let (v, s) := s.draw
  let (w, s) := s.draw
  let lost := (w.toNat % l.samples.length, w.toNat / 2 ^ 32 % 64 + 1)
  let mark := upsetOf v
  let l := { l with mark := mark, lost := if mark = .uncorrectable then lost else (0, 0) }
  s.setStored n (s.stored n ++ [l])

/-- A slot's line comes out of the store: corrected words are counted, a failed one is logged (R267, R268). -/
def State.touchStore (s : State) (k slot : Nat) (l : Option PortLine) : State :=
  match l.map (fun (p : PortLine) => p.mark) with
  | some .corrected => s.bump F.IPL_ECC_CORR
  | some .uncorrectable | some .poison => s.logErr siteIpl 0x02 0x010 [k % 2 ^ 32, slot]
  | _ => s

/-- A port delivers a line (R229, R236, R255). -/
def State.iplTake (s : State) (n : Nat) (l : PortLine) : State :=
  if s.get F.IPL_STAT_STATE = unitDisabled then s
  else
    let dual := s.on (F.CIN_PORT_CFG_DUAL n)
    let s := s.touchTbl l.k (s.sampleKeys n dual l)
    let s := if s.on F.IPL_STATS_CFG_EN then s.statsLine n dual l else s
    match s.slots.find? fun i => s.slotPort i == n with
    | none => s
    | some i =>
      let s := s.storeRoom l.k i l.samples.length (s.ipl.todo.length + 1)
      if s.ipl.todo.any fun t => t.lost && t.k + s.slotDelay i == l.k then s else s.store n l

/-! ### Forming a stitched line: stages 4 and 5 (R235–R238) -/

/-- Whether a port can no longer deliver line `k` (R238). -/
def State.portPast (s : State) (n k : Nat) : Bool :=
  let st := s.get (F.CIN_PORT_STAT_STATE n)
  st == 0 || st == 3 || (match (Sparse.get (fun _ => {}) s.cin n).lastK with
    | some j => decide (k ≤ j)
    | none => false)

/-- The line of a slot's port for stitched line `k`. -/
def State.slotLine (s : State) (i k : Nat) : Option PortLine :=
  (s.stored (s.slotPort i)).find? fun l => l.k == k + s.slotDelay i

/-- The stitched line that can form now (R238). -/
def State.formable (s : State) : Option StLine :=
  match s.ipl.todo with
  | [] => none
  | t :: _ =>
    if t.lost || s.slots.all fun i => (s.slotLine i t.k).isSome || s.portPast (s.slotPort i) (t.k + s.slotDelay i)
    then some t else none

/-- A mapping table entry as a signed position (R235). -/
def State.mapPos (s : State) (i e : Nat) : Option Int := (s.tblAt 2 (i * 1024 + e)).map (signed 32)

/-- The value of stitched pixel `u` in slot `i` (R235). -/
def State.slotPixel (s : State) (i : Nat) (cs : Array (Option Nat)) (u : Nat) : Option (List Nat) :=
  let nc := s.iplComps
  let p := cs.size / nc
  let j := u - s.get (F.IPL_SLOT_U_START i)
  let e := j / 64
  let g := j % 64
  match s.mapPos i e, s.mapPos i (e + 1) with
  | some a, some b =>
    let src := a + ((b - a) * g + 32) / 64
    if src < 0 || ((2 ^ 14 * (p - 1) : Nat) : Int) < src then none
    else
      let q := (src / 2 ^ 14).toNat
      let f := (src / 64 % 256).toNat
      (List.range nc).mapM fun c =>
        let at_ := fun (q : Nat) => cs.getD (q * nc + c) none
        if f = 0 then at_ q
        else match at_ q, at_ (q + 1) with
          | some x, some y => some ((x * (256 - f) + y * f + 128) / 256)
          | _, _ => none
  | _, _ => none

/-- The pixels of a slot on a line, over its whole span. -/
def State.slotPixels (s : State) (i : Nat) (line : Option PortLine) : Nat × List (Option (List Nat)) :=
  let u0 := s.get (F.IPL_SLOT_U_START i)
  let us := (List.range (s.get (F.IPL_SLOT_U_END i) + 1 - u0)).map (u0 + ·)
  match line with
  | none => (u0, us.map fun _ => none)
  | some l =>
    let cs := s.cSamples (s.slotPort i) (s.on (F.CIN_PORT_CFG_DUAL (s.slotPort i))) l
    (u0, us.map fun u => s.slotPixel i cs u)

/-- A stitched pixel (R237): C per component, none where void, and the camera mask. -/
structure StPixel where
  c : Option (List Nat)
  mask : Nat
  deriving DecidableEq, Repr

/-- Two slots' values at `j` of an overlap of `n` pixels (R237). -/
def blend (n j : Nat) (a b : List Nat) : List Nat :=
  (a.zip b).map fun p => (p.1 * (n - j) + p.2 * (j + 1) + (n + 1) / 2) / (n + 1)

/-- Stitched pixel `u` from the slots' pixels (slot, first pixel, pixels), in slot order (R237). -/
def State.stitch (s : State) (slots : List (Nat × Nat × List (Option (List Nat)))) (u : Nat) : StPixel :=
  let here := slots.filterMap fun p =>
    if p.2.1 ≤ u then (p.2.2[u - p.2.1]?).map fun v => (p.1, p.2.1, v) else none
  let cam := fun (i : Nat) => 2 ^ s.slotPort i
  match here with
  | [(i, _, some v)] => { c := some v, mask := cam i }
  | (i, _, a) :: (j, ub, b) :: _ =>
    match a, b with
    | some a, some b =>
      let n := s.get (F.IPL_SLOT_U_END i) + 1 - ub
      { c := some (blend n (u - ub) a b), mask := cam i ||| cam j }
    | some a, none => { c := some a, mask := cam i }
    | none, some b => { c := some b, mask := cam j }
    | none, none => { c := none, mask := 0 }
  | _ => { c := none, mask := 0 }

/-! ### Coverage and comparison: stages 6 to 8 (R239, R246, R247) -/

/-- x_R, x_G and x_B of a stitched pixel. -/
def rgb (c : List Nat) : List Nat :=
  match c with
  | [x] => [x, x, x]
  | c => c

/-- The axes by fraction descending, equal ones in the order R, G, B. -/
def axes (f : List Nat) : List Nat :=
  sortBy (fun a b => decide (f.getD b 0 ≤ f.getD a 0)) [0, 1, 2]

/-- The nodes and weights of the walk (R239). -/
def walk (x : List Nat) : List (Nat × Nat) :=
  let i := x.map (· / 4096)
  let f := x.map (· % 4096)
  let start := i.getD 0 0 * 289 + i.getD 1 0 * 17 + i.getD 2 0
  let step := fun (a : Nat) => if a = 0 then 289 else if a = 1 then 17 else 1
  let (ws, node, prev) := (axes f).foldl (fun (a : List (Nat × Nat) × Nat × Nat) ax =>
    (a.1 ++ [(a.2.1, a.2.2 - f.getD ax 0)], a.2.1 + step ax, f.getD ax 0)) ([], start, 4096)
  ws ++ [(node, prev)]

/-- Coverage of a pixel on a channel (R239). -/
def State.coverage (s : State) (b ch : Nat) (w : List (Nat × Nat)) : Option Nat :=
  (w.foldl (fun (a : Option Nat) p =>
    match a, s.tblAt (3 + b) (p.1 * 8 + ch) with
    | some a, some v => some (a + p.2 * v)
    | _, _ => none) (some 2048)).map fun v => min 4095 (v / 4096)

/-- The tolerance cells of line `k` (R246): the row read at its first line. -/
def State.tolRow (s : State) (b k : Nat) : Option TolRow × State :=
  let l0 := s.get (F.IPL_BANK_TOL_LINE0 b)
  if k < l0 then (none, s)
  else
    let r := (k - l0) / 16
    let hit := s.ipl.tol.filter fun t => t.bank == b && t.row == r
    match hit with
    | some t => (some t, s)
    | none =>
      let rows := s.get (F.IPL_BANK_TOL_GEOM_ROWS_M1 b) + 1
      let cols := s.get (F.IPL_BANK_TOL_GEOM_COLS_M1 b) + 1
      let (d, s) := s.memRead 9 (s.get (F.IPL_BANK_TOL_BASE b) + r % rows * cols) ((s.stWidth + 15) / 16)
      let t : TolRow := { bank := b, row := r, bytes := d.map fun l => l.map (·.toNat) }
      let s := if d.isSome then s else s.logErr siteIpl 0x02 0x012 [k % 2 ^ 32, b]
      (some t, { s with ipl := { s.ipl with tol := some t } })

/-- The class of a pixel; none where the cell row could not be read. -/
def classOf (t : Option TolRow) (u : Nat) : Option Nat :=
  match t with
  | none => some 0
  | some t => t.bytes.map fun l => l.getD (u / 16) 0 % 16

/-- A pixel after stage 8 (R247): its place and class, whether it is missed (R254), the value of the difference tap,
d per channel, and for one that exceeds its excess and key. -/
structure Judged where
  u : Nat
  cls : Nat
  mask : Nat
  void : Bool
  missed : Bool
  tap : Nat
  ds : List Int
  exceed : Option (Int × Nat × Bool)
  deriving DecidableEq, Repr

/-- The largest excess with the lowest channel that reaches it (R247). -/
def largest (l : List (Int × Nat × Bool)) : Option (Int × Nat × Bool) :=
  l.foldl (fun a p =>
    match a with
    | none => some p
    | some q => if q.1 < p.1 then some p else a) none

/-- LO and HI of a class and channel. -/
def State.limits (s : State) (b cls ch : Nat) : Option (Nat × Nat) :=
  (s.tblAt (5 + b) (cls * 8 + ch)).map fun e => (e % 4096, e / 4096)

/-- Stages 6 to 8 of a pixel (R239, R247); `refs` is the reference per channel, and `unread` says what a pixel of an
unreadable tolerance cell counts as for R254. -/
def State.judge (s : State) (b : Nat) (t : Option TolRow) (unread : Bool) (refs : List (Option Nat)) (u : Nat)
    (p : StPixel) : Judged :=
  let cls := classOf t u
  let covs := match p.c with
    | none => none
    | some c => (List.range s.channels).mapM fun ch => s.coverage b ch (walk (rgb c))
  let refs := refs.mapM id
  let c := cls.getD 0
  let inspected := match cls with
    | some c => c != 0
    | none => unread
  match covs, refs, cls.isSome with
  | some cv, some rf, true =>
    let ds := (cv.zip rf).map fun q => ((q.1 : Int) - (q.2 : Int))
    let lims := (List.range s.channels).mapM fun ch => s.limits b c ch
    let tap := min 255 ((ds.foldl (fun m d => max m d.natAbs) 0) / 8)
    match (if c = 0 then some [] else lims) with
    | none => { u := u, cls := c, mask := p.mask, void := true, missed := true, tap := tap, ds := ds, exceed := none }
    | some lims =>
      let exs := ((ds.zip lims).mapIdx fun ch q =>
        ((if q.1 < 0 then -q.1 - (q.2.1 : Int) else q.1 - (q.2.2 : Int)), ch, decide (0 < q.1)))
      { u := u, cls := c, mask := p.mask, void := false, missed := false, tap := tap, ds := ds,
        exceed := (largest exs).filter fun e => 0 < e.1 }
  | _, _, _ =>
    { u := u, cls := c, mask := p.mask, void := true, missed := inspected, tap := 255, ds := [], exceed := none }

/-! ### Defect records (R251, R252) -/

/-- PITCH of the IPL's generator in 2^-16 nm. -/
def State.iplPitch (s : State) : Nat := s.get (F.WTU_LG_PITCH (s.get F.IPL_CTRL_LG))

/-- JOB_ID and repeat index of a line (R252), with the RRU's bank `b`; where no bar line corresponds, the repeat index is free. -/
def State.jobOf (s : State) (b pos : Nat) : Nat × Nat × State :=
  let n := s.refPipe b 0
  let pb := s.refBank b 0
  let job := s.get (F.RP_BANK_JOB_ID n pb)
  match s.refY b 0 pos with
  | some y => (job, y / s.repLines n pb 0, s)
  | none =>
    let (v, s) := s.draw
    (job, v.toNat % 2 ^ 32, s)

/-- The suspected nozzle at column `u` on channel `ch` of the RRU's bank `b` (R252). -/
def State.suspect (s : State) (b ch u : Nat) : Option Nat :=
  let n := s.refPipe b ch
  let pb := s.refBank b ch
  let x := s.refX b ch u
  if x < 0 || (s.width n pb : Int) ≤ x then none
  else
    match (List.range 4).find? fun f => s.on (F.RP_BANK_ROW_CFG_EN n pb f) with
    | none => none
    | some f => s.nozzleAt n pb f x.toNat

/-- The CAUSE_DATA of an IPL record (R273): DELTA_ch of the coverage deltas. -/
def deltas (l : List Int) : Nat :=
  (l.mapIdx fun i d => field (8 * i) 8 (unsigned 8 (max (-128) (min 127 (d / 16))))).sum

/-- The fields that every IPL record carries (R252). -/
def State.iplDefect (s : State) (cause sev : Nat) (first last : LineTag) (u0 u1 mask : Nat) : Defect :=
  { severity := sev, cause := cause, source := 8, job := first.job, rep := first.rep,
    wcoStart := first.pos / 2 ^ 16, wcoEnd := (last.pos + s.iplPitch) / 2 ^ 16, tempo := first.exposeAt,
    strip := first.strip, xStart := u0, xEnd := u1, cameras := mask }

/-- A BLOB record is issued (R251, R252). -/
def State.issueBlob (s : State) (d : Defect) : State := ((s.issue rankIpl d).bump F.IPL_BLOBS).raise 512

/-- A held record goes out with its crop descriptor (R251, R275). -/
def State.issueHeld (s : State) (h : HeldBlob) : State :=
  let crop := cropWords 1 0 (s.get F.IPL_MV_PROD) h.first (h.last - h.first + 1) h.u0 h.u1
  ((s.offer rankIpl [h.d.words 1, crop]).bump F.IPL_BLOBS).raise 512

/-- The held records whose last crop line the ring has written go out (R251). -/
def State.issueReady (s : State) : State :=
  let prod := s.get F.IPL_MV_PROD
  let out := s.ipl.held.takeWhile fun h => h.last < prod
  out.foldl (fun s h => s.issueHeld h) { s with ipl := { s.ipl with held := s.ipl.held.drop out.length } }

/-- SEVERITY and MIN_AREA of a class; free where the entry has failed (R269). -/
def State.classInfo (s : State) (b cls : Nat) : Nat × Nat :=
  let e := (s.tblAt (5 + b) (128 + cls)).getD (Config.undefWord (2 ^ 42 + tblKey (5 + b) cls)).toNat
  (bits e 3 0, bits e 23 8)

/-- A blob closes (R250–R252). -/
def State.closeBlob (s : State) (b : Nat) (l : Blob) : State :=
  let s := s.touchTbl l.last.k [(5 + b, 128 + l.cls)]
  let (sev, min_) := s.classInfo b l.cls
  let rb := l.first.rbank
  if l.area < min_ then s.bump F.IPL_BLOBS_SMALL
  else
    let d : Defect := { s.iplDefect 1 sev l.first l.last l.u0 l.u1 l.mask with
      bar := some (s.refPipe rb l.key.1), nozzle := s.suspect rb l.key.1 ((l.u0 + l.u1) / 2),
      data := deltas (l.sums.map fun v => v / (l.area : Int)) }
    if s.on F.IPL_CROP_EN then
      let m := s.get F.IPL_CROP_MARGIN
      let h : HeldBlob := {
        d := d, first := l.first.mv - m, last := l.last.mv + m, u0 := l.u0 - m,
        u1 := min (s.stWidth - 1) (l.u1 + m) }
      { s with ipl := { s.ipl with held := s.ipl.held ++ [h] } }.issueReady
    else s.issueBlob d

/-- Blobs that close on one line, in order of their first line, then smaller u (R263). -/
def State.closeBlobs (s : State) (b : Nat) (ls : List Blob) : State :=
  (sortBy (fun x y => decide (x.first.k < y.first.k) || (x.first.k == y.first.k && decide (x.u0 ≤ y.u0))) ls).foldl
    (fun s l => s.closeBlob b l) s

/-! ### Segmentation (R248–R250) -/

/-- A run of exceeding pixels on a line. -/
structure SegRun where
  s0 : Nat
  e0 : Nat
  pix : List Judged
  clipped : Bool := false
  deriving DecidableEq, Repr

/-- The runs of a line, gaps of at most MERGE_X joined (R248), the last one first. -/
def segRuns (mergeX : Nat) (pix : List Judged) : List SegRun :=
  pix.foldl (fun runs p =>
    match runs with
    | [] => [{ s0 := p.u, e0 := p.u, pix := [p] }]
    | r :: rs =>
      if p.u ≤ r.e0 + 1 + mergeX then { r with e0 := p.u, pix := p :: r.pix } :: rs
      else if 4096 ≤ runs.length then { r with e0 := p.u, pix := p :: r.pix, clipped := true } :: rs
      else { s0 := p.u, e0 := p.u, pix := [p] } :: runs) []

/-- Whether a run on line `k` joins a blob (R249). -/
def joins (mergeX mergeY k : Nat) (r : SegRun) (l : Blob) : Bool :=
  l.runs.any fun q => k ≤ q.1 + mergeY + 1 && r.s0 ≤ q.2.2 + 1 + mergeX && q.2.1 ≤ r.e0 + 1 + mergeX

/-- The better of two classes: the higher SEVERITY, the lower class winning a tie (R249). -/
def State.betterClass (s : State) (b x y : Nat) : Nat :=
  let sx := (s.classInfo b x).1
  let sy := (s.classInfo b y).1
  if sx < sy then y else if sy < sx then x else min x y

/-- The sums of two lists. -/
def addLists (a b : List Int) : List Int := if a = [] then b else if b = [] then a else (a.zip b).map fun p => p.1 + p.2

/-- Two parts of one blob united (R249). -/
def State.unite (s : State) (b : Nat) (x y : Blob) : Blob :=
  { first := if y.first.k < x.first.k then y.first else x.first,
    last := if x.last.k < y.last.k then y.last else x.last,
    u0 := min x.u0 y.u0, u1 := max x.u1 y.u1, area := x.area + y.area, sums := addLists x.sums y.sums,
    excess := if x.excess < y.excess then y.excess else x.excess,
    key := if x.excess < y.excess then y.key else x.key,
    mask := x.mask ||| y.mask, cls := s.betterClass b x.cls y.cls, clipped := x.clipped || y.clipped,
    runs := x.runs ++ y.runs }

/-- A pixel as a blob of its own. -/
def Judged.blob (p : Judged) (tag : LineTag) (r : SegRun) : Blob :=
  let e := p.exceed.getD (0, 0, false)
  { first := tag, last := tag, u0 := p.u, u1 := p.u, area := 1, sums := p.ds, excess := e.1, key := e.2,
    mask := p.mask, cls := p.cls, clipped := r.clipped, runs := [] }

/-- A run as a blob of its own. -/
def State.runBlob (s : State) (b : Nat) (tag : LineTag) (r : SegRun) : Option Blob :=
  match r.pix.reverse with
  | [] => none
  | p :: ps =>
    let l := ps.foldl (fun l q => s.unite b l (q.blob tag r)) (p.blob tag r)
    some { l with runs := [(tag.k, r.s0, r.e0)] }

/-- A run meets the open blobs (R249, R250); true where it was dropped. -/
def State.segRun (s : State) (b : Nat) (tag : LineTag) (r : SegRun) : Bool × State :=
  let mx := s.get F.IPL_SEG_MERGE_X
  let my := s.get F.IPL_SEG_MERGE_Y
  match s.runBlob b tag r with
  | none => (false, s)
  | some l =>
    let hit := s.ipl.blobs.filter (joins mx my tag.k r)
    let rest := s.ipl.blobs.filter fun l => !joins mx my tag.k r l
    if hit = [] && 1024 ≤ rest.length then (true, s.bump F.IPL_SEG_LOST r.pix.length)
    else
      let joined := (hit ++ [l]).foldl (fun (a : Option Blob) x =>
        match a with
        | none => some x
        | some y => some (s.unite b y x)) none
      (false, { s with ipl := { s.ipl with blobs := rest ++ joined.toList } })

/-- Segmentation of a line (R248–R250). -/
def State.segment (s : State) (b : Nat) (tag : LineTag) (pix : List Judged) : State :=
  let mx := s.get F.IPL_SEG_MERGE_X
  let my := s.get F.IPL_SEG_MERGE_Y
  let kept := pix.filter fun p =>
    p.exceed.isSome && !(Sparse.get (fun _ => {}) s.ipl.cols p.u : Column).reported
  let (drops, s) := (segRuns mx kept).reverse.foldl (fun (a : Bool × State) r =>
    let (d, s) := a.2.segRun b tag r
    (a.1 || d, s)) (false, s)
  let s := if drops then (s.logErr siteIpl 0x06 0x030 [tag.k % 2 ^ 32]).raise (512 + 11) else s
  let ended := fun (l : Blob) => decide (l.last.k + my + 1 ≤ tag.k) || decide (l.first.k + 4095 ≤ tag.k)
  let open_ := (s.ipl.blobs.filter fun l => !ended l).map fun (l : Blob) =>
    { l with runs := l.runs.filter fun q => tag.k ≤ q.1 + my }
  ({ s with ipl := { s.ipl with blobs := open_ } }).closeBlobs b (s.ipl.blobs.filter ended)

/-! ### Streaks (R253) -/

/-- A column after a line. -/
def Column.step (c : Column) (gap : Nat) (tag : LineTag) (p : Judged) : Column :=
  if p.void then c
  else match p.exceed with
    | some e =>
      if c.count != 0 && c.key == e.2 then { c with count := c.count + 1, gap := 0, sums := addLists c.sums p.ds }
      else { c with count := 1, gap := 0, key := e.2, start := tag, sums := p.ds }
    | none =>
      if c.count = 0 && !c.reported then c
      else if gap < c.gap + 1 then {}
      else { c with gap := c.gap + 1 }

/-- Adjacent detected columns with the same key, in groups of at most 16 (R253). -/
def streakGroups (l : List (Judged × Column)) : List (List (Judged × Column)) :=
  l.foldl (fun gs p =>
    match gs with
    | (q :: g) :: rest =>
      if q.1.u + 1 = p.1.u && q.2.key == p.2.key && g.length + 1 < 16 then (p :: q :: g) :: rest else [p] :: gs
    | _ => [p] :: gs) []

/-- A STREAK defect over a group of columns (R252, R253). -/
def State.issueStreak (s : State) (tag : LineTag) (g : List (Judged × Column)) : State :=
  let first := g.foldl (fun (a : Option LineTag) p =>
    match a with
    | none => some p.2.start
    | some t => some (if p.2.start.k < t.k then p.2.start else t)) none
  match g[g.length / 2]?, first with
  | some c, some first =>
    let us := g.map (·.1.u)
    let u0 := us.foldl min c.1.u
    let u1 := us.foldl max c.1.u
    let mid := (g.find? fun p => p.1.u == (u0 + u1) / 2).getD c
    let mask := g.foldl (fun m p => m ||| p.1.mask) 0
    let d : Defect := { s.iplDefect 2 (s.get F.IPL_DEF_STREAK_SEV) first tag u0 u1 mask with
      bar := some (s.refPipe tag.rbank mid.2.key.1), nozzle := s.suspect tag.rbank mid.2.key.1 mid.1.u,
      data := deltas (mid.2.sums.map fun v => v / (mid.2.count : Int)) }
    ((s.issue rankIpl d).bump F.IPL_STREAKS).raise (512 + 1)
  | _, _ => s

/-- The streak counts of a line (R253). -/
def State.streaks (s : State) (tag : LineTag) (pix : List Judged) : State :=
  let len := s.get F.IPL_STREAK_LEN
  let gap := s.get F.IPL_STREAK_GAP
  let (found, s) := pix.foldl (fun (a : List (Judged × Column) × State) p =>
    let (found, s) := a
    let old : Column := Sparse.get (fun _ => {}) s.ipl.cols p.u
    let c := old.step gap tag p
    let hit := len != 0 && !c.reported && len ≤ c.count && !p.void && p.exceed.isSome
    let c := if hit then { c with reported := true } else c
    let s := if c = old then s else { s with ipl := { s.ipl with cols := Sparse.set (fun _ => {}) s.ipl.cols p.u c } }
    (if hit then found ++ [(p, c)] else found, s)) ([], s)
  (streakGroups found).reverse.foldl (fun s g => s.issueStreak tag g) s

/-! ### Missed coverage (R254) -/

/-- A MISSED_COVERAGE defect (R252, R254). -/
def State.issueMissed (s : State) (m : MissRun) : State :=
  let mask := (s.slots.filter fun i =>
    s.get (F.IPL_SLOT_U_START i) ≤ m.u1 && m.u0 ≤ s.get (F.IPL_SLOT_U_END i)).foldl
      (fun a i => a ||| 2 ^ s.slotPort i) 0
  ((s.issue rankIpl (s.iplDefect 6 (s.get F.IPL_DEF_MC_SEV) m.first m.last m.u0 m.u1 mask))).raise (512 + 2)

/-- The run of missed coverage becomes a defect where `ends` says so. -/
def State.missedEnd (s : State) (ends : MissRun → Bool) : State :=
  match s.ipl.missed with
  | some m => if ends m then { s with ipl := { s.ipl with missed := none } }.issueMissed m else s
  | none => s

/-- The missed pixels of a line (R254): a run ends with its 64th line without one, or with its 4,096th line. -/
def State.missedLine (s : State) (tag : LineTag) (us : List Nat) : State :=
  let s := s.missedEnd fun m => decide (m.last.k + 65 ≤ tag.k) || decide (m.first.k + 4096 ≤ tag.k)
  let s := match us with
    | [] => s
    | u :: _ =>
      let u0 := us.foldl min u
      let u1 := us.foldl max u
      let m : MissRun := match s.ipl.missed with
        | none => { first := tag, last := tag, u0 := u0, u1 := u1 }
        | some m => { m with last := tag, u0 := min m.u0 u0, u1 := max m.u1 u1 }
      { s with ipl := { s.ipl with missed := some m } }
  s.missedEnd fun m => decide (m.last.k + 64 ≤ tag.k) || decide (m.first.k + 4095 ≤ tag.k)

/-! ### The machine-vision ring and the taps (R257, R259) -/

/-- The line size of the machine-vision ring. -/
def State.mvStride (s : State) : Nat := 64 + (s.stWidth * s.iplComps * 2 + 63) / 64 * 64

/-- A stitched line goes to the machine-vision ring (R259). -/
def State.mvWrite (s : State) (tag : PortLine) (flags void : Nat) (pix : List StPixel) : State :=
  if !s.on F.IPL_MV_CFG_EN then s
  else
    let prod := s.get F.IPL_MV_PROD
    let word := fun (p : StPixel) =>
      match p.c with
      | none => List.replicate s.iplComps 0x8000
      | some c => c.map (· / 16)
    let head := toBytes 8 tag.k ++ toBytes 8 tag.exposeAt ++ toBytes 4 tag.strip ++ toBytes 2 tag.setId
      ++ toBytes 2 flags ++ toBytes 4 s.stWidth ++ toBytes 2 void ++ toBytes 34 0
    let data := pad64 ((pix.flatMap word).flatMap (toBytes 2))
    let a := s.get F.IPL_MV_BASE + prod % 2 ^ s.get F.IPL_MV_CFG_LINES_LOG2 * s.mvStride
    let (ok1, s) := s.memWrite 9 (a + 64) data
    let (ok2, s) := s.memWrite 9 a head
    if ok1 && ok2 then s.bump F.IPL_MV_PROD else s.logErr siteIpl 0x02 0x013 [tag.k % 2 ^ 32, 0]

/-- SRGB of a component (R257); an entry that fails makes the pixel void. -/
def State.srgb (s : State) (c : List Nat) : Option (List Nat) := c.mapM fun v => s.tblAt 7 (v / 16)

/-- The lines of taps 0 to 2 (R257). -/
def State.tapLine (s : State) (src : Nat) (pix : List StPixel) : List (List Nat) :=
  let sr := pix.map fun p => p.c.bind s.srgb
  let colour := s.on F.IPL_CTRL_COMP
  let clip := fun (i : Int) => (i % 256).toNat
  let luma := fun (v : Option (List Nat)) =>
    match v with
    | some [r, g, b] => 16 + (47 * r + 157 * g + 16 * b + 128) / 256
    | some [x] => 16 + (219 * x + 128) / 256
    | _ => 16
  let chroma := fun (k : Int × Int × Int) (v : Option (List Nat)) =>
    match v with
    | some [r, g, b] => clip (128 + (k.1 * r + k.2.1 * g + k.2.2 * b + 128) / 256)
    | _ => 128
  match src with
  | 0 => (List.range (if colour then 3 else 1)).map fun c => sr.map fun v => (v.getD []).getD c 0
  | 1 => [sr.map luma]
  | _ => [sr.map (chroma (-26, -86, 112)), sr.map (chroma (112, -102, -10))]

/-! ### States (R236–R238, R261–R263) -/

/-- The IPL has drained: blobs and runs become records, and it is DISABLED (R250, R254, R262). -/
def State.iplOff (s : State) : State :=
  let b := s.ipl.lastBank.getD (s.get F.IPL_STAT_ACTIVE_BANK)
  let s := { s with ipl := { s.ipl with blobs := [] } }.closeBlobs b s.ipl.blobs
  let s := match s.ipl.missed with
    | some m => s.issueMissed m
    | none => s
  let s := s.ipl.held.foldl (fun s h => s.issueHeld h) s
  ({ s with ipl := { tbl := s.ipl.tbl, outs := s.ipl.outs, statsFull := s.ipl.statsFull } }.put
    F.IPL_STAT_STATE unitDisabled).raise (512 + 10)

/-- Whether an IPL bank is valid (R261). -/
def State.iplBankValid (s : State) (b : Nat) : Bool :=
  (s.stWidth + 15) / 16 ≤ s.get (F.IPL_BANK_TOL_GEOM_COLS_M1 b) + 1 && s.get (F.IPL_BANK_TOL_BASE b) % 64 == 0

/-- Adjacent enabled slots overlap as R237 allows: rising starts, each overlapping only the next, by at most 1,024
pixels. -/
def State.slotsOk (s : State) : List Nat → Bool
  | [] => true
  | a :: rest =>
    let st := fun (i : Nat) => s.get (F.IPL_SLOT_U_START i)
    let en := fun (i : Nat) => s.get (F.IPL_SLOT_U_END i)
    (match rest with
    | b :: more => st a < st b && en a + 1 - st b ≤ 1024 && more.all (fun c => en a < st c)
    | [] => true) && s.slotsOk rest

/-- The checks at an enable of the IPL (R232, R236, R237, R261, R262). -/
def State.iplOk (s : State) (b : Nat) : Bool :=
  s.get F.RRU_STAT_STATE == unitRunning && s.iplBankValid b && s.slotsOk s.slots
    && (s.slots.map fun i => (s.slotDelay i + 2) * s.get (F.CIN_PORT_WIDTH (s.slotPort i))).sum ≤ 2097152
    && (s.slots.all (fun i => !s.on (F.CIN_PORT_CFG_DUAL (s.slotPort i)))
      || s.get F.IPL_MERGE_KNEE < s.get F.IPL_MERGE_SAT)

/-- An enable while DISABLED (R257, R262): refused, the IPL stays DISABLED with EN as written (R8). -/
def State.iplStart (s : State) : State :=
  let b := s.get F.IPL_CTRL_BANK_SEL
  if s.iplOk b then
    let s := ((s.put F.IPL_CTRL_EN 1).put F.IPL_STAT_STATE unitRunning).put F.IPL_STAT_ACTIVE_BANK b
    (List.range 4).foldl State.hbRestart (s.put F.IPL_MV_STRIDE s.mvStride)
  else ((s.put F.IPL_CTRL_EN 1).flag F.IPL_STAT_CFG_ERR).logErr siteIpl 0x01 0x001

/-- A DRAINING IPL with no line in progress is DISABLED. -/
def State.iplSettle (s : State) : State :=
  if s.get F.IPL_STAT_STATE = unitDraining && s.ipl.todo = [] then
    let s := s.iplOff
    if s.on F.IPL_CTRL_EN then s.iplStart else s
  else s

/-- EN rises (R262). -/
def State.iplEnable (s : State) : State :=
  if s.get F.IPL_STAT_STATE = unitDisabled then s.iplStart else s.put F.IPL_CTRL_EN 1

def execIplEnable (dt : Nat) (who : Requester) (s : State) : Res := regCmd dt who O.IPL_CTRL State.iplEnable s

/-- EN falls (R262, R263): the line in progress, one whose port lines have come, is finished first. -/
def State.iplDisable (s : State) : State :=
  let s := s.put F.IPL_CTRL_EN 0
  if s.get F.IPL_STAT_STATE = unitRunning then
    let s := { s with ipl := { s.ipl with todo := s.formable.toList, launched := [] } }
    (s.put F.IPL_STAT_STATE unitDraining).iplSettle
  else s

def execIplDisable (dt : Nat) (who : Requester) (s : State) : Res :=
  regCmd dt who O.IPL_CTRL (fun s => s.iplDisable) s

/-! ### The stitched line (R238) -/

/-- The tag of a stitched line: that of the lowest slot that holds its line; where none does, what the manual does
not state of it is free. -/
def State.tagOf (s : State) (lines : List (Nat × Option PortLine)) (k : Nat) : PortLine × State :=
  match lines.findSome? (·.2) with
  | some l => (l, s)
  | none =>
    let (v, s) := s.draw
    let (w, s) := s.draw
    ({ k := k, exposeAt := v.toNat, strip := w.toNat % 2 ^ 32, index := w.toNat / 2 ^ 32 % 2 ^ 16,
       setId := w.toNat / 2 ^ 48 % 2 ^ 16, flags := 0, ratio := 0, samples := [], short := [], got := 0,
       gotShort := 0 }, s)

/-- Stages 4 to 9 of stitched line `t` (R238). -/
def State.form (s : State) (t : StLine) : State :=
  let b := t.bank
  let s := match s.ipl.lastBank with
    | some old => if old = b then s else { s with ipl := { s.ipl with blobs := [] } }.closeBlobs old s.ipl.blobs
    | none => s
  let s := { s with ipl := { s.ipl with todo := s.ipl.todo.drop 1, lastBank := some b } }
  let slots := s.slots
  let lines := slots.map fun i => (i, if t.lost then none else s.slotLine i t.k)
  let s := lines.foldl (fun s p => s.touchStore t.k p.1 p.2) s
  let (tag, s) := s.tagOf lines t.k
  let parts := lines.map fun p => (p.1, s.slotPixels p.1 p.2)
  let s := s.touchTbl t.k (slots.flatMap fun i =>
    (List.range ((s.get (F.IPL_SLOT_U_END i) - s.get (F.IPL_SLOT_U_START i)) / 64 + 2)).map fun e => (2, i * 1024 + e))
  let void := (parts.filter fun p => p.2.2.all (·.isNone)).map (·.1)
  let s := void.foldl (fun s i => s.bump (F.IPL_SLOT_VOID_LINES i)) s
  let voidMask := void.foldl (fun m i => m + 2 ^ i) 0
  let pix := (List.range s.stWidth).map fun u => s.stitch parts u
  let (job, rep, s) := s.jobOf t.rbank t.pos
  let ltag : LineTag := {
    k := t.k, pos := t.pos, exposeAt := tag.exposeAt, strip := tag.strip, job := job, rep := rep,
    mv := s.get F.IPL_MV_PROD, rbank := t.rbank }
  let flags := lines.foldl (fun f p => f ||| ((p.2.map (·.flags)).getD 0)) 0
  let s := s.mvWrite tag flags voidMask pix
  let s := s.touchTbl t.k (pix.flatMap fun p => (p.c.getD []).map fun v => (7, v / 16))
  let feed := fun (s : State) (src : Nat) (c : List (List Nat)) => s.hbFeed src { k := tag.k, strip := tag.strip, comps := c }
  let s := [0, 1, 2].foldl (fun s src => feed s src (s.tapLine src pix)) s
  let (refs, s) := s.rruTake t.k
  let (row, s) := s.tolRow b t.k
  let unreadRow := match row with
    | some r => r.bytes.isNone
    | none => false
  let (v, s) := if unreadRow then s.draw else (0, s)
  let s := s.touchTbl t.k (pix.flatMap fun p => match p.c with
    | none => []
    | some c => (List.range s.channels).flatMap fun ch => (walk (rgb c)).map fun q => (3 + b, q.1 * 8 + ch))
  let s := s.touchTbl t.k ((List.range 15).flatMap fun i =>
    if (List.range s.stWidth).any fun u => classOf row u == some (i + 1) then
      (List.range s.channels).map fun ch => (5 + b, (i + 1) * 8 + ch)
    else [])
  let judged := pix.mapIdx fun u p =>
    s.judge b row (v.toNat % 2 == 1) (match refs with
      | none => [none]
      | some r => r.map fun ch => ch.getD u none) u p
  let s := s.touchTbl t.k ((((judged.filter fun j => j.exceed.isSome).map (·.cls)).eraseDups).map fun c => (5 + b, 128 + c))
  let s := feed s 3 [judged.map (·.tap)]
  let s := s.segment b ltag judged
  let s := s.streaks ltag judged
  let miss := (judged.filter (·.missed)).map (·.u)
  let s := if miss != [] || unreadRow then s.bump F.IPL_VOID_LINES else s
  let s := (s.missedLine ltag miss).issueReady
  let s := ((s.put F.IPL_LINE t.k).bump F.IPL_LINES).tally 0x08 0 0
  let s := s.tally 0x08 0 1 (judged.filter fun j => j.exceed.isSome).length
  (s.storeTrim (t.k + 1)).iplSettle

def execStitchedLineForm (dt : Nat) (s : State) : Res :=
  evCmd dt (fun s => s.get F.IPL_STAT_STATE != unitDisabled && s.formable.isSome) (fun s =>
    match s.formable with
    | some t => s.form t
    | none => s) s

/-! ### What the generator tells the IPL -/

/-- A launch of line `k` of the IPL's generator (R240, R306): the banks in use. -/
def State.iplLaunch (s : State) (k pos : Nat) : State :=
  let s := s.rruLaunch k pos
  if s.get F.IPL_STAT_STATE = unitRunning then
    { s with ipl := { s.ipl with
        launched := s.ipl.launched ++ [{ k := k, pos := pos, bank := s.get F.IPL_STAT_ACTIVE_BANK, rbank := s.rruBank }] } }
  else s

/-- A commit of line `k` (R238): a stitched line is to form; while DRAINING none, and the references go but for that of the line in
progress (R240). -/
def State.iplCommit (s : State) (k pos : Nat) : State :=
  if s.get F.IPL_STAT_STATE = unitRunning then
    let t := (s.ipl.launched.find? fun l => l.k == k).getD { k := k, pos := pos, bank := s.get F.IPL_STAT_ACTIVE_BANK, rbank := s.rruBank }
    { s with ipl := { s.ipl with
        launched := s.ipl.launched.filter fun l => k < l.k,
        todo := s.ipl.todo ++ [{ t with pos := pos }] } }
  else s.rruForget fun j => decide (j ≤ k) && !s.ipl.todo.any fun t => t.k == j

/-- A span that is missed or withdrawn (R240): its reference lines are discarded. -/
def State.iplMissed (s : State) (k0 k1 : Nat) : State :=
  { s with ipl := { s.ipl with launched := s.ipl.launched.filter fun l => !(k0 ≤ l.k && l.k ≤ k1) } }.rruForget
    fun j => decide (k0 ≤ j) && decide (j ≤ k1)

end Sys2Proof.Machine
end

