-- ==== Sys2Proof/Machine/Splice.lean ====
section
/-! DEFINITION. The splice of the FAB (11): arming and its checks, stations and their switches, misses, and the twin's
part. Loading an image is in FabLoad.lean. -/

namespace Sys2Proof.Machine

/-! ### Line generators (R56) -/

def State.gen (s : State) (g : Nat) : LineGen := Sparse.get (fun _ => {}) s.wtu.gen g

def State.setGen (s : State) (g : Nat) (l : LineGen) : State :=
  { s with wtu := { s.wtu with gen := Sparse.set (fun _ => {}) s.wtu.gen g l } }

/-- START or PITCH takes a new value: the lines are others, and none of them has been sent (R60). -/
def State.renumber (s : State) (g : Nat) : State :=
  let s := s.setGen g { s.gen g with sent := [], lastK := none }
  ((List.range 8).filter fun n => s.pipeGen n == g).foldl (fun (s : State) n => s.setPipe n { s.pipe n with commits := [] }) s

/-- P_k of generator `g` in 2^-16 nm (R56). -/
def State.linePos (s : State) (g k : Nat) : Nat :=
  s.get (F.WTU_LG_START g) * 2 ^ 16 + k * s.get (F.WTU_LG_PITCH g)

/-! ### States and stations (R306, R316) -/

def fbIdle : Nat := 0
def fbVerifying : Nat := 1
def fbApplying : Nat := 2
def fbLoaded : Nat := 3
def fbArmed : Nat := 4
def fbSplicing : Nat := 5
def fbFailed : Nat := 6

def State.fabState (s : State) : Nat := s.get F.FAB_STAT_STATE

def State.setFabState (s : State) (st : Nat) : State := s.put F.FAB_STAT_STATE st

/-- FAB event `i` (R319). -/
def State.fabEvent (s : State) (i : Nat) : State := s.raise (640 + i)

/-- W_s in nm (R306). -/
def State.stationAt (s : State) (st : Nat) : Nat := s.get F.FAB_SPLICE_WCO + s.get (F.FAB_ST_OFFSET st)

/-- The generator a station from 0 to 8 follows (R306). -/
def State.stationGen (s : State) (st : Nat) : Nat := if st < 8 then s.pipeGen st else s.get F.IPL_CTRL_LG

/-- Whether a station's unit is DISABLED. -/
def State.stationOff (s : State) (st : Nat) : Bool :=
  if st < 8 then s.pipeState st == rpDisabled
  else st == 8 && s.get F.IPL_STAT_STATE == unitDisabled && s.get F.RRU_STAT_STATE == unitDisabled

/-- The bank a unit does not use. -/
def shadow (b : Nat) : Nat := 1 - b

def State.flipIpl (s : State) : State :=
  if s.get F.IPL_STAT_STATE = unitDisabled then s.put F.IPL_CTRL_BANK_SEL (shadow s.iplBank)
  else s.put F.IPL_STAT_ACTIVE_BANK (shadow s.iplBank)

def State.flipRru (s : State) : State :=
  if s.get F.RRU_STAT_STATE = unitDisabled then s.put F.RRU_CTRL_BANK_SEL (shadow s.rruBank)
  else s.put F.RRU_STAT_ACTIVE_BANK (shadow s.rruBank)

/-- MASK of the image: a launch misses the splice in VERIFYING too (R310), while FAB_MASK still reads 0. -/
def State.fabMask (s : State) : Nat := if s.fabState = fbVerifying then s.fab.mask else s.get F.FAB_MASK

/-- The stations of MASK that have not switched. -/
def State.stationsLeft (s : State) : List Nat :=
  (List.range 10).filter fun st => bit s.fabMask st && !bit (s.get F.FAB_STAT_SWITCHED) st

/-- The stations that missed their switch (R311). -/
def State.stationsMissed (s : State) : List Nat := (List.range 10).filter fun st => bit (s.get F.FAB_STAT_MISSED) st

/-- Whether a station has already launched a line at or beyond W_s, or WCO is not below W_9 (R308). -/
def State.stationPast (s : State) (st : Nat) : Bool :=
  if st = 9 then decide (s.stationAt 9 ≤ s.wco)
  else match (s.gen (s.stationGen st)).lastPos with
    | some p => decide (2 ^ 16 * s.stationAt st ≤ p)
    | none => false

/-- The commit-queue writes held, as FAB_QUEUED shows them. -/
def State.showQueued (s : State) : State := s.put F.FAB_QUEUED (s.fab.queue.length + s.fab.ready.length)

/-- A station's queue writes are released in image order (R307). -/
def State.releaseQueue (s : State) (st : Nat) : State :=
  let mine := fun (q : QueuedWrite) => q.station == st
  { s with fab := { s.fab with
      ready := s.fab.ready ++ s.fab.queue.filter mine, queue := s.fab.queue.filter fun q => !mine q } }

/-- The lock of R309 ends. -/
def State.unlock (s : State) : State :=
  { s.put F.FAB_STAT_LOCKED 0 with fab := { s.fab with todo := [] } }

/-- A bit of a mask field set. -/
def State.setMaskBit (s : State) (f : Fld) (i : Nat) : State := s.put f (s.get f ||| 2 ^ i)

/-- The splice is missed (R310, R313): no further station switches, and FAB_SPLICE_WCO becomes invalid. -/
def State.spliceMiss (s : State) (cause st : Nat) : State :=
  let s := if s.fabState = fbSplicing then s.fab.todo.foldl (fun s i => s.setMaskBit F.FAB_STAT_MISSED i) s else s
  let s := ((s.flag F.FAB_STAT_SPLICE_MISSED).put F.FAB_MISS_WCO s.wco).put F.FAB_STAT_SPLICE_VALID 0
  let s := s.unlock
  let s := if s.fabState = fbArmed then s.setFabState fbLoaded else s
  let s := { s with fab := { s.fab with noAuto := true, arming := none } }
  (s.logErr siteFab 0x03 cause [st]).fabEvent 5

/-- Every station of the splice has switched or been missed (R311). -/
def State.spliceSettle (s : State) : State :=
  if s.fab.todo = [] then
    let s := s.unlock
    if s.stationsMissed = [] then (s.setFabState fbIdle).fabEvent 4 else s.setFabState fbSplicing
  else s

/-! ### Arming (R308, R309) -/

/-- An arm of the splice, or a REARM, starts its checks; FAB_SPLICE_WCO must be valid. -/
def State.armStart (s : State) (rearm : Bool) : State :=
  if s.fab.arming.isSome then s
  else if s.on F.FAB_STAT_SPLICE_VALID then { s with fab := { s.fab with arming := some rearm } }
  else s.logErr siteFab 0x01 0x003 []

def State.fabArm (s : State) : State := if s.fabState = fbLoaded then s.armStart false else s

def State.fabRearm (s : State) : State := if s.fabState = fbSplicing && s.fab.todo = [] then s.armStart true else s

def execFabArm (dt : Nat) (who : Requester) (s : State) : Res := regCmd dt who O.FAB_CTRL State.fabArm s

def execFabRearm (dt : Nat) (who : Requester) (s : State) : Res := regCmd dt who O.FAB_CTRL State.fabRearm s

/-- Entry to LOADED (R308): the splice arms at once where AUTO_ARM is 1 and its point is valid. -/
def State.autoArm (s : State) : State :=
  if s.on F.FAB_CTRL_AUTO_ARM && !s.fab.noAuto && s.on F.FAB_STAT_SPLICE_VALID then s.armStart false else s

/-- A DISABLED station takes its shadow bank at once (R308). -/
def State.switchDisabled (s : State) (st : Nat) : State :=
  let s := if st < 8 then s.put (F.RP_CTRL_BANK_SEL st) (shadow (s.activeBank st)) else s.flipRru.flipIpl
  let s := s.put F.FAB_STAT_MISSED (s.get F.FAB_STAT_MISSED - 2 ^ st * b2n (bit (s.get F.FAB_STAT_MISSED) st))
  (s.setMaskBit F.FAB_STAT_SWITCHED st).releaseQueue st

/-- No row enabled in both banks of pipe `n` changes OFFSET or PERIOD (R170, R308). -/
def State.delaysSame (s : State) (n : Nat) : Bool :=
  (List.range 4).all fun f =>
    !(s.on (F.RP_BANK_ROW_CFG_EN n 0 f) && s.on (F.RP_BANK_ROW_CFG_EN n 1 f))
      || (s.rowOffset n 0 f == s.rowOffset n 1 f && s.period n 0 f == s.period n 1 f)

/-- Whether a shadow bank of a station is valid (R112, R130, R261). -/
def State.shadowValid (s : State) (st : Nat) : Bool :=
  if st < 8 then s.bankValid st (shadow (s.activeBank st))
  else st != 8 || (s.rruBankValid (shadow s.rruBank) && s.iplBankValid (shadow s.iplBank))

/-- Whether a section named by the shadow bank of pipe `n` is named by the old or the new bank of another pipe (R308). A pipe of MASK
has both, switched or not; any other pipe has its active bank alone. -/
def State.sectionClash (s : State) (n : Nat) : Bool :=
  let others := ((List.range 8).filter (· != n)).flatMap fun m =>
    s.bankSections m (s.activeBank m) ++ (if bit s.fabMask m then s.bankSections m (shadow (s.activeBank m)) else [])
  (s.bankSections n (shadow (s.activeBank n))).any fun sec => others.contains sec

/-- The first of the first five checks of R308 that fails, by the station it fails for. -/
def State.armFails (s : State) (todo : List Nat) : Option Nat :=
  let pipes := todo.filter fun st => st < 8
  [todo.find? fun st => !s.shadowValid st, pipes.find? fun n => s.sectionClash n,
    pipes.find? fun n => !s.delaysSame n,
    if todo.contains 9 && (s.checkRoutes s.dirtyChannels).isSome then some 9 else none].findSome? id

/-- Whether the twin's part of R313 applies: TWIN is set and the device is paired. -/
def State.twinSplice (s : State) : Bool := s.on F.FAB_CTRL_TWIN && s.twnState != twSolo

/-- This twin's own report (R313). -/
def State.ownReport (s : State) : SpliceReport :=
  let d := fun (i : Nat) => BitVec.ofNat 64 (s.get (F.FAB_DIGEST (2 * i)) + 2 ^ 32 * s.get (F.FAB_DIGEST (2 * i + 1)))
  { image := s.get F.FAB_IMAGE_ID, digest := (List.range 6).map d, wco := s.get F.FAB_SPLICE_WCO,
    mask := s.get F.FAB_MASK }

/-- A SPLICE message (R490): REPORT 0, GO 1, NO_GO 2, with the report's fields. -/
def State.sendSplice (s : State) (kind : Nat) : State :=
  let r := s.ownReport
  s.twinTagged 0x06
    ([BitVec.ofNat 64 kind, BitVec.ofNat 64 r.image] ++ r.digest ++ [BitVec.ofNat 64 r.wco, BitVec.ofNat 64 r.mask])

/-- The splice is armed (R308, R309): the state of the stations still to switch is locked. -/
def State.armed (s : State) (rearm : Bool) (todo : List Nat) : State :=
  let left := (List.range 10).foldl (fun (m : Nat) st =>
    m + 2 ^ st * b2n (bit (s.get F.FAB_STAT_MISSED) st && !todo.contains st)) 0
  let s := (s.put F.FAB_STAT_MISSED left).put F.FAB_STAT_TWIN_GO 0
  let s := if todo = [] then s else s.put F.FAB_STAT_LOCKED 1
  let s := if rearm then s else s.setFabState fbArmed
  let s := { s with fab := { s.fab with todo := todo, decided := false } }
  let s := if s.twinSplice then s.sendSplice 0 else s
  s.spliceSettle

/-- The arm checks end (R308). DEDUCED (assumption 48): a DISABLED station takes its shadow bank only where every check has passed,
so that no station has switched where one fails (R310). -/
def State.armEnd (s : State) (rearm : Bool) : State :=
  let s := { s with fab := { s.fab with arming := none } }
  if s.fabState != (if rearm then fbSplicing else fbLoaded) then s
  else if !s.on F.FAB_STAT_SPLICE_VALID then s
  else
    let stations := if rearm then s.stationsMissed else s.stationsLeft
    let off := stations.filter s.stationOff
    let todo := stations.filter fun st => !s.stationOff st
    match s.armFails todo with
    | some st => s.logErr siteFab 0x01 0x003 [st]
    | none =>
      match todo.find? s.stationPast with
      | some st => s.spliceMiss 0x020 st
      | none => (off.foldl State.switchDisabled s).armed rearm todo

def execArmCheckEnd (dt : Nat) (s : State) : Res :=
  evCmd dt (fun s => s.fab.arming.isSome) (fun s =>
    match s.fab.arming with
    | some rearm => s.armEnd rearm
    | none => s) s

/-- The high word of FAB_SPLICE_WCO is written (R6, R309): the value is valid from then on, or is discarded while
locked. -/
def State.spliceWcoWrite (s : State) (v : Nat) : State :=
  if s.on F.FAB_STAT_LOCKED then s.logErr siteFab 0x01 0x002 [0, O.FAB_SPLICE_WCO]
  else (s.put F.FAB_SPLICE_WCO v).put F.FAB_STAT_SPLICE_VALID 1

def execSpliceWcoWrite (dt : Nat) (who : Requester) (hi : Word) (s : State) : Res :=
  regCmd dt who (O.FAB_SPLICE_WCO + 4) (fun s =>
    (s.consumeLow who O.FAB_SPLICE_WCO).spliceWcoWrite (s.joined who O.FAB_SPLICE_WCO hi)) s

/-! ### Station switches (R306, R307, R311) -/

/-- A station refuses its switch (R311): it keeps its old bank, and its queue writes are held. -/
def State.refuseStation (s : State) (st : Nat) : State :=
  let s := (s.setMaskBit F.FAB_STAT_MISSED st).flag F.FAB_STAT_SPLICE_MISSED
  ((s.put F.FAB_MISS_WCO s.wco).logErr siteFab 0x03 0x021 [st]).fabEvent 5

/-- A station has switched at a line, or at a WCO for station 9 (R307). -/
def State.stationDone (s : State) (st line : Nat) : State :=
  (((s.setMaskBit F.FAB_STAT_SWITCHED st).put (F.FAB_ST_SWLINE st) line).fabEvent (8 + st)).releaseQueue st

/-- Writes of the running cycle to the bank that becomes active are discarded (R113, R115). -/
def State.undoBank (s : State) (n b : Nat) : State :=
  let lo := 0x00301000 + 0x10000 * n + 0x800 * b
  let here := fun (p : Nat × Word) => decide (lo ≤ p.1) && decide (p.1 < lo + 0x800)
  let old := s.past.pix.filter here
  if s.regs.filter here = old then s
  else
    let below := s.regs.filter fun p => decide (p.1 < lo)
    let above := s.regs.filter fun p => decide (lo + 0x800 ≤ p.1)
    ({ s with regs := below ++ old ++ above }.flag (F.RP_STAT_WR_ACTIVE n)).logErr (siteRp n) 0x01 0x002

/-- The first head of the rows whose OFFSET or PERIOD differs between the banks (R170, R173). -/
def State.delayHead (s : State) (n : Nat) : Nat :=
  let rows := (List.range 4).filter fun f =>
    s.on (F.RP_BANK_ROW_CFG_EN n 0 f) && s.on (F.RP_BANK_ROW_CFG_EN n 1 f)
      && !(s.rowOffset n 0 f == s.rowOffset n 1 f && s.period n 0 f == s.period n 1 f)
  ((rows.flatMap fun f => (s.rowHeads n (s.activeBank n) f).map (·.1)).min?).getD 0

/-- A pipe's bank flips at the launch of its switching line, or the pipe or the FTU refuses (R112, R118, R170). -/
def State.switchPipe (s : State) (n line : Nat) : State :=
  let b := shadow (s.activeBank n)
  let s := if s.stationOff n then s else s.undoBank n b
  if s.stationOff n then s.refuseStation n
  else if !s.bankValid n b then (s.logErr (siteRp n) 0x01 0x001).refuseStation n
  else if !s.delaysSame n then (s.logErr siteFtu 0x01 0x002 [s.delayHead n, line % 2 ^ 32]).refuseStation n
  else
    let p := s.pipe n
    let s := (s.put (F.RP_STAT_ACTIVE_BANK n) b).setPipe n { p with epoch := p.epoch + 1, switchedAt := some s.now }
    ((s.fetchAgain n).rpEvent n 3).stationDone n line

/-- The RRU and the IPL flip together, or neither does (R261). -/
def State.switchCameras (s : State) (line : Nat) : State :=
  let rruOk := s.rruBankValid (shadow s.rruBank)
  let iplOk := s.iplBankValid (shadow s.iplBank)
  if s.stationOff 8 then s.refuseStation 8
  else if rruOk && iplOk then (((s.flipRru.flipIpl).raise (512 + 9)).raise (256 + 57)).stationDone 8 line
  else
    let s := if rruOk then s else s.logErr siteRru 0x01 0x001
    let s := if iplOk then s else s.logErr siteIpl 0x01 0x001
    s.refuseStation 8

/-- Station 9 (R307): the pending routes that passed at arm become active, and the slot table swap is requested. -/
def State.switchGlobal (s : State) : State :=
  let s := s.swapRoutes s.dirtyChannels
  let r := reqCode .fab
  let s := (s.commitDone r).raise (768 + 34)
  (s.put F.MEM_STAT_SWAP_PEND 1).stationDone 9 s.wco

/-- A station's switch comes due (R306, R311). -/
def State.switchStation (s : State) (st line : Nat) : State :=
  let s := { s with fab := { s.fab with todo := s.fab.todo.filter (· != st) } }
  let s := s.setFabState fbSplicing
  let s := if st < 8 then s.switchPipe st line else if st = 8 then s.switchCameras line else s.switchGlobal
  s.showQueued.spliceSettle

/-! ### The twin's decision (R313) -/

/-- The stations whose switch is still to come: of an armed splice, or of a loaded one. -/
def State.spliceAhead (s : State) : List Nat :=
  let st := s.fabState
  if st = fbArmed || st = fbSplicing then s.fab.todo
  else if (st = fbVerifying || st = fbApplying || st = fbLoaded) && s.on F.FAB_STAT_SPLICE_VALID then s.stationsLeft
  else []

/-- The decision point D (R313). -/
def State.decisionPoint (s : State) : Int :=
  ((s.spliceAhead.map s.stationAt).min?.getD 0 : Int) - (s.get F.FAB_TWIN_MARGIN : Int)

/-- Whether the active twin has a decision to make. -/
def State.undecided (s : State) : Bool :=
  s.twinSplice && s.twnState == twActive && !s.fab.decided && s.spliceAhead != []

/-- The active twin decides: GO where both are armed with equal reports, and NO_GO otherwise. The partner's report has then served. -/
def State.twinDecide (s : State) : State :=
  let armed := s.fab.todo != [] && s.fab.report == some s.ownReport
  let s := { s with fab := { s.fab with decided := true, report := none } }
  if armed then ((s.sendSplice 1).put F.FAB_STAT_TWIN_GO 1).fabEvent 7
  else (s.sendSplice 2).spliceMiss 0x022 (s.spliceAhead.headD 0)

def execTwinSpliceDecision (dt : Nat) (s : State) : Res :=
  evCmd dt (fun s => s.undecided && decide (s.decisionPoint ≤ (s.wco : Int))) State.twinDecide s

/-- A SPLICE message of the partner (R313); one whose tag fails is discarded (R478). -/
def State.spliceMessage (s : State) (msg : SpliceMsg) : State :=
  match msg with
  | .report image digest wco mask =>
    { s with fab := { s.fab with
        report := some { image := image.toNat, digest := digest, wco := wco.toNat, mask := mask.toNat } } }
  | .go =>
    let s := { s with fab := { s.fab with report := none } }
    if s.fab.todo = [] then s else (s.put F.FAB_STAT_TWIN_GO 1).fabEvent 7
  | .noGo =>
    let s := { s with fab := { s.fab with report := none } }
    if s.spliceAhead = [] then s else s.spliceMiss 0x022 (s.spliceAhead.headD 0)

def execTwinSpliceMessage (dt : Nat) (msg : SpliceMsg) (tagOk : Bool) (s : State) : Res :=
  evCmd dt (fun s => s.twinSplice) (fun s =>
    if tagOk then s.spliceMessage msg else s.logErr siteTwn 0x05 0x041 []) s

/-- What a switching line, or station 9's moment, does to station `st` of an armed splice (R306, R313): an active twin that
has not decided does so first, and a standby without GO misses the splice. -/
def State.stationDue (s : State) (st line : Nat) : State :=
  let s := if s.undecided then s.twinDecide else s
  if !s.fab.todo.contains st then s
  else if s.twinSplice && s.twnState == twStandby && !s.on F.FAB_STAT_TWIN_GO then s.spliceMiss 0x022 st
  else s.switchStation st line

/-- Whether the FAB is in a state in which a switching line misses the splice (R310). -/
def State.unarmed (s : State) : Bool :=
  let st := s.fabState
  (st == fbVerifying || st == fbApplying || st == fbLoaded) && s.on F.FAB_STAT_SPLICE_VALID

/-- What the launch of line `k` at `pos` of generator `g` does to station `st` (R306, R310, R317). -/
def State.launchStation (s : State) (g k pos st : Nat) : State :=
  if s.stationGen st = g && 2 ^ 16 * s.stationAt st ≤ pos then
    if s.fab.todo.contains st then s.stationDue st k
    else if s.unarmed && s.stationsLeft.contains st && !s.stationPast st then s.spliceMiss 0x020 st
    else s
  else s

/-- The stations that a launch switches, in ascending order. -/
def State.launchStations (s : State) (g k pos : Nat) : State :=
  (List.range 9).foldl (fun s st => s.launchStation g k pos st) s

/-- Whether station 9's moment has come (R306): WCO has reached W_9 going forward, or Tempo the predicted deadline. -/
def State.globalDue (s : State) : Bool :=
  let w := s.stationAt 9
  let deadline := match s.predict (2 ^ 16 * w) with
    | some d => decide (d ≤ s.now)
    | none => false
  deadline || (decide (w ≤ s.wco) && !(s.dec s.src).dirRev)

/-- Station 9's moment (R306, R310). -/
def State.globalMoment (s : State) : State :=
  if s.fab.todo.contains 9 then s.stationDue 9 s.wco
  else if s.unarmed && s.stationsLeft.contains 9 then s.spliceMiss 0x020 9
  else s

end Sys2Proof.Machine
end

