-- ==== Sys2Proof/Machine/FabGo.lean ====
section
/-! DEFINITION. The FAB starts on an image (11 R303), at a write of GO or for the boot ROM (19 R538, R539), and its current
activity is aborted (R311, R316). What the passes do is in FabLoad.lean. -/

namespace Sys2Proof.Machine

/-- The little-endian field of `n` bytes at `o`. -/
def fieldAt (b : List Byte) (o n : Nat) : Nat := ofBytes ((b.drop o).take n)

def recType (b : List Byte) : Nat := fieldAt b 0 1
def recLen (b : List Byte) : Nat := fieldAt b 4 4

/-- Whether LEN is a record's: a multiple of 8 from 16 to 2^24, within what is left of the image. -/
def lenOk (l left : Nat) : Bool := l % 8 == 0 && decide (16 ≤ l) && decide (l ≤ 2 ^ 24) && decide (l ≤ left)

/-- The MASK of the image that lies at `at_`, from its first SPLICE_POINT (R300): the stations whose switching lines miss the splice
while the verify pass has not reached that record (R310). -/
def State.peekMask (s : State) (at_ left : Nat) : Nat → Nat
  | 0 => 0
  | fuel + 1 =>
    let h := s.peek at_ 18
    let l := recLen h
    if left < 18 || !lenOk l left then 0
    else if recType h = 6 then fieldAt h 16 2 % 1024
    else s.peekMask (at_ + l) (left - l) fuel

/-- A load is accepted (R303): what the last image left in the status registers is cleared, and the commit queue with it (DESIGN
CHOICE, assumption 47). Writes released at an earlier switch go on landing (R307), and a partner's report stands (R313). -/
def State.fabAccept (s : State) (base len : Nat) : State :=
  let s := ((s.put F.FAB_POS 0).put F.FAB_STAT_SPLICE_VALID 0).put F.FAB_STAT_SWITCHED 0
  let s := ((s.put F.FAB_STAT_MISSED 0).put F.FAB_STAT_TWIN_GO 0).put F.FAB_MASK 0
  let s := { s with fab := {
    base := base, len := len, mask := s.peekMask base len (len / 16 + 1), ready := s.fab.ready, report := s.fab.report } }
  s.showQueued.setFabState fbVerifying

/-- GO (R303): in IDLE the load starts, or is refused with a bad BASE or LEN; in any other state GO is ignored. -/
def State.fabGo (s : State) : State :=
  let base := s.get F.FAB_LOAD_BASE
  let len := s.get F.FAB_LOAD_LEN
  if s.fabState ≠ fbIdle then s
  else if base % 64 = 0 && len % 8 = 0 && 48 ≤ len && len ≤ 2 ^ 30 then s.fabAccept base len
  else s.logErr siteFab 0x01 0x001 []

def execFabGo (dt : Nat) (who : Requester) (s : State) : Res := regCmd dt who O.FAB_CTRL State.fabGo s

/-- ABORT (R311, R316). In VERIFYING FAB_POS stays at some part of the image. In APPLYING the records applied so far stand and the shadow
state is undefined, which `applied` says. In LOADED the shadow state, the commit queue with it, is kept as written. In SPLICING
the missed stations keep the old job, and so do those still to switch, and their queue writes are discarded. -/
def State.fabAbort (s : State) (applied : State → State) : State :=
  let st := s.fabState
  let idle := fun (s : State) =>
    let s := s.unlock
    { s with fab := { s.fab with arming := none }, boot := { s.boot with loading := false } }.setFabState fbIdle
  if st = fbApplying then idle (applied s)
  else if st = fbArmed then s.unlock.setFabState fbLoaded
  else if st = fbVerifying then
    let (v, s) := s.draw
    idle (s.put F.FAB_POS (v.toNat % (s.fab.len + 1)))
  else if st = fbLoaded || st = fbFailed then idle s
  else if st = fbSplicing then
    let s := { s with fab := { s.fab with queue := [] } }
    (idle s).showQueued
  else s

/-! ### The boot ROM's part (R538, R539) -/

/-- The opening image's load fails with a FAB code: a flash copy is followed by copy B where there is one, and otherwise the
boot sequence ends FAILED; after a host image the boot ROM waits for the next GO. -/
def State.bootImageFailed (s : State) (code : Nat) : State :=
  let s := { s with boot := { s.boot with loading := false } }
  if s.on F.SEC_BOOT_STAT_HOST then s.logErr siteSec 0x02 0x013 [s.get F.SEC_BOOT_STAT_STAGE, code]
  else match s.boot.copyB with
    | some _ =>
      if s.on F.SEC_BOOT_STAT_COPY then s.bootFail 0x02 0x013 code
      else { s.put F.SEC_BOOT_STAT_COPY 1 with boot := { s.boot with flashAt := some s.now } }
    | none => s.bootFail 0x02 0x013 code

/-- The boot ROM starts the FAB on an image in device memory; what an earlier copy left FAILED is aborted first. -/
def State.bootLoad (s : State) (base len : Nat) : State :=
  let s := if s.fabState = fbFailed then s.fabAbort id else s
  let s := (s.put F.FAB_LOAD_BASE base).put F.FAB_LOAD_LEN len
  let s := { s with boot := { s.boot with loading := true } }.fabGo
  if s.fabState = fbVerifying then s else s.bootImageFailed (errCode 0x0A 0x01 0 0x001)

/-- GO of SEC_BOOT_CTRL (R539): taken in stage 4 with a host image, and not during a load. -/
def State.bootGo (s : State) : State :=
  if s.boot.step = 5 && s.on F.SEC_BOOT_STAT_HOST && !s.boot.loading && !s.boot.applied then
    s.bootLoad (s.get F.SEC_BOOT_IMG_BASE) (s.get F.SEC_BOOT_IMG_LEN)
  else s

def execBootGo (dt : Nat) (who : Requester) (s : State) : Res := regCmd dt who O.SEC_BOOT_CTRL State.bootGo s

end Sys2Proof.Machine
end

