-- ==== Sys2Proof/Machine/Cin.lean ====
section
/-! DEFINITION. Camera ingest (08): ports, triggers, line assembly, strips, exposure control and telemetry. -/

namespace Sys2Proof.Machine

def State.cam (s : State) (n : Nat) : Cin := Sparse.get (fun _ => {}) s.cin n

def State.setCam (s : State) (n : Nat) (c : Cin) : State :=
  { s with cin := Sparse.set (fun _ => {}) s.cin n c }

/-- The states of a port (R220). -/
def cinDisabled : Nat := 0
def cinLinking : Nat := 1
def cinRunning : Nat := 2
def cinDraining : Nat := 3

def State.cinState (s : State) (n : Nat) : Nat := s.get (F.CIN_PORT_STAT_STATE n)

/-- Event `i` of the CIN (R225). -/
def State.cinEvent (s : State) (i : Nat) : State := s.raise (448 + i)

/-! ### Strips (R213) -/

def State.stripLines (s : State) (n : Nat) : Nat := s.get (F.CIN_PORT_STRIP_STRIP_LINES_M1 n) + 1

/-- The strip of line `k`, 32 bits, and the index within it. -/
def State.stripOf (s : State) (n k : Nat) : Nat :=
  (k - s.get (F.CIN_PORT_STRIP_ORIGIN n)) / s.stripLines n % 2 ^ 32

def State.stripIndex (s : State) (n k : Nat) : Nat := (k - s.get (F.CIN_PORT_STRIP_ORIGIN n)) % s.stripLines n

/-- The first line of a strip at or after that of line `k`: `j` strips on. -/
def State.stripStart (s : State) (n k j : Nat) : Nat :=
  k - s.stripIndex n k + j * s.stripLines n

/-- The next line of a generator: the first one not yet committed (R213, R215). -/
def State.genNext (s : State) (g : Nat) : Nat :=
  let l : LineGen := Sparse.get (fun _ => {}) s.wtu.gen g
  min l.nextK (l.launched.headD l.nextK)

/-- The next line of a port's generator. -/
def State.camNext (s : State) (n : Nat) : Nat := s.genNext (s.get (F.CIN_PORT_CTRL_LG n))

/-- An error of a port about line `k` (R226). -/
def State.cinErr (s : State) (n cls cause k : Nat) : State :=
  s.logErr (siteCin n) cls cause [k % 2 ^ 32, s.stripOf n k]

/-- The number of the strip of line `k`, not wrapped. -/
def State.stripNo (s : State) (n k : Nat) : Nat := (k - s.get (F.CIN_PORT_STRIP_ORIGIN n)) / s.stripLines n

/-- An error that is logged at most once per strip (R211). -/
def State.cinErrOnce (s : State) (n cls cause k : Nat) : State :=
  let c := s.cam n
  let e := (cause, s.stripNo n k)
  if c.logged.contains e then s else (s.setCam n { c with logged := c.logged ++ [e] }).cinErr n cls cause k

/-! ### Exposure control (R214–R217) -/

/-- The shadow registers, as they stood before a write of the running cycle (R222). -/
def State.expShadow (s : State) (n : Nat) : ExpShadow :=
  let setId := s.was (F.CIN_PORT_EXP_ID_SET_ID n)
  { setId := setId, ratio := s.was (F.CIN_PORT_EXP_GAIN_RATIO n),
    word := field 0 16 setId + field 16 16 (s.was (F.CIN_PORT_EXP_GAIN_GAIN n)) + field 32 20 (s.was (F.CIN_PORT_EXP_TIME n))
      + field 52 12 (s.was (F.CIN_PORT_EXP_ID_OFFSET n)) }

/-- The EXPOSURE packet of a setting for a target strip (R214), with that strip's first line; it takes a link that is up. -/
def State.sendExposure (s : State) (n : Nat) (e : ExpShadow) (first target : Nat) : State :=
  if s.on (F.CIN_PORT_STAT_LINK_UP n) then
    s.sendCamera n 0x50 (first % 2 ^ 32)
      [BitVec.ofNat 64 e.word, BitVec.ofNat 64 (field 0 16 e.ratio + field 16 32 target)]
  else s

def State.showPend (s : State) (n : Nat) : State := s.put (F.CIN_PORT_STAT_PENDING n) (s.cam n).pend.length

/-- A commit of a shadow exposure (R215). DESIGN CHOICE (assumption 105): where targets move on with no trigger to take the sets up
(DISABLED, LINKING), the two latest are held. -/
def State.expTake (s : State) (n : Nat) (sh : ExpShadow) : State :=
  let c := s.cam n
  let (k, a) := match c.lastTrig, c.strip with
    | some k, some (_, a) => (k, a)
    | _, _ => (s.camNext n, 0)
  let j := if s.get (F.CIN_PORT_STRIP_EXP_LEAD n) ≤ s.stripLines n - a then 1 else 2
  let target := (s.stripOf n k + j) % 2 ^ 32
  let e : ExpSet := { target := target, setId := sh.setId, ratio := sh.ratio }
  let pend := (c.pend.filter fun (p : ExpSet) => p.target != target) ++ [e]
  let s := s.setCam n { c with pend := pend.drop (pend.length - 2) }
  ((s.put (F.CIN_PORT_EXP_TARGET n) target).showPend n).sendExposure n sh (s.stripStart n k j) target

/-- A commit that has waited for a trigger of its own cycle (R222). -/
def State.expAsked (s : State) (n : Nat) : State :=
  match (s.cam n).ask with
  | some sh => (s.setCam n { s.cam n with ask := none }).expTake n sh
  | none => s

/-- Entry to RUNNING (R217). -/
def State.cinRun (s : State) (n : Nat) : State :=
  let k := s.camNext n
  let sh := s.expShadow n
  let s := s.setCam n { s.cam n with
    pend := [], ask := none, ratio := sh.ratio, metas := [], lastMeta := none, lastTrig := none,
    strip := none, entryStrip := s.stripOf n k, linkLost := false, telAt := s.now }
  let s := ((s.put (F.CIN_PORT_STAT_STATE n) cinRunning).put (F.CIN_PORT_EXP_STATE_IN_FORCE n) sh.setId).showPend n
  s.sendExposure n sh (s.stripStart n k 0) (s.stripOf n k)

/-! ### Line assembly (R206, R211) -/

/-- The bits of a sample (R227). -/
def State.camBits (s : State) (n : Nat) : Nat :=
  match s.get (F.CIN_PORT_CFG_BITS n) with
  | 0 => 8
  | 1 => 10
  | _ => 12

/-- The number the payload words make. -/
def wordsNat : List DWord → Nat
  | [] => 0
  | w :: ws => w.toNat + 2 ^ 64 * wordsNat ws

/-- N_r of a half (R211). -/
def CinHalf.received (h : CinHalf) (b : Nat) : Nat := 64 * h.words.length / b

/-- The samples of a half as 12 bits, padded to the line's width (R206, R211). -/
def CinHalf.samples (h : CinHalf) (b w pad : Nat) : List Nat :=
  let v := wordsNat h.words
  let n := h.received b
  (List.range w).map fun i => if i < n then 2 ^ (12 - b) * (v / 2 ^ (b * i) % 2 ^ b) else pad

/-- Whether a half that has packets closes as SHORT or as LONG in a line of `w` samples (R211): one without its LAST, or with a
packet out of order, is SHORT whatever it has received. -/
def CinHalf.isShort (h : CinHalf) (b w : Nat) : Bool := h.disorder || !h.shut || h.received b < w
def CinHalf.isLong (h : CinHalf) (b w : Nat) : Bool := !h.disorder && h.shut && w < h.received b

/-- The halves that a line is made of. -/
def CinLine.halves (l : CinLine) (dual : Bool) : List CinHalf := if dual then [l.short, l.long] else [l.long]

/-- A line closes (R211): its flags are counted and its causes logged. Its buffer words may have been upset (R221; DESIGN CHOICE,
assumption 100). -/
def State.closeLine (s : State) (n : Nat) (dual : Bool) (l : CinLine) : State :=
  let w := s.get (F.CIN_PORT_WIDTH n)
  let b := s.camBits n
  let hs := l.halves dual
  let lost := hs.all fun h => !h.any
  let short := !lost && hs.any fun h => h.isShort b w
  let long := !lost && hs.any fun h => h.isLong b w
  let s := if lost then
      let s := s.bump (F.CIN_PORT_MISSING n)
      if l.linking then s else s.cinErrOnce n 0x03 0x020 l.k
    else s
  let s := if short then
      let s := s.bump (F.CIN_PORT_SHORT n)
      if hs.any fun h => !h.disorder && h.isShort b w then s.cinErrOnce n 0x02 0x010 l.k else s
    else s
  let s := if long then (s.bump (F.CIN_PORT_LONG n)).cinErrOnce n 0x02 0x011 l.k else s
  let s := if lost || short || long then
      let strip := s.stripNo n l.k
      let c := s.cam n
      if c.evStrips.contains strip then s else (s.setCam n { c with evStrips := c.evStrips ++ [strip] }).cinEvent (3 * n + 1)
    else s
  let (v, s) := if lost then (0, s) else s.draw
  let mark := if l.mark = .good then upsetOf v else l.mark
  let c := s.cam n
  let lines := c.lines.map fun (u : CinLine) => if u.k = l.k then { l with closed := true, mark := mark } else u
  s.setCam n { c with lines := lines }

/-- A strip is complete (R213, R255). -/
def State.stripDone (s : State) (n strip : Nat) : State :=
  ((s.put (F.CIN_PORT_STRIP_DONE n) strip).cinEvent (3 * n)).statsWrite n strip

/-- The setting that a line is tagged with, and whether R216 finds it unconfirmed: the METAs up to the line are
taken, with one that names an earlier line or none. -/
def State.confirm (s : State) (n : Nat) (l : CinLine) : Nat × Bool × State :=
  let c := s.cam n
  let due := c.metas.filter fun m => m.1 ≤ l.k
  let mine := due.map (·.2)
  let last := match due.getLast? with
    | some m => some m.2
    | none => c.lastMeta
  let s := s.setCam n { c with metas := c.metas.filter fun m => l.k < m.1, lastMeta := last }
  let checked := s.stripOf n l.k != c.entryStrip
  let bad := checked && ((match l.opens with
    | some id => !mine.contains id
    | none => false) || mine.any fun id => id != l.setId)
  let s := if bad then
      ((s.bump (F.CIN_PORT_EXP_MISMATCH n)).cinErr n 0x02 0x015 l.k).cinEvent 49
    else s
  (last.getD l.setId, bad, s)

/-- The flags of a line's tag (R211, R212). -/
def lineFlags (lost part long dual bad unconfirmed : Bool) : Nat :=
  (if lost then flMissing else b2n part * flShort + b2n long * flLong) + b2n (dual && part) * flDual
    + b2n bad * flBad + b2n unconfirmed * flUnconfirmed

/-- After a delivery: counts, the event of a target strip's first line, and the end of a strip (R212–R215). -/
def State.delivered (s : State) (n : Nat) (l : CinLine) (strip : Nat) : State :=
  let s := s.bump (F.CIN_PORT_LINES n)
  let s := if l.opens.isSome then s.cinEvent (3 * n + 2) else s
  let last := s.stripIndex n l.k + 1 == s.stripLines n
  let c := s.cam n
  let s := s.setCam n { c with
    lastK := some l.k, shownK := l.k, lines := c.lines.drop 1, openStrip := if last then none else some strip }
  if last then s.stripDone n strip else s

/-- A closed line is delivered to the IPL with its tag (R212). -/
def State.deliver (s : State) (n : Nat) (dual : Bool) (l : CinLine) : State :=
  let w := s.get (F.CIN_PORT_WIDTH n)
  let b := s.camBits n
  let pad := s.get (F.CIN_PORT_PAD n)
  let (id, unconfirmed, s) := s.confirm n l
  let hs := l.halves dual
  let lost := hs.all fun h => !h.any
  let part := hs.any fun h => h.isShort b w
  let bad := l.mark == .uncorrectable || l.mark == .poison
  let s := if bad then s.cinErr n 0x02 0x014 l.k else if l.mark == .corrected then s.bump (F.CIN_PORT_ECC_CORR n) else s
  let flags := lineFlags lost part (hs.any fun h => h.isLong b w) dual bad unconfirmed
  let strip := s.stripOf n l.k
  let prev := (s.cam n).openStrip
  let s := match prev with
    | some p => if p != strip then s.stripDone n p else s
    | none => s
  let line : PortLine := {
    k := l.k, exposeAt := l.exposeAt, strip := strip, index := s.stripIndex n l.k, setId := id, flags := flags,
    ratio := l.ratio, samples := l.long.samples b w pad, short := if dual then l.short.samples b w pad else [],
    got := l.long.received b, gotShort := l.short.received b }
  (s.iplTake n line).delivered n l strip

/-- Lines that have closed are delivered in increasing k (R212). -/
def State.deliverClosed (s : State) (n : Nat) (dual : Bool) : Nat → State
  | 0 => s
  | fuel + 1 =>
    match (s.cam n).lines with
    | [] => s
    | l :: _ => if l.closed then (s.deliver n dual l).deliverClosed n dual fuel else s

/-- The port enters DISABLED. What R211 and R213 count by strip stays. -/
def State.cinOff (s : State) (n : Nat) : State :=
  let c := s.cam n
  (s.put (F.CIN_PORT_STAT_STATE n) cinDisabled).setCam n {
    lastK := c.lastK, shownK := c.shownK, telFull := c.telFull, pend := c.pend, openStrip := c.openStrip, logged := c.logged, evStrips := c.evStrips }

/-- The configuration checks of an enable (R209, R213, R224). -/
def State.cinOk (s : State) (n : Nat) : Bool :=
  let w := s.get (F.CIN_PORT_WIDTH n)
  let lead := s.get (F.CIN_PORT_STRIP_EXP_LEAD n)
  256 ≤ w && w ≤ 16384 && w % 32 == 0 && 256 ≤ s.stripLines n && 1 ≤ lead && lead < s.stripLines n
    && 1 ≤ s.get (F.CIN_PORT_TRIG_LINE_WAIT n) && 512 ≤ s.get (F.CIN_PORT_TRIG_TRIG_DELAY n)
    && s.get (F.CIN_PORT_STRIP_ORIGIN n) ≤ s.camNext n

/-- An enable while DISABLED (R220, R224): refused, the port stays DISABLED with EN as it was written. -/
def State.cinStart (s : State) (n : Nat) : State :=
  let s := s.put (F.CIN_PORT_CTRL_EN n) 1
  if s.cinOk n then
    let s := (s.put (F.CIN_PORT_STAT_STATE n) cinLinking).setCam n { s.cam n with lastK := none }
    if s.on (F.CIN_PORT_STAT_LINK_UP n) then s.cinRun n else s
  else (s.flag (F.CIN_PORT_STAT_CFG_ERR n)).cinErr n 0x01 0x001 (s.camNext n)

/-- A DRAINING port with every open line closed is DISABLED (R220). -/
def State.cinSettle (s : State) (n : Nat) : State :=
  if s.cinState n = cinDraining && (s.cam n).lines = [] then
    let s := s.cinOff n
    if s.on (F.CIN_PORT_CTRL_EN n) then s.cinStart n else s
  else s

/-- The lines whose deadline a commit of line `k` is close (R211), and closed lines go out. -/
def State.deadline (s : State) (n k : Nat) : State :=
  let dual := s.on (F.CIN_PORT_CFG_DUAL n)
  let wait := s.get (F.CIN_PORT_TRIG_LINE_WAIT n)
  let s := ((s.cam n).lines.filter fun l => !l.closed && l.k + wait ≤ k).foldl (fun s l => s.closeLine n dual l) s
  let c := s.cam n
  let s := s.setCam n { c with dropped := c.dropped.filter fun j => k < j + wait }
  (s.deliverClosed n dual (c.lines.length)).cinSettle n

/-- EN rises (R217). -/
def State.cinEnable (s : State) (n : Nat) : State :=
  if s.cinState n = cinDisabled then s.cinStart n else s.put (F.CIN_PORT_CTRL_EN n) 1

def execCinPortEnable (dt : Nat) (who : Requester) (n : Fin 16) (s : State) : Res :=
  regCmd dt who (O.CIN_PORT_CTRL n) (fun s => s.cinEnable n) s

/-- Every open line closes with what it has received, and is delivered (R212). -/
def State.closeAll (s : State) (n : Nat) : State :=
  let dual := s.on (F.CIN_PORT_CFG_DUAL n)
  let s := ((s.cam n).lines.filter fun l => !l.closed).foldl (fun s l => s.closeLine n dual l) s
  s.deliverClosed n dual (s.cam n).lines.length

/-- EN falls (R220). DESIGN CHOICE (assumption 104): in LINKING the lines still open, whose triggers were sent, close at once. -/
def State.cinDisable (s : State) (n : Nat) : State :=
  let s := s.put (F.CIN_PORT_CTRL_EN n) 0
  let st := s.cinState n
  if st = cinLinking then (s.closeAll n).cinOff n
  else if st = cinRunning then (s.put (F.CIN_PORT_STAT_STATE n) cinDraining).cinSettle n
  else s

def execCinPortDisable (dt : Nat) (who : Requester) (n : Fin 16) (s : State) : Res :=
  regCmd dt who (O.CIN_PORT_CTRL n) (fun s => s.cinDisable n) s

/-! ### Triggers (R208, R215) -/

/-- The setting whose target strip line `k` opens, and the port after it: pending sets whose strip has come are
taken, and an unacknowledged one is logged (R215). -/
def State.takeSets (s : State) (n k : Nat) : Option Nat × State :=
  let strip := s.stripOf n k
  let c := s.cam n
  let due := c.pend.filter fun (p : ExpSet) => (strip + 2 ^ 32 - p.target) % 2 ^ 32 < 2 ^ 31
  match due.getLast? with
  | none => (none, s)
  | some e =>
    let s := s.setCam n { c with
      pend := c.pend.filter fun (p : ExpSet) => !((strip + 2 ^ 32 - p.target) % 2 ^ 32 < 2 ^ 31), ratio := e.ratio }
    let s := due.foldl (fun s p => if p.acked then s else s.cinErr n 0x03 0x021 k) s
    (some e.setId, (s.put (F.CIN_PORT_EXP_STATE_IN_FORCE n) e.setId).showPend n)

/-- The commit of line `k` with its final T_k reaches a port (R208, R211, R220). -/
def State.cinCommit (s : State) (n k tk : Nat) (late : Bool) : State :=
  let st := s.cinState n
  let at_ := tk + s.get (F.CIN_PORT_TRIG_TRIG_DELAY n)
  if st = cinRunning then
    let s := if late then (s.bump (F.CIN_PORT_TRIG_LATE n)).cinErr n 0x03 0x022 k else s
    let (opens, s) := s.takeSets n k
    let s := s.sendCamera n 0x40 (k % 2 ^ 32) [BitVec.ofNat 64 at_]
    let c := s.cam n
    let strip := s.stripOf n k
    let count := match c.strip with
      | some (p, a) => if p = strip then a + 1 else 1
      | none => 1
    let l : CinLine := {
      k := k, exposeAt := at_, setId := s.get (F.CIN_PORT_EXP_STATE_IN_FORCE n), ratio := c.ratio, opens := opens }
    let s := s.setCam n { c with lines := c.lines ++ [l], lastTrig := some k, strip := some (strip, count) }
    (s.expAsked n).deadline n k
  else if st = cinLinking && (s.cam n).linkLost then
    let c := s.cam n
    let l : CinLine := {
      k := k, exposeAt := at_, setId := s.get (F.CIN_PORT_EXP_STATE_IN_FORCE n), ratio := c.ratio, linking := true }
    let s := s.setCam n { c with lines := c.lines ++ [l] }
    let dual := s.on (F.CIN_PORT_CFG_DUAL n)
    (s.closeLine n dual l).deadline n k
  else if st = cinDraining then s.deadline n k
  else s

/-- A span that a port's generator has missed (R208). -/
def State.cinMissed (s : State) (n : Nat) : State :=
  let s := s.expAsked n
  if s.cinState n = cinDisabled then s else s.bump (F.CIN_PORT_MISS_SPANS n)

/-! ### The camera link (R220, R441) -/

def State.camLinkUp (s : State) (n : Nat) : State :=
  let s := s.put (F.CIN_PORT_STAT_LINK_UP n) 1
  if s.cinState n = cinLinking then s.cinRun n else s

def State.camLinkDown (s : State) (n : Nat) : State :=
  let s := s.put (F.CIN_PORT_STAT_LINK_UP n) 0
  if s.cinState n = cinRunning then
    let s := (s.put (F.CIN_PORT_STAT_STATE n) cinLinking).flag (F.CIN_PORT_STAT_DOWN_SEEN n)
    let s := s.setCam n { s.cam n with linkLost := true }
    (s.cinErr n 0x04 0x040 (s.camNext n)).cinEvent 50
  else s

/-! ### Telemetry (R218, R219) -/

/-- A telemetry alarm (R219). -/
def State.telAlarm (s : State) (n : Nat) : State := (s.flag (F.CIN_PORT_STAT_TEL_ALARM n)).cinEvent 48

/-- A telemetry record goes to the ring (R219). -/
def State.telRecord (s : State) (n : Nat) (ws : List DWord) : State :=
  let size := 2 ^ s.get (F.CIN_PORT_TEL_CFG_SIZE_LOG2 n)
  let prod := s.get (F.CIN_PORT_TEL_PROD n)
  let c := s.cam n
  let k := c.shownK
  if size ≤ (prod + 2 ^ 32 - s.get (F.CIN_PORT_TEL_CONS n)) % 2 ^ 32 then
    let s := s.bump (F.CIN_PORT_TEL_LOST n)
    if c.telFull then s else (s.setCam n { c with telFull := true }).cinErr n 0x06 0x030 k
  else
    let s := s.setCam n { c with telFull := false }
    let r := (List.range 4).flatMap (fun i => toBytes 8 (ws.getD i 0).toNat) ++ toBytes 8 (s.tempoCopy .pix) ++ toBytes 1 n
      ++ toBytes 3 0 ++ toBytes 4 k ++ toBytes 16 0
    let (ok, s) := s.memWrite 14 (s.get (F.CIN_PORT_TEL_BASE n) + prod % size * 64) r
    if ok then s.bump (F.CIN_PORT_TEL_PROD n) else s.cinErr n 0x02 0x016 k

/-- A TELEMETRY packet (R218, R219). -/
def State.telemetry (s : State) (n : Nat) (ws : List DWord) : State :=
  let s := s.setCam n { s.cam n with telAt := s.now }
  let s := (List.range 3).foldl (fun s i => s.put (F.CIN_PORT_TEL_LAST n i) (ws.getD i 0).toNat) s
  let s := if s.on (F.CIN_PORT_TEL_CFG_EN n) then s.telRecord n ws else s
  let w := (ws.getD 0 0).toNat
  let flags := w / 2 ^ 32
  let hot := signed 16 (s.get (F.CIN_PORT_TEL_TEMP_LIMIT n)) < signed 16 w
  if flags &&& s.get (F.CIN_PORT_TEL_ALARM_MASK n) != 0 || hot then s.telAlarm n else s

/-- 1 s without TELEMETRY in RUNNING (R219). -/
def execTelemetrySilent (dt : Nat) (n : Fin 16) (s : State) : Res :=
  evCmd dt (fun s => s.cinState n = cinRunning && (s.cam n).telAt + 4000000000 ≤ s.now) (fun s =>
    let s := s.setCam n { s.cam n with telAt := s.now }
    (s.telAlarm n).cinErr n 0x03 0x023 ((s.cam n).lastTrig.getD 0)) s

/-! ### Packets (R204–R207) -/

/-- The line number a TRIG names: the latest triggered line with those low bits (R204). -/
def State.trigLine (s : State) (n : Nat) (trig : Word) : Nat :=
  let last := (s.cam n).lastTrig.getD 0
  last - (last + 2 ^ 32 - trig.toNat) % 2 ^ 32

/-- Whether an image packet is one the port takes (R207). -/
def State.imageOk (s : State) (n : Nat) (p : CamPacket) : Bool :=
  let t := p.dtype.toNat
  let dual := s.on (F.CIN_PORT_CFG_DUAL n)
  let raw := match s.camBits n with
    | 8 => 0x10
    | 10 => 0x11
    | _ => 0x12
  p.vc == s.get (F.CIN_PORT_CFG_IMG_VC n) && (if dual then t == 0x18 else t == raw)

/-- A half takes a packet (R211). -/
def CinHalf.take (h : CinHalf) (p : CamPacket) : CinHalf :=
  if p.ofs.toNat = h.words.length then { h with words := h.words ++ p.words, any := true, shut := p.last }
  else { h with any := true, shut := true, disorder := true }

/-- An image packet (R211). -/
def State.imagePacket (s : State) (n : Nat) (p : CamPacket) : State :=
  let dual := s.on (F.CIN_PORT_CFG_DUAL n)
  let c := s.cam n
  let mine := fun (l : CinLine) => l.k % 2 ^ 32 == p.trig.toNat && !l.linking
  match c.lines.find? fun l => !l.closed && mine l with
  | some l =>
    let h := if dual && !p.long then l.short else l.long
    if h.shut then s
    else
      let h := h.take p
      let l := if dual && !p.long then { l with short := h } else { l with long := h }
      let s := if h.disorder then
          let s := s.cinErrOnce n 0x02 0x012 l.k
          s.setCam n { s.cam n with dropped := (s.cam n).dropped ++ [l.k] }
        else s
      let c := s.cam n
      let s := s.setCam n { c with lines := c.lines.map fun (u : CinLine) => if u.k = l.k then l else u }
      if (l.halves dual).all (·.shut) then
        ((s.closeLine n dual l).deliverClosed n dual (c.lines.length)).cinSettle n
      else s
  | none =>
    if c.dropped.any fun k => k % 2 ^ 32 == p.trig.toNat then s
    else (s.bump (F.CIN_PORT_UNSOLICITED n)).cinErrOnce n 0x02 0x013 (s.trigLine n p.trig)

/-- A camera packet arrives (R205, R207), in whatever state the port is. -/
def State.camPacket (s : State) (n : Nat) (p : CamPacket) : State :=
  let w0 := (p.words.getD 0 0).toNat
  let c := s.cam n
  match p.dtype.toNat with
  | 0x20 =>
    let id := w0 % 2 ^ 16
    (s.put (F.CIN_PORT_EXP_STATE_REPORTED n) id).setCam n { c with metas := c.metas ++ [(s.trigLine n p.trig, id)] }
  | 0x21 =>
    s.setCam n { c with pend := c.pend.map fun (e : ExpSet) =>
      if e.setId = w0 % 2 ^ 16 then { e with acked := true } else e }
  | 0x30 => s.telemetry n p.words
  | _ => if s.imageOk n p then s.imagePacket n p else s.bump (F.CIN_PORT_VC_DROPPED n)

def execCameraPacketReceive (dt : Nat) (n : Fin 16) (pkt : CamPacket) (s : State) : Res :=
  evCmd dt (fun s => s.on (F.CIN_PORT_STAT_LINK_UP n)) (fun s => s.camPacket n pkt) s

end Sys2Proof.Machine
end

