-- ==== Sys2Proof/Machine/Fvl.lean ====
section
/-! DEFINITION. Fuvor links (16): bring-up, rate steps, retraining, sleep, the link layer, transactions, TIME exchanges and
the mailbox. -/

namespace Sys2Proof.Machine

def fvlEvent (s : State) (i : Nat) : State := s.raise (960 + i)

/-- One microsecond in Tempo units. -/
def micro : Nat := 4000

/-- The lanes of a port in each direction (R422). -/
def lanesIn (p : Nat) : Nat := if p < 32 then 1 else if p < 48 then 4 else if p < 52 then 1 else 8
def lanesOut (p : Nat) : Nat := if p < 52 then 1 else 8

/-- The credits the device advertises, by port and class (R438). -/
def ownCredits (p c : Nat) : Nat :=
  if p < 32 || (48 ≤ p && p < 52) then [1024, 32, 512].getD c 0
  else if p < 48 then [8192, 32, 512].getD c 0
  else [16384, 256, 4096].getD c 0

/-- A bit of a 64-bit bitmap by port. -/
def State.putPortBit (s : State) (f : Fld) (p : Nat) (b : Bool) : State := s.put f (setBits (s.get f) p p (b2n b))

/-- The number of the link word cycle at rate code `r` in which Tempo `t` lies (R18, R424): a word of 32 bits, 1/32 of the rate. -/
def linkCycle (r t : Nat) : Nat := 100 * t / [10240, 5120, 2560, 1600, 1024, 800].getD r 800

/-- Whether something happened on a port in this link word cycle (R447). -/
def State.thisLink (s : State) (p : Nat) : Option Nat → Bool
  | some t =>
    let r := s.get (F.FVL_PORT_STAT_RATE p)
    linkCycle r t == linkCycle r s.now
  | none => false

/-! ### Training in progress (R427, R429) -/

def FvlPort.lane (v : FvlPort) (i : Nat) : LaneTrain := Sparse.get (fun _ => {}) v.lanes i

/-- The physical lane locked as logical lane `i`. -/
def FvlPort.physOf (v : FvlPort) (i : Nat) : Option Nat :=
  (v.lanes.find? fun p => p.2.locked && p.2.lane == i).map (·.1)

/-- RX_LOCK: the logical lanes that the receiver has locked. -/
def FvlPort.rxLock (v : FvlPort) : Nat := (List.range 8).foldl (fun n i => n + 2 ^ i * b2n (v.physOf i).isSome) 0

/-- The rates a port offers: supported, within MAX_RATE and not failed. -/
def State.fvRates (s : State) (p : Nat) : Nat :=
  (s.fvPort p).rates.toNat % 2 ^ (s.get (F.FVL_PORT_CFG_MAX_RATE p) + 1)

/-- The next rate: the lowest code above the current one in both RATES (R430). -/
def State.nextRate (s : State) (p : Nat) : Option Nat :=
  let both := s.fvRates p &&& s.get (F.FVL_PORT_PARTNER_RATES p)
  ((List.range 6).filter fun r => s.get (F.FVL_PORT_STAT_RATE p) < r && bit both r).head?

/-! ### Ordered sets that the device sends (R426, R427) -/

/-- An ordered set of one byte and fifteen of another. -/
def plainSet (a b : Byte) : List Byte := a :: List.replicate 15 b

def sdsSet : List Byte := plainSet 0xE1 0x55
def eiosSet : List Byte := plainSet 0x66 0x66
def wakeSet : List Byte := plainSet 0xF0 0xF0

/-- WIDTH_CAP of a port: the widths up to its lanes of the wider direction (DEDUCED, assumption 116: with the narrower one no camera could
use four lanes). -/
def ownWidths (p : Nat) : Nat := 2 * max (lanesIn p) (lanesOut p) - 1

/-- The TS1 of a port (R427). -/
def State.ts1Image (s : State) (p lock lane : Nat) : List Byte :=
  let nonce := if p = 52 then (s.fvPort p).ownNonce else 0
  (([0x4B, lane, s.get (F.FVL_PORT_STAT_RATE p), ownWidths p, nonce % 256, nonce / 256 % 256, if p < 52 then 1 else 0, lock].map
    (BitVec.ofNat 8 ·)) ++ List.replicate 8 0x4A)

/-- The TS2 of a port (R427). The device's PROFILE towards heads, cameras and I/O nodes, and its endpoint towards the twin, the manual does
not give: they are free values. -/
def State.ts2Image (s : State) (p : Nat) (change : Bool) (lane : Nat) : List Byte :=
  let free := fun (k : Nat) => (Config.undefWord (2 ^ 123 + 2 ^ 8 * k + p)).toNat
  let profile := if p = 52 then 4 else free 0 % 256
  let ep := if p = 52 then 1 + free 1 % 1022 else 0
  let cr := [ownCredits p 0, ownCredits p 1, ownCredits p 2].flatMap fun n => [n % 256, n / 256]
  let b := ([0x3C, lane, s.get (F.FVL_PORT_STAT_RATE p), s.fvRates p, profile, b2n change, ep % 256, ep / 256] ++ cr
    ++ [s.get (F.FVL_PORT_STAT_WIDTH_IN p)]).map (BitVec.ofNat 8 ·)
  b ++ [b.foldl (· ^^^ ·) 0]

/-- Each of the first `n` lanes sends an ordered set. -/
def State.sendSets (s : State) (p n : Nat) (os : Nat → List Byte) (times : Option Nat) : State :=
  { s with out := s.out ++ (List.range n).map fun i => .ordered p i (os i) times }

/-- The lanes in use send an ordered set. -/
def State.sendInUse (s : State) (p : Nat) (os : Nat → List Byte) (times : Option Nat) : State :=
  s.sendSets p (2 ^ s.get (F.FVL_PORT_STAT_WIDTH_OUT p)) os times

/-- The forwarded clock runs at the current rate, or stops; port 52 has none (R422, R423). -/
def State.fvDriveClock (s : State) (p : Nat) (runs : Bool) : State :=
  if p < 52 then s.emit (.fvClock p (if runs then some (s.get (F.FVL_PORT_STAT_RATE p)) else none)) else s

/-- Whether this end leads a rate change (R430): the device on ports 0 to 51, the lower nonce on port 52. -/
def State.fvLeads (s : State) (p : Nat) : Bool := p != 52 || decide ((s.fvPort p).ownNonce < (s.fvPort p).nonce)

/-- A nonce for the twin port is drawn. -/
def State.drawNonce (s : State) : State :=
  let (v, s) := s.draw
  s.setFvPort 52 { s.fvPort 52 with ownNonce := v.toNat % 65536 }

/-- What a port sends on entering a state: the clock from CLOCK on, TS1 in TRAIN and RETRAIN, TS2 in CONFIG and STEP, where the leading
end sets CHANGE when a higher rate is common, and SDS at the start of ACTIVE (R428–R430). -/
def State.announce (s : State) (p st : Nat) : State :=
  if st = fvDown then s.fvDriveClock p false
  else if st = fvClock then (if p = 52 then s.drawNonce else s).fvDriveClock p true
  else if st = fvTrain || st = fvRetrain then (s.fvDriveClock p true).sendSets p (lanesOut p) (s.ts1Image p 0) none
  else if st = fvConfig then s.sendInUse p (s.ts2Image p false) none
  else if st = fvStep then (s.fvDriveClock p true).sendInUse p (s.ts2Image p ((s.nextRate p).isSome && s.fvLeads p)) none
  else s.sendInUse p (fun _ => sdsSet) (some 1)

/-! ### States (R428) -/

/-- A port enters a state: FVL_UP shows ACTIVE, the time of entry is kept, and the port sends what the state has it send. -/
def State.fvEnter (s : State) (p st : Nat) : State :=
  let s := (s.put (F.FVL_PORT_STAT_STATE p) st).putPortBit F.FVL_UP p (st == fvActive)
  (s.setFvPort p { s.fvPort p with since := s.now }).announce p st

/-- A mailbox transaction completes (R443). -/
def State.mboxDone (s : State) (status : Nat) : State :=
  let s := { s with fvl := { s.fvl with mbox := none } }
  fvlEvent ((s.put F.FVL_XACT_CTRL_BUSY 0).put F.FVL_XACT_CTRL_STATUS status) 6

/-- The endpoint entries learned on a port, by their offsets. -/
def State.learnedOn (s : State) (p : Nat) : List Nat :=
  (s.regs.filter fun r => 0x00F04000 ≤ r.1 && r.1 < 0x00F05000 && bits r.2.toNat 5 0 == p && bit r.2.toNat 7).map (·.1)

/-- The endpoint entries learned on a port are cleared (R431). -/
def State.forgetEndpoints (s : State) (p : Nat) : State :=
  let l := s.learnedOn p
  let s := l.foldl (fun (s : State) o => s.setWord o 0) s
  s.setFvPort p { s.fvPort p with forgot := l.map fun o => (o - 0x00F04000) / 4 }

/-- A part of the pairing goes to the partner (R478, R490): a certificate with a nonce, a signature or an ECDH share, whose words no rule
gives. -/
def State.pairPart (s : State) : State :=
  let (v, s) := s.draw
  s.sendTwin 0x08 (Config.pairPart v.toNat)

/-- Pairing starts (R476): enabled, in SOLO, with port 52 ACTIVE to a twin (profile 0x04). -/
def State.pairStart (s : State) : State :=
  if s.on F.TWN_CTRL_EN && s.twnState = twSolo && s.fvState 52 = fvActive && s.get (F.FVL_PORT_PARTNER_PROFILE 52) = 4 then
    (s.setTwnState twPairing).pairPart
  else s

/-- Pairing fails (R476, R494). -/
def State.pairFail (s : State) : State := (s.setTwnState twSolo).logErr siteTwn 0x05 0x040 []

/-- The partner's Tempo minus this device's own, as the exchange on the twin link finds it (R479): a value of the world. -/
def State.tempoOffset (s : State) : State :=
  let (v, s) := s.draw
  s.put F.TWN_TEMPO_OFFSET v.toNat

/-- The client of a port sees its link go up or down (R441). -/
def State.clientUp (s : State) (p : Nat) : State :=
  let profile := s.get (F.FVL_PORT_PARTNER_PROFILE p)
  if p < 32 then
    if profile = 1 then (if s.on (F.FTU_LINK_STAT_UP p) then s else s.headLinkUp p)
    else fvlErr s 0x01 0x005 p profile
  else if p < 48 then
    if profile = 2 then (if s.on (F.CIN_PORT_STAT_LINK_UP (p - 32)) then s else s.camLinkUp (p - 32))
    else fvlErr s 0x01 0x005 p profile
  else if p = 52 then (if profile = 4 then s.pairStart else fvlErr s 0x01 0x005 p profile)
  else s

def State.clientDown (s : State) (p : Nat) : State :=
  if p < 32 then (if s.on (F.FTU_LINK_STAT_UP p) then s.headLinkDown p else s)
  else if p < 48 then (if s.on (F.CIN_PORT_STAT_LINK_UP (p - 32)) then s.camLinkDown (p - 32) else s)
  else if p = 52 && s.twnState = twPairing then s.pairFail
  else s

/-- A port goes DOWN (R428): from ACTIVE or RETRAIN, or from the rate rounds of an UPSHIFT, it discards what it holds, counts the loss, and
its client sees it. -/
def State.fvGoDown (s : State) (p : Nat) : State :=
  let lost := s.fvUp p
  let s := (s.fvEnter p fvDown).setFvPort p {
    since := s.now, leftAt := some s.now, downAt := some s.now, tag := (s.fvPort p).tag, ownNonce := (s.fvPort p).ownNonce }
  let s := (s.put (F.FVL_PORT_STAT_TX_SLEEP p) 0).put (F.FVL_PORT_STAT_RX_SLEEP p) 0
  if lost then
    let s := ((s.forgetEndpoints p).bump (F.FVL_PORT_LINK_DOWNS p)).putPortBit F.FVL_DOWN_SEEN p true
    let s := (fvlEvent s 1).clientDown p
    match s.fvl.mbox with
    | some (_, q, _) => if q = p then s.mboxDone 4 else s
    | none => s
  else s

/-- EN is cleared: the port goes DOWN, after 4 EIOS where it was up. The 1 ms before it may start again runs only from the time it last left ACTIVE or
failed (R428). -/
def State.fvStop (s : State) (p : Nat) : State :=
  let st := s.fvState p
  let left := (s.fvPort p).leftAt
  let s := if s.fvUp p then s.sendInUse p (fun _ => eiosSet) (some 4) else s
  let s := s.fvGoDown p
  if st = fvActive || st = fvRetrain then s else s.setFvPort p { s.fvPort p with leftAt := left }

/-- A port in DOWN with EN at 1 leaves for CLOCK at rate code 0 once 1 ms has passed since it last left ACTIVE or failed. -/
def State.fvLeavesDown (s : State) (p : Nat) : Bool :=
  s.fvState p == fvDown && s.on (F.FVL_PORT_CFG_EN p) && match (s.fvPort p).leftAt with
    | some t => decide (t + 1000 * micro ≤ s.now)
    | none => true

def State.fvStart (s : State) (p : Nat) : State :=
  if s.fvLeavesDown p then (s.put (F.FVL_PORT_STAT_RATE p) 0).fvEnter p fvClock else s

/-- A port enters ACTIVE (R428, R437, R438, R442). From STEP, sequence numbers and credits start afresh, and what was
not acknowledged is sent again under new numbers. -/
def State.fvActivate (s : State) (p : Nat) (fresh : Bool) : State :=
  let s := s.fvEnter p fvActive
  let v := s.fvPort p
  let v := {
    v with
    up := true, txAt := 0, idleAt := s.now, timeDue := true, timerAt := s.now, tries := 0, lanes := [], sync := [], back := none }
  let init := [s.get (F.FVL_PORT_CR_CR_P p), s.get (F.FVL_PORT_CR_CR_NP p), s.get (F.FVL_PORT_CR_CPL p)]
  let v := if fresh then
      {
        v with
        seq := 0, rxSeq := 0, nakked := false, unacked := 0, sent := [], txq := v.sent.map (·.2) ++ v.txq,
        credit := (List.range 3).foldl (fun m c => Sparse.set (fun _ => {}) m c { limit := init.getD c 0 }) [] }
    else v
  let s := (s.setFvPort p v).put (F.FVL_PORT_LAST_UP p) (s.tempoCopy .pix)
  ((fvlEvent s 0).clientUp p).fvFlush p

/-- A port enters RETRAIN (R433). A direction that would enter sleep in the same link word cycle does not (R447). -/
def State.beginRetrain (s : State) (p : Nat) : State :=
  if s.fvState p = fvActive then
    let s := if s.thisLink p (s.fvPort p).sleptAt then s.put (F.FVL_PORT_SLEEPS p) (s.get (F.FVL_PORT_SLEEPS p) - 1) else s
    let s := s.setFvPort p { s.fvPort p with sleptAt := none }
    let s := s.fvEnter p fvRetrain
    let s := s.setFvPort p { s.fvPort p with lanes := [], sync := [], waking := false }
    let s := (s.put (F.FVL_PORT_STAT_TX_SLEEP p) 0).put (F.FVL_PORT_STAT_RX_SLEEP p) 0
    fvlEvent (fvlErr (s.bump (F.FVL_PORT_RETRAINS p)) 0x04 0x041 p 0) 2
  else s

/-- A port in STEP with no higher common rate enters ACTIVE. -/
def State.stepCheck (s : State) (p : Nat) : State := if (s.nextRate p).isNone then s.fvActivate p true else s

/-! ### Configuration writes (R428, R433) -/

def State.fvUpshift (s : State) (p : Nat) : State :=
  if s.fvState p = fvActive then (s.fvEnter p fvStep).stepCheck p else s

/-- A write of FVL_PORTp_CFG. -/
def State.fvCfg (s : State) (p : Nat) (v : Nat) : State :=
  if bit v 0 && 5 < bits v 3 1 then fvlErr s 0x01 0x001 p (bits v 3 1)
  else
    let was := s.on (F.FVL_PORT_CFG_EN p)
    let s := s.put (F.FVL_PORT_CFG p) (v % 32 + 2 ^ 8 * bits v 11 8 + 2 ^ 16 * bits v 31 16)
    let s := if bit v 0 && !was then s.fvStart p
      else if !bit v 0 && was && s.fvState p != fvDown then s.fvStop p
      else s
    let s := if bit v 6 then s.beginRetrain p else s
    if bit v 5 then s.fvUpshift p else s

def execFvlPortEnable (dt : Nat) (who : Requester) (p : Fin 53) (v : Word) (s : State) : Res :=
  regCmd dt who (O.FVL_PORT_CFG p) (fun s => s.fvCfg p (setBits v.toNat 0 0 1)) s

def execFvlPortDisable (dt : Nat) (who : Requester) (p : Fin 53) (v : Word) (s : State) : Res :=
  regCmd dt who (O.FVL_PORT_CFG p) (fun s => s.fvCfg p (setBits v.toNat 0 0 0)) s

def execFvlRetrain (dt : Nat) (who : Requester) (p : Fin 53) (s : State) : Res :=
  regCmd dt who (O.FVL_PORT_CFG p) (fun s => s.beginRetrain p) s

def execFvlUpshift (dt : Nat) (who : Requester) (p : Fin 53) (s : State) : Res :=
  regCmd dt who (O.FVL_PORT_CFG p) (fun s => s.fvUpshift p) s

def execFvlDownHoldoffEnd (dt : Nat) (p : Fin 53) (s : State) : Res :=
  evCmd dt (fun s => s.fvLeavesDown p) (fun s => s.fvStart p) s

/-- 10 µs of clock or idle lanes have been sent. -/
def execFvlClockDone (dt : Nat) (p : Fin 53) (s : State) : Res :=
  evCmd dt (fun s => s.fvState p == fvClock && decide ((s.fvPort p).since + 10 * micro ≤ s.now)) (fun s =>
    let s := s.fvEnter p fvTrain
    s.setFvPort p { s.fvPort p with lanes := [], ts2 := 0 }) s

/-! ### Training (R427, R429) -/

/-- Whether logical lanes 0 to 2^w − 1 are locked by the receiver, and by the partner's. -/
def FvlPort.lockedIn (v : FvlPort) (w : Nat) : Bool := (List.range (2 ^ w)).all fun i => (v.physOf i).isSome
def FvlPort.lockedOut (v : FvlPort) (w : Nat) : Bool := (List.range (2 ^ w)).all fun i => bit v.partnerLock i

/-- The widths of a direction that meet R429, largest first. -/
def FvlPort.widths (v : FvlPort) (lanes : Nat) (locked : Nat → Bool) : List Nat :=
  [3, 2, 1, 0].filter fun w => 2 ^ w ≤ lanes && bit v.partnerCap w && locked w

/-- ORDER and POLARITY of LANE_MAP for the locked lanes. -/
def FvlPort.order (v : FvlPort) : Nat := (List.range 8).foldl (fun n i => n + 2 ^ (3 * i) * ((v.physOf i).getD 0 % 8)) 0
def FvlPort.polarity (v : FvlPort) : Nat :=
  (List.range 8).foldl (fun n i => match v.physOf i with
    | some l => n + 2 ^ i * b2n (v.lane l).inverted
    | none => n) 0

/-- TRAIN is settled at the given widths: CONFIG (R429). -/
def State.fvTrained (s : State) (p wIn wOut : Nat) : State :=
  let v := s.fvPort p
  let s := (s.put (F.FVL_PORT_STAT_WIDTH_IN p) wIn).put (F.FVL_PORT_STAT_WIDTH_OUT p) wOut
  let s := (s.put (F.FVL_PORT_LANE_MAP_ORDER p) v.order).put (F.FVL_PORT_LANE_MAP_POLARITY p) v.polarity
  let s := s.fvEnter p fvConfig
  let s := s.setFvPort p { s.fvPort p with ts2 := 0 }
  if v.back.isNone && (2 ^ wIn < lanesIn p || 2 ^ wOut < lanesOut p) then
    fvlEvent (fvlErr (s.flag (F.FVL_PORT_STAT_DEGRADED_WIDTH p)) 0x04 0x045 p wIn) 3
  else s

/-- Whether the training of a port is settled. With every lane that the two ends can use locked it is; how long a port waits for
lanes that do not lock, the manual leaves open, so with lane 0 locked in both directions it may settle for fewer. -/
def State.fvSettle (s : State) (p : Nat) : State :=
  let v := s.fvPort p
  if s.fvState p = fvRetrain || v.back.isSome then
    let wIn := s.get (F.FVL_PORT_STAT_WIDTH_IN p)
    let wOut := s.get (F.FVL_PORT_STAT_WIDTH_OUT p)
    if v.lockedIn wIn && v.lockedOut wOut then
      if s.fvState p = fvRetrain then s.fvActivate p false else s.fvTrained p wIn wOut
    else s
  else
    match v.widths (lanesIn p) v.lockedIn, v.widths (lanesOut p) v.lockedOut with
    | wIn :: _, wOut :: _ =>
      let best := fun (lanes : Nat) => (v.widths lanes fun _ => true).headD 0
      if wIn = best (lanesIn p) && wOut = best (lanesOut p) then s.fvTrained p wIn wOut
      else
        let (c, s) := s.draw
        if c.toNat % 2 = 1 then s.fvTrained p wIn wOut else s
    | _, _ => s

/-- The bytes of a TS1 and whether its lane is inverted: sync header 0b10 and byte 0x4B, or every bit complemented. -/
def readTs1 (head : BitVec 2) (os : List Byte) : Option (List Nat × Bool) :=
  let b := os.map (·.toNat)
  if head = 2 && b.headD 0 = 0x4B then some (b, false)
  else if head = 1 && b.headD 0 = 0xB4 then some (b.map (255 - ·), true)
  else none

/-- A TS1 arrives on a physical lane: in TRAIN and RETRAIN it trains the lane; RX_LOCK of the TS1 sent follows, and on the twin port a nonce
equal to the partner's is redrawn (R430). In ACTIVE it starts a retrain, but for the 64
that follow a WAKE (R433, R434). -/
def State.ts1 (s : State) (p lane : Nat) (ts : Option (List Nat × Bool)) : State :=
  let v := s.fvPort p
  let old := v.lane lane
  match ts with
  | none => s.setFvPort p { v with lanes := Sparse.set (fun _ => {}) v.lanes lane { old with count := 0 } }
  | some (b, inv) =>
    if s.fvState p = fvActive then (if v.waking then s else s.beginRetrain p)
    else if s.fvState p = fvTrain || s.fvState p = fvRetrain then
      let l := b.getD 1 0
      let n := if old.lane = l && old.inverted = inv then old.count + 1 else 1
      let kept := old.locked && old.lane == l && old.inverted == inv
      let new : LaneTrain := { count := n, lane := l, inverted := inv, locked := kept || decide (8 ≤ n) }
      let w := {
        v with
        lanes := Sparse.set (fun _ => {}) v.lanes lane new, partnerCap := b.getD 3 0,
        partnerLock := b.getD 7 0, nonce := b.getD 4 0 + 256 * b.getD 5 0 }
      let s := s.setFvPort p w
      let s := if p = 52 && w.nonce = w.ownNonce then s.drawNonce else s
      let s := if w.rxLock = v.rxLock && (p != 52 || w.nonce != w.ownNonce) then s else s.sendSets p (lanesOut p) (s.ts1Image p w.rxLock) none
      s.fvSettle p
    else s

def execTs1Receive (dt : Nat) (p : Fin 53) (lane : Fin 8) (head : BitVec 2) (os : List Byte) (s : State) : Res :=
  evCmd dt (fun _ => decide (lane.val < lanesIn p)) (fun s => s.ts1 p lane (readTs1 head os)) s

/-- 1 ms in TRAIN without lane 0 locked in both directions. -/
def execFvlTrainTimeout (dt : Nat) (p : Fin 53) (s : State) : Res :=
  evCmd dt (fun s =>
      let v := s.fvPort p
      s.fvState p == fvTrain && decide (v.since + 1000 * micro ≤ s.now) && v.back.isNone
        && !(v.lockedIn 0 && v.lockedOut 0))
    (fun s => fvlErr (s.fvGoDown p) 0x04 0x040 p 0) s

/-! ### Configuration (R427, R430, R431) -/

/-- Whether an ordered set is a TS2 whose check byte is right. -/
def goodTs2 (os : List Byte) : Bool :=
  os.length == 16 && os.headD 0 == 0x3C && (os.take 15).foldl (· ^^^ ·) 0 == os.getD 15 0

def ts2Byte (os : List Byte) (i : Nat) : Nat := (os.getD i 0).toNat
def ts2Half (os : List Byte) (i : Nat) : Nat := ts2Byte os i + 256 * ts2Byte os (i + 1)

/-- What a port reads of its partner in a TS2. -/
def State.partnerTs2 (s : State) (p : Nat) (os : List Byte) : State :=
  let ep := ts2Byte os 6 + ts2Byte os 7 % 4 * 256
  let s := (s.put (F.FVL_PORT_PARTNER_PROFILE p) (ts2Byte os 4)).put (F.FVL_PORT_PARTNER_EP p) ep
  let s := (s.put (F.FVL_PORT_PARTNER_EP_COUNT_M1 p) (ts2Byte os 7 / 4)).put (F.FVL_PORT_PARTNER_RATES p) (ts2Byte os 3)
  let s := (s.put (F.FVL_PORT_CR_CR_P p) (ts2Half os 8)).put (F.FVL_PORT_CR_CR_NP p) (ts2Half os 10)
  s.put (F.FVL_PORT_CR_CPL p) (ts2Half os 12)

/-- The partner's endpoints. -/
def State.partnerEps (s : State) (p : Nat) : List Nat :=
  (List.range (s.get (F.FVL_PORT_PARTNER_EP_COUNT_M1 p) + 1)).map (s.get (F.FVL_PORT_PARTNER_EP p) + ·)

/-- Whether an endpoint address is in conflict (R431): 0, 0x3FF or beyond, or in use on another port. -/
def State.epConflict (s : State) (p a : Nat) : Bool :=
  a == 0 || decide (0x3FF ≤ a) || (s.on (F.FVL_EP_VALID a) && s.get (F.FVL_EP_PORT a) != p)

/-- A port whose partner's endpoint `a` is in conflict returns to DOWN (R431). -/
def State.conflictDown (s : State) (p a : Nat) : State := fvlEvent (fvlErr (s.fvGoDown p) 0x01 0x002 p a) 7

/-- A higher-numbered port that has learned an address of port `p`'s partner in this link word cycle is the one in conflict (R447): what it
learned is cleared, and it returns to DOWN. -/
def State.yieldTo (s : State) (p : Nat) (eps : List Nat) : State :=
  match eps.find? fun a => s.epConflict p a with
  | none => s
  | some a =>
    let q := s.get (F.FVL_EP_PORT a)
    if p < q && s.on (F.FVL_EP_LEARNED a) && s.thisLink q (s.fvPort q).learnedAt then (s.forgetEndpoints q).conflictDown q a else s

/-- The endpoints of the partner are learned, or the port returns to DOWN. -/
def State.learn (s : State) (p : Nat) : State :=
  let eps := s.partnerEps p
  let s := s.yieldTo p eps
  match eps.find? fun a => s.epConflict p a with
  | some a => s.conflictDown p a
  | none =>
    let s := eps.foldl (fun (s : State) a =>
      s.put (F.FVL_EP a) (p + 2 ^ 6 + 2 ^ 7 + 2 ^ 8 * s.get (F.FVL_PORT_PARTNER_PROFILE p))) s
    let s := s.fvEnter p fvStep
    (s.setFvPort p { s.fvPort p with back := none, learnedAt := some s.now }).stepCheck p

/-- Whether 16 TS2 have been sent since CONFIG began. -/
def State.sent16 (s : State) (p : Nat) : Bool :=
  decide ((s.fvPort p).since * 10 + 16 * blockTenths (s.get (F.FVL_PORT_STAT_RATE p)) ≤ 10 * s.now)

/-- A TS2 arrives: in CONFIG it counts, and the eighth good one with 16 sent ends CONFIG; in STEP it carries the
partner's RATES and the change of rate, which starts the silence of 1 µs. -/
def State.ts2 (s : State) (p : Nat) (os : List Byte) : State :=
  if s.fvState p = fvConfig then
    let s := s.partnerTs2 p os
    let s := s.setFvPort p { s.fvPort p with ts2 := (s.fvPort p).ts2 + 1 }
    if 8 ≤ (s.fvPort p).ts2 && s.sent16 p then
      if s.get (F.FVL_PORT_PARTNER_PROFILE p) = 0 then fvlErr (s.fvGoDown p) 0x04 0x040 p 0 else s.learn p
    else s
  else if s.fvState p = fvStep then
    let s := s.put (F.FVL_PORT_PARTNER_RATES p) (ts2Byte os 3)
    if (s.nextRate p).isNone then s.fvActivate p true
    else if ts2Byte os 5 % 2 = 1 && (s.fvPort p).pauseAt.isNone then
      let s := if s.fvLeads p then s else s.sendInUse p (s.ts2Image p true) none
      s.setFvPort p { s.fvPort p with pauseAt := some s.now }
    else s
  else s

def execTs2Receive (dt : Nat) (p : Fin 53) (os : List Byte) (s : State) : Res :=
  evCmd dt (fun _ => goodTs2 os) (fun s => s.ts2 p os) s

/-- 100 µs in CONFIG without completion; in a rate step, the step's own limit holds instead. -/
def execFvlConfigTimeout (dt : Nat) (p : Fin 53) (s : State) : Res :=
  evCmd dt (fun s => s.fvState p == fvConfig && decide ((s.fvPort p).since + 100 * micro ≤ s.now) && (s.fvPort p).back.isNone)
    (fun s => fvlErr (s.fvGoDown p) 0x04 0x040 p 0) s

/-- The silence of a rate step ends: the clock runs at the new rate, and the port trains there. -/
def State.pauseEnd (s : State) (p : Nat) : State :=
  match s.nextRate p with
  | some r =>
    let old := s.get (F.FVL_PORT_STAT_RATE p)
    let s := (s.put (F.FVL_PORT_STAT_RATE p) r).fvEnter p fvTrain
    s.setFvPort p { s.fvPort p with back := some old, pauseAt := none, roundAt := s.now, lanes := [], ts2 := 0 }
  | none => s.setFvPort p { s.fvPort p with pauseAt := none }

def execRateChangePauseEnd (dt : Nat) (p : Fin 53) (s : State) : Res :=
  evCmd dt (fun s => s.fvState p == fvStep && match (s.fvPort p).pauseAt with
      | some t => decide (t + micro ≤ s.now)
      | none => false) (fun s => s.pauseEnd p) s

/-- A rate step not completed within 200 µs: back to the previous rate, the failed one dropped. -/
def State.roundFailed (s : State) (p old : Nat) : State :=
  let failed := s.get (F.FVL_PORT_STAT_RATE p)
  let v := s.fvPort p
  let s := s.setFvPort p { v with back := none, rates := v.rates &&& ~~~(1#6 <<< failed), lanes := [], ts2 := 0 }
  ((s.put (F.FVL_PORT_STAT_RATE p) old).fvEnter p fvStep).stepCheck p

def execFvlRateRoundTimeout (dt : Nat) (p : Fin 53) (s : State) : Res :=
  evCmd dt (fun s => (s.fvPort p).back.isSome && (s.fvState p == fvTrain || s.fvState p == fvConfig)
      && decide ((s.fvPort p).roundAt + 200 * micro ≤ s.now))
    (fun s => match (s.fvPort p).back with
      | some old => s.roundFailed p old
      | none => s) s

/-- A retrain that fails within 200 µs: one rate down, or DOWN at rate code 0 (R433). -/
def State.retrainFailed (s : State) (p : Nat) : State :=
  let r := s.get (F.FVL_PORT_STAT_RATE p)
  if r = 0 then fvlErr (s.fvGoDown p) 0x04 0x043 p 0
  else
    let s := ((s.put (F.FVL_PORT_STAT_RATE p) (r - 1)).flag (F.FVL_PORT_STAT_DOWNSHIFTED p)).fvEnter p fvRetrain
    let s := s.setFvPort p { s.fvPort p with lanes := [] }
    fvlEvent (fvlErr s 0x04 0x042 p (r - 1)) 3

def execFvlRetrainTimeout (dt : Nat) (p : Fin 53) (s : State) : Res :=
  evCmd dt (fun s => s.fvState p == fvRetrain && decide ((s.fvPort p).since + 200 * micro ≤ s.now))
    (fun s => s.retrainFailed p) s

/-! ### Lanes in service (R425, R433, R434) -/

/-- Anything to send wakes a sleeping transmitter, which sends WAKE for 1 µs, 64 TS1, 16 TS2 and SDS and begins its data blocks afresh; a
TIME exchange is due after each wake (R434, R442). -/
def State.wakeTx (s : State) (p : Nat) : State :=
  if s.on (F.FVL_PORT_STAT_TX_SLEEP p) then
    let lock := 2 ^ 2 ^ s.get (F.FVL_PORT_STAT_WIDTH_IN p) - 1
    let s := (s.sendInUse p (fun _ => wakeSet) none).sendInUse p (s.ts1Image p lock) (some 64)
    let s := (s.sendInUse p (s.ts2Image p false) (some 16)).sendInUse p (fun _ => sdsSet) (some 1)
    (s.put (F.FVL_PORT_STAT_TX_SLEEP p) 0).setFvPort p { s.fvPort p with timeDue := true, txAt := 0, idleAt := s.now }
  else s

/-- An invalid sync header: the fourth of a lane within 64 blocks sends an ACTIVE port into RETRAIN (R433), and a lane in training counts its
TS1 anew (R429). -/
def State.syncError (s : State) (p lane : Nat) : State :=
  let s := s.bump (F.FVL_PORT_SYNC_ERRS p)
  let v := s.fvPort p
  let v := { v with lanes := v.lanes.map fun (l : Nat × LaneTrain) => if l.1 = lane && !l.2.locked then (l.1, { l.2 with count := 0 }) else l }
  let since := v.sync.filter fun e =>
    10 * s.now < 10 * e.2 + 64 * blockTenths (s.get (F.FVL_PORT_STAT_RATE p))
  let s := s.setFvPort p { v with sync := since ++ [(lane, s.now)] }
  if 3 ≤ (since.filter fun e => e.1 == lane).length then s.beginRetrain p else s

def execSyncHeaderError (dt : Nat) (p : Fin 53) (lane : Fin 8) (s : State) : Res :=
  evCmd dt (fun s => decide (lane.val < lanesIn p) && s.fvState p != fvDown) (fun s => s.syncError p lane) s

def execAlignReceive (dt : Nat) (p : Fin 53) (inRow : Bool) (s : State) : Res :=
  evCmd dt (fun s => s.fvState p == fvActive) (fun s => if inRow then s else s.beginRetrain p) s

/-- An SDS seeds the descrambler of each received lane and starts the data stream. -/
def execSdsReceive (dt : Nat) (p : Fin 53) (s : State) : Res :=
  evCmd dt (fun s => s.fvState p == fvActive || s.fvState p == fvStep || s.fvState p == fvRetrain) (fun s =>
    s.setFvPort p { s.fvPort p with
      waking := false, seeds := (List.range (2 ^ s.get (F.FVL_PORT_STAT_WIDTH_IN p))).map seedOf }) s

def execEiosReceive (dt : Nat) (p : Fin 53) (s : State) : Res :=
  evCmd dt (fun s => s.fvState p == fvActive) (fun s => s.put (F.FVL_PORT_STAT_RX_SLEEP p) 1) s

def execWakeReceive (dt : Nat) (p : Fin 53) (relocks : Bool) (s : State) : Res :=
  evCmd dt (fun s => s.fvState p == fvActive) (fun s =>
    if relocks then (s.put (F.FVL_PORT_STAT_RX_SLEEP p) 0).setFvPort p { s.fvPort p with waking := true }
    else s.beginRetrain p) s

/-- Whether a TIME exchange is due on a port (R442); on the twin link every millisecond while the TWN is enabled (R479). -/
def State.fvTimeDue (s : State) (p : Nat) : Bool :=
  let t := s.get (F.FVL_PORT_TIME_PERIOD p)
  let t := if p = 52 && s.on F.TWN_CTRL_EN then (if t = 0 then 1000 else min t 1000) else t
  t != 0 && ((s.fvPort p).timeDue || decide ((s.fvPort p).timeAt + t * micro ≤ s.now))

/-- Whether a port has something to send (R434): a transaction, an owed ACK or credit, or a TIME frame. -/
def State.fvBusy (s : State) (p : Nat) : Bool :=
  let v := s.fvPort p
  v.txq != [] || v.unacked != 0 || (v.credit.any fun c => c.2.owed != 0) || s.fvTimeDue p

/-- A transmitter sends 4 EIOS and sleeps (R434). -/
def State.sleepTx (s : State) (p : Nat) : State :=
  let s := s.sendInUse p (fun _ => eiosSet) (some 4)
  let s := s.setFvPort p { s.fvPort p with sleptAt := some s.now }
  (s.put (F.FVL_PORT_STAT_TX_SLEEP p) 1).bump (F.FVL_PORT_SLEEPS p)

def execFvlSleepEntry (dt : Nat) (p : Fin 53) (s : State) : Res :=
  evCmd dt (fun s => s.fvSends p && s.on (F.FVL_PORT_CFG_SLEEP_EN p) && !s.fvBusy p
      && decide ((s.fvPort p).idleAt + max 1 (s.get (F.FVL_PORT_CFG_SLEEP_IDLE p)) * micro ≤ s.now))
    (fun s => s.sleepTx p) s

def execFvlWake (dt : Nat) (p : Fin 53) (s : State) : Res :=
  evCmd dt (fun s => s.fvState p == fvActive && s.on (F.FVL_PORT_STAT_TX_SLEEP p) && s.fvBusy p) (fun s =>
    let s := s.wakeTx p
    (s.setFvPort p { s.fvPort p with idleAt := s.now }).fvFlush p) s

/-! ### Link layer (R436–R438) -/

/-- A signed 16-bit difference of sequence numbers. -/
def seqDiff (a b : Nat) : Int := signed 16 (a + 65536 - b % 65536)

/-- An ACK is sent for everything accepted. -/
def State.sendAck (s : State) (p : Nat) : State :=
  let s := s.wakeTx p
  let v := s.fvPort p
  ((s.setFvPort p { v with unacked := 0 }).countBytes (64 + 2 * p) 8).putAck p false ((v.rxSeq + 65535) % 65536)

/-- One NAK, until the expected frame arrives. -/
def State.sendNak (s : State) (p : Nat) : State :=
  let s := if (s.fvPort p).nakked then s else s.wakeTx p
  let v := s.fvPort p
  if v.nakked then s
  else ((s.setFvPort p { v with nakked := true }).countBytes (64 + 2 * p) 8).putAck p true ((v.rxSeq + 65535) % 65536)

/-- Whether what a TTYPE prescribes for SPEC, word 1 and the number of words is not met (R439). -/
def badSpec (words : List DWord) : Bool :=
  let h := (words.headD 0).toNat
  let a := (words.getD 1 0).toNat
  let data := (bits h 47 40 + 2) / 2
  match h % 16 with
  | 1 => bits h 63 48 != 0 || a % 4 != 0 || decide (2 ^ 32 ≤ a) || words.length != 2 + data
  | 2 => bits h 63 48 != 0 || a % 4 != 0 || decide (2 ^ 32 ≤ a) || words.length != 2
  | 3 => bits h 63 51 != 0 || decide (2 < bits h 50 48) || words.length != 1 + (if bits h 50 48 = 0 then data else 0)
  | 4 => bits h 63 56 != 0 || words.length != 1
  | 5 => bits h 63 40 != 0 || decide (words.length < 2)
  | 6 => bits h 63 42 != 0 || bits h 41 40 == 3 || words.length != (if bits h 41 40 = 2 then 3 else 2)
  | _ => true

/-- Whether a received transaction is malformed (R439): another TTYPE, a reserved bit that is set, or words that its TTYPE does not have. -/
def malformed (words : List DWord) : Bool :=
  let h := (words.headD 0).toNat
  words.isEmpty || bits h 7 4 != 0 || bits h 31 28 != 0 || badSpec words

/-- A receive or replay buffer of a port is read: true where its ECC error is uncorrectable; a corrected one is counted (R450, R451). No
command upsets stored bits, so which it is is free (assumption 100). -/
def State.bufferUpset (s : State) (p : Nat) : Bool × State :=
  let (v, s) := s.draw
  match upsetOf v with
  | .uncorrectable => (true, s)
  | .corrected => (false, s.bump (F.FVL_PORT_BUF_ECC_CORR p))
  | _ => (false, s)

/-- An accepted transaction's words are counted against the credits of its class and freed; what the transaction layer
discards by itself is dropped here, and the rest is carried out by its own command (R438, R440). -/
def State.fvTake (s : State) (p seq : Nat) (words : List DWord) : State :=
  let v := s.fvPort p
  let c := creditClass (txType words)
  let k := v.cls c
  let n := words.length
  let h := (words.headD 0).toNat
  if malformed words then fvlErr s 0x04 0x046 p seq
  else if txType words = 6 then s
  else if ownCredits p c < k.owed + n then
    fvlErr (s.bump (F.FVL_PORT_DROPPED p)) 0x04 0x047 p seq
  else
    let s := s.setFvPort p (v.setCls c { k with
      received := (k.received + n) % 65536, freed := (k.freed + n) % 65536, owed := k.owed + n,
      owedAt := if k.owed = 0 then s.now else k.owedAt })
    let (lost, s) := s.bufferUpset p
    let dest := bits h 17 8
    let mtype := (words.getD 1 0).toNat % 256
    if lost then fvlErr s 0x02 0x010 p seq
    else if p = 52 && txType words = 5 && (mtype = 0 || 8 < mtype) then s.logErr siteTwn 0x04 0x044
    else if p != 52 && ((dest != 0 && dest != 0x3FF) || (txType words == 5 && decide (48 ≤ p))) then
      s.bump (F.FVL_PORT_DROPPED p)
    else s

/-- A DATA frame arrives. -/
def State.dataFrame (s : State) (p : Nat) (f : RxFrame) : State :=
  let s := s.countBytes (65 + 2 * p) (frameBytes f.words.length)
  if !f.crcOk then ((s.bump (F.FVL_PORT_CRC_ERRS p)).tally 0x0F p 3).sendNak p
  else
    let v := s.fvPort p
    let d := seqDiff f.seq.toNat v.rxSeq
    if 0 < d then s.sendNak p
    else if d < 0 then s.sendAck p
    else
      let s := s.setFvPort p { v with
        rxSeq := (v.rxSeq + 1) % 65536, nakked := false, unacked := v.unacked + 1,
        unackedAt := if v.unacked = 0 then s.now else v.unackedAt }
      let s := (s.bump (F.FVL_PORT_FRAMES_RX p)).tally 0x0F p 1
      if f.wellFormed && f.words.length ≤ 66 then s.fvTake p f.seq.toNat f.words else fvlErr s 0x04 0x046 p f.seq.toNat

def execDataFrameReceive (dt : Nat) (p : Fin 53) (frame : RxFrame) (s : State) : Res :=
  evCmd dt (fun s => s.fvState p == fvActive) (fun s => s.dataFrame p frame) s

/-- The frames that an ACK or NAK covers are released; a mailbox write among them completes. -/
def State.release16 (s : State) (p seq : Nat) : State :=
  let v := s.fvPort p
  let gone := v.sent.filter fun f => 0 ≤ seqDiff seq f.1
  if gone = [] then s
  else
    let s := s.setFvPort p { v with
      sent := v.sent.filter fun f => !(0 ≤ seqDiff seq f.1 : Bool), timerAt := s.now, tries := 0 }
    if gone.any fun f => f.2.mbox && txType f.2.words == 1 then s.mboxDone 0 else s

def execAckReceive (dt : Nat) (p : Fin 53) (seq : BitVec 16) (s : State) : Res :=
  evCmd dt (fun s => s.fvState p == fvActive) (fun s => (s.release16 p seq.toNat).fvFlush p) s

/-- Every frame held is sent again, or the port retrains: after REPLAY_NUM tries without progress (R433, R437), or where the replay buffer
has an uncorrectable error (R450). -/
def State.replay (s : State) (p : Nat) : State :=
  let v := s.fvPort p
  if v.sent = [] then s
  else if max 1 (s.get (F.FVL_PORT_CFG_REPLAY_NUM p)) ≤ v.tries then
    (fvlErr s 0x04 0x044 p ((v.sent.map (·.1)).headD 0)).beginRetrain p
  else
    let s := s.wakeTx p
    let (bad, s) := s.bufferUpset p
    if bad then (fvlErr s 0x02 0x010 p ((v.sent.map (·.1)).headD 0)).beginRetrain p
    else
    let v := s.fvPort p
    let s := s.setFvPort p { v with tries := v.tries + 1, timerAt := s.now }
    v.sent.foldl (fun (s : State) f =>
      ((s.bump (F.FVL_PORT_REPLAYS p)).tally 0x0F p 2).countBytes (64 + 2 * p) (frameBytes f.2.words.length)
        |>.putData p f.1 f.2.words) s

def execNakReceive (dt : Nat) (p : Fin 53) (seq : BitVec 16) (s : State) : Res :=
  evCmd dt (fun s => s.fvState p == fvActive) (fun s =>
    (((s.bump (F.FVL_PORT_NAKS_RX p)).release16 p seq.toNat).replay p).fvFlush p) s

/-- Whether the replay timer has expired in a link word cycle before this one: an ACK of the cycle of the expiry restarts it, and nothing is
resent (R437, R447). -/
def State.replayDue (s : State) (p : Nat) : Bool :=
  let v := s.fvPort p
  let due := v.timerAt + max 1 (s.get (F.FVL_PORT_REPLAY_REPLAY_TIME p)) * micro
  s.fvState p == fvActive && v.sent != [] && decide (due < s.now) && !s.thisLink p (some due)

def execReplayTimeout (dt : Nat) (p : Fin 53) (s : State) : Res :=
  evCmd dt (fun s => s.replayDue p) (fun s => s.replay p) s

/-- A CREDIT frame: the limit is the partner's initial credits and the words it has freed. -/
def execCreditReceive (dt : Nat) (p : Fin 53) (cls : Fin 3) (freed : BitVec 16) (s : State) : Res :=
  evCmd dt (fun s => s.fvState p == fvActive) (fun s =>
    let init := [s.get (F.FVL_PORT_CR_CR_P p), s.get (F.FVL_PORT_CR_CR_NP p), s.get (F.FVL_PORT_CR_CPL p)].getD cls.val 0
    let v := s.fvPort p
    (s.setFvPort p (v.setCls cls { v.cls cls with limit := (init + freed.toNat) % 65536 })).fvFlush p) s

def execAckDue (dt : Nat) (p : Fin 53) (s : State) : Res :=
  evCmd dt (fun s =>
      let v := s.fvPort p
      s.fvSends p && v.unacked != 0 && (decide (8 ≤ v.unacked) || decide (v.unackedAt + 2000 ≤ s.now)))
    (fun s => s.sendAck p) s

def execCreditReturn (dt : Nat) (p : Fin 53) (cls : Fin 3) (s : State) : Res :=
  evCmd dt (fun s =>
      let k := (s.fvPort p).cls cls
      s.fvSends p && k.owed != 0 && (decide (ownCredits p cls ≤ 8 * k.owed) || decide (k.owedAt + micro ≤ s.now)))
    (fun s =>
      let v := s.fvPort p
      let k := v.cls cls
      ((s.setFvPort p (v.setCls cls { k with owed := 0 })).countBytes (64 + 2 * p) 8).putCredit p cls k.freed) s

/-! ### Transactions received (R440, R444) -/

/-- A partner cannot write a device register: the transaction is discarded. -/
def execPostedWriteReceive (dt : Nat) (_p : Fin 53) (_addr : Word) (_vals : List Word) (s : State) : Res :=
  .next (s.wait dt)

/-- A READ is answered with STATUS 1; on port 52 it goes to the TWN, which has no READ among its messages (R490). -/
def execReadReceive (dt : Nat) (p : Fin 53) (src : BitVec 10) (tag : BitVec 8) (s : State) : Res :=
  evCmd dt (fun s => s.fvState p == fvActive && decide (p.val < 52)) (fun s =>
    s.sendTo src.toNat { words := [txHeader 3 src.toNat 0 tag.toNat (2 ^ 8)] }) s

/-- A COMPLETION of the mailbox's READ: the data and the STATUS (R443). -/
def State.mboxRead (s : State) (status : Nat) (vals : List Word) : State :=
  let s := if status = 0 then
      ((vals.take 16).zipIdx).foldl (fun (s : State) v =>
        s.put (F.FVL_XACT_DATA v.2) v.1.toNat) s
    else s
  s.mboxDone status

def execCompletionReceive (dt : Nat) (p : Fin 53) (tag : BitVec 8) (status : Fin 3) (vals : List Word) (s : State) : Res :=
  evCmd dt (fun s => s.fvState p == fvActive && s.fvl.reading && match s.fvl.mbox with
      | some (t, _, _) => t == tag.toNat
      | none => false) (fun s => s.mboxRead status vals) s

/-- An endpoint event is written to the event ring, or lost (R444). -/
def State.endpointEvent (s : State) (p src code : Nat) : State :=
  let size := 2 ^ s.get F.FVL_EVRX_CFG_SIZE_LOG2
  let prod := s.get F.FVL_EVRX_PROD
  let lose := fun (s : State) => s.bump F.FVL_EVRX_LOST
  if !s.on F.FVL_EVRX_CFG_EN then lose s
  else if size ≤ (prod + 2 ^ 32 - s.get F.FVL_EVRX_CONS) % 2 ^ 32 then
    let s := lose s
    if s.fvl.lostLogged then s
    else fvlErr (fvlEvent { s with fvl := { s.fvl with lostLogged := true } } 5) 0x06 0x030 p src
  else
    let r := toBytes 2 src ++ [BitVec.ofNat 8 p, 0] ++ toBytes 2 code ++ [0, 0] ++ toBytes 8 (s.tempoCopy .pix)
    let s := (s.memWrite 14 (s.get F.FVL_EVRX_BASE + prod % size * 16) r).2
    fvlEvent ({ s with fvl := { s.fvl with lostLogged := false } }.bump F.FVL_EVRX_PROD) 4

def execEventReceive (dt : Nat) (p : Fin 53) (src : BitVec 10) (code : BitVec 16) (s : State) : Res :=
  evCmd dt (fun s => s.fvState p == fvActive && decide (p.val < 52)) (fun s => s.endpointEvent p src.toNat code.toNat) s

/-! ### TIME exchanges (R442) -/

/-- A stamp of this instant, within 0.5 ns of Tempo. -/
def State.timeStamp (s : State) : Nat × State :=
  let (v, s) := s.draw
  (s.now + v.toNat % 5 - 2, s)

def State.sendPing (s : State) (p : Nat) : State :=
  let v := s.fvPort p
  let tag := (v.tag + 1) % 256
  let (t1, s) := s.timeStamp
  (s.setFvPort p { v with tag := tag, ping := some (tag, t1, s.now), timeDue := false, timeAt := s.now }).putTime p 1 tag 0

def execTimeExchange (dt : Nat) (p : Fin 53) (s : State) : Res :=
  evCmd dt (fun s => s.fvSends p && s.fvTimeDue p) (fun s => s.sendPing p) s

/-- DELAY from a PONG, and the SET that carries the launch stamp plus DELAY. -/
def State.pong (s : State) (p t1 turnaround : Nat) : State :=
  let (t4, s) := s.timeStamp
  let delay : Int := ((t4 : Int) - t1 - turnaround + 1) / 2
  let s := s.putInt (F.FVL_PORT_DELAY p) delay
  let (launch, s) := s.timeStamp
  let s := if p = 52 && s.on F.TWN_CTRL_EN then s.tempoOffset else s
  (s.setFvPort p { s.fvPort p with ping := none }).putTime p 0 0 (unsigned 64 ((launch : Int) + delay))

def execTimePongReceive (dt : Nat) (p : Fin 53) (tag : BitVec 8) (turnaround : DWord) (s : State) : Res :=
  evCmd dt (fun s => s.fvState p == fvActive && match (s.fvPort p).ping with
      | some (t, _, at_) => t == tag.toNat && decide (s.now ≤ at_ + 10 * micro)
      | none => false)
    (fun s => match (s.fvPort p).ping with
      | some (_, t1, _) => s.pong p t1 turnaround.toNat
      | none => s) s

def execPongTimeout (dt : Nat) (p : Fin 53) (s : State) : Res :=
  evCmd dt (fun s => match (s.fvPort p).ping with
      | some (_, _, at_) => decide (at_ + 10 * micro ≤ s.now)
      | none => false)
    (fun s => fvlErr (s.setFvPort p { s.fvPort p with ping := none }) 0x03 0x020 p 0) s

/-! ### The mailbox (R443) -/

/-- Whether an endpoint's link went down in this link word cycle, which cleared its entry (R447). -/
def State.justForgot (s : State) (dest : Nat) : Bool :=
  s.fvl.port.any fun p => p.2.forgot.contains dest && s.thisLink p.1 p.2.downAt

def State.mailboxGo (s : State) (read : Bool) : State :=
  if s.on F.FVL_XACT_CTRL_BUSY then s
  else
    let s := s.put F.FVL_XACT_CTRL_READ (b2n read)
    let dest := s.get F.FVL_XACT_DEST
    let n := s.get F.FVL_XACT_COUNT
    let addr := BitVec.ofNat 64 (s.get F.FVL_XACT_ADDR / 4 * 4)
    if dest != 0 && !s.on (F.FVL_EP_VALID dest) && s.justForgot dest then s.mboxDone 4
    else if dest = 0 || !s.on (F.FVL_EP_VALID dest) then fvlErr (s.mboxDone 5) 0x01 0x003 (s.get (F.FVL_EP_PORT dest)) dest
    else
      let p := s.get (F.FVL_EP_PORT dest)
      if !s.fvUp p then s.mboxDone 4
      else
        let tag := (s.fvl.tag + 1) % 256
        let data := (List.range (n + 1)).map fun i => BitVec.ofNat 32 (s.get (F.FVL_XACT_DATA i))
        let words := if read then [txHeader 2 dest 0 tag n, addr] else txHeader 1 dest 0 tag n :: addr :: packWords data
        let s := { s with fvl := { s.fvl with tag := tag, mbox := some (tag, p, s.now), reading := read } }
        (s.put F.FVL_XACT_CTRL_BUSY 1).fvSend p { words := words, mbox := true }

def execMailboxGo (dt : Nat) (who : Requester) (v : Word) (s : State) : Res :=
  regCmd dt who O.FVL_XACT_CTRL (fun s => s.mailboxGo (bit v.toNat 1)) s

def execMailboxTimeout (dt : Nat) (s : State) : Res :=
  evCmd dt (fun s => s.fvl.reading && match s.fvl.mbox with
      | some (_, _, at_) => decide (at_ + 100 * micro ≤ s.now)
      | none => false)
    (fun s =>
      let dest := s.get F.FVL_XACT_DEST
      fvlErr (s.mboxDone 3) 0x04 0x048 (s.get (F.FVL_EP_PORT dest)) dest) s

end Sys2Proof.Machine
end

