-- ==== Sys2Proof/Machine/Launch.lean ====
section
/-! DEFINITION. Line generators (02, R56–R60): launches, commits, missed spans, and the commands that move WCO or its
source. -/

namespace Sys2Proof.Machine

/-- The smallest PITCH a generator runs with, in 2^-16 nm (R59). -/
def minPitch : Nat := 1024 * 2 ^ 16

/-- Whether generator `g` holds (R58, R59): the source speed is not positive, or PITCH is too small. -/
def State.holds (s : State) (g : Nat) : Bool :=
  decide (s.wtu.latchV ≤ 0) || decide (s.get (F.WTU_LG_PITCH g) < minPitch)

/-- The first line whose P_k is ahead of WCO (R58). -/
def State.firstAhead (s : State) (g : Nat) : Nat :=
  let start := 2 ^ 16 * s.get (F.WTU_LG_START g)
  let w := 2 ^ 16 * s.wco
  if w < start then 0 else (w - start) / s.get (F.WTU_LG_PITCH g) + 1

/-- The first line from `k` on that was neither sent nor launched; each step passes one span or one launched line. -/
def LineGen.openFrom (l : LineGen) : Nat → Nat → Nat
  | 0, k => k
  | fuel + 1, k =>
    match l.sent.find? fun p => decide (p.1 ≤ k) && decide (k ≤ p.2) with
    | some p => l.openFrom fuel (p.2 + 1)
    | none => if l.launched.contains k then l.openFrom fuel (k + 1) else k

def LineGen.nextOpen (l : LineGen) (k : Nat) : Nat := l.openFrom (l.sent.length + l.launched.length) k

/-- The end of the lines below `a` once those sent are left out at that end. -/
def LineGen.openBelow (l : LineGen) : Nat → Nat → Nat
  | 0, a => a
  | fuel + 1, a =>
    match l.sent.find? fun p => decide (p.1 < a) && decide (a ≤ p.2 + 1) with
    | some p => l.openBelow fuel p.1
    | none => a

/-- Lines that are never sent again (R58, R60). -/
def LineGen.markSent (l : LineGen) (k : Nat) : LineGen :=
  match l.sent.getLast? with
  | some (a, b) => if b + 1 = k then { l with sent := l.sent.dropLast ++ [(a, k)] } else { l with sent := l.sent ++ [(k, k)] }
  | none => { l with sent := [(k, k)] }

/-- OUTSTANDING follows the launched lines. -/
def State.putGen (s : State) (g : Nat) (l : LineGen) : State :=
  (s.setGen g l).put (F.WTU_LG_CTRL_OUTSTANDING g) l.launched.length

/-- The pipes bound to a generator (R91). -/
def State.genPipes (s : State) (g : Nat) : List Nat := (List.range 8).filter fun n => s.pipeGen n == g

/-- The camera ports bound to a generator (R208). -/
def State.genPorts (s : State) (g : Nat) : List Nat :=
  (List.range 16).filter fun n => s.get (F.CIN_PORT_CTRL_LG n) == g

/-- The missed-span notice of lines `k0` to `k1` (R58) and what each consumer does with it. -/
def State.missedSpan (s : State) (g k0 k1 : Nat) : State :=
  let p0 := s.linePos g k0
  let p1 := s.linePos g k1
  let s := (s.put (F.WTU_LG_MISS_START g) (p0 / 2 ^ 16)).put (F.WTU_LG_MISS_END g) (p1 / 2 ^ 16)
  let s := ((s.flag (F.WTU_LG_CTRL_MISSED g)).raise (128 + 48)).logErr (siteWtu 0) 0x03 0x023 [g]
  let s := (s.genPipes g).foldl (fun s n => s.rpMissed n k0 k1 p0 p1) s
  let s := (s.genPorts g).foldl (fun s n => s.cinMissed n) s
  if s.get F.IPL_CTRL_LG = g then s.iplMissed k0 k1 else s

/-- The enabled generators. -/
def State.gensOn (s : State) : List Nat := (List.range 32).filter fun g => s.on (F.WTU_LG_CTRL_EN g)

/-- The lines that WCO has reached while generator `g` holds are missed (R58): the first and the last of them are kept for the notice. -/
def State.noteMissed (s : State) (g : Nat) : State :=
  let l := s.gen g
  let a := s.firstAhead g
  let k0 := min l.nextK (l.launched.headD l.nextK)
  let end_ := l.openBelow l.sent.length a
  let stay := l.launched.filter fun k => decide (a ≤ k)
  let l' := { l with launched := stay }
  s.putGen g { l' with
    nextK := l'.nextOpen (max l.nextK a)
    missed :=
      if k0 < end_ then
        match l.missed with
        | some (m0, m1) => some (min m0 k0, max m1 (end_ - 1))
        | none => some (k0, end_ - 1)
      else l.missed }

/-- A holding generator resumes with the next line ahead of WCO, and notes the lines missed meanwhile in one span (R58). -/
def State.resume (s : State) (g : Nat) : State :=
  let s := s.noteMissed g
  let m := (s.gen g).missed
  let s := (s.setGen g { s.gen g with missed := none }).put (F.WTU_LG_CTRL_HOLD g) 0
  match m with
  | some (k0, k1) => s.missedSpan g k0 k1
  | none => s

/-- The generators hold or resume with the speed of the source (R58). -/
def State.settleGens (s : State) : State :=
  s.gensOn.foldl (fun s g =>
    if s.holds g then s.put (F.WTU_LG_CTRL_HOLD g) 1
    else if s.on (F.WTU_LG_CTRL_HOLD g) then s.resume g
    else s) s

def execEncoderTransitionAccepted (dt : Nat) (n : Fin 4) (s : State) : Res :=
  evCmd dt (fun s => s.acceptDue n) (fun s => (s.acceptCycle n).settleGens) s

/-- Levels that are due for acceptance are accepted first: at most three, one for each line. -/
def State.acceptAll : Nat → State → Nat → State
  | 0, s, _ => s
  | fuel + 1, s, n => if s.acceptDue n then ((s.acceptCycle n).settleGens).acceptAll fuel n else s

def execEncoderInputEdge (dt : Nat) (n : Fin 4) (line : EncInput) (s : State) : Res :=
  evCmd dt (fun _ => true) (fun s => (s.acceptAll 3 n).inputEdge n line) s

/-! ### Enable, disable and restart (R58–R60) -/

/-- A generator starts at the first line ahead of WCO that it has not sent (R58, R59). -/
def State.genStart (s : State) (g : Nat) : State :=
  let l := { s.gen g with launched := [], startAt := s.now, missed := none }
  let s := s.putGen g { l with nextK := l.nextOpen (s.firstAhead g) }
  let s := s.put (F.WTU_LG_CTRL_HOLD g) (b2n (s.holds g))
  if s.get (F.WTU_LG_PITCH g) < minPitch then
    (s.flag (F.WTU_LG_CTRL_CFG_ERR g)).logErr (siteWtu 0) 0x01 0x005 [g]
  else s

/-- The lines launched and not committed are withdrawn for good, with one missed-span notice (R60). -/
def State.withdraw (s : State) (g : Nat) : State :=
  let l := s.gen g
  match l.launched.head?, l.launched.getLast? with
  | some k0, some k1 =>
    (s.putGen g { l.launched.foldl LineGen.markSent l with launched := [] }).missedSpan g k0 k1
  | _, _ => s

def State.genEnable (s : State) (g : Nat) : State :=
  if s.on (F.WTU_LG_CTRL_EN g) then s else (s.put (F.WTU_LG_CTRL_EN g) 1).genStart g

def execGeneratorEnable (dt : Nat) (who : Requester) (g : Fin 32) (s : State) : Res :=
  regCmd dt who (O.WTU_LG_CTRL g) (fun s => s.genEnable g) s

def State.genDisable (s : State) (g : Nat) : State :=
  ((s.put (F.WTU_LG_CTRL_EN g) 0).put (F.WTU_LG_CTRL_HOLD g) 1).withdraw g

def execGeneratorDisable (dt : Nat) (who : Requester) (g : Fin 32) (s : State) : Res :=
  regCmd dt who (O.WTU_LG_CTRL g) (fun s => s.genDisable g) s

def State.genRestart (s : State) (g : Nat) : State :=
  if s.on (F.WTU_LG_CTRL_EN g) then (s.withdraw g).genStart g else s

def execGeneratorRestart (dt : Nat) (who : Requester) (g : Fin 32) (s : State) : Res :=
  regCmd dt who (O.WTU_LG_CTRL g) (fun s => s.genRestart g) s

/-! ### Launch and commit (R57) -/

/-- T_k of a line, where it is predicted (R56). -/
def State.lineTempo (s : State) (g k : Nat) : Option Nat := (s.predict (s.linePos g k)).map Int.toNat

/-- Whether a generator sends messages now. -/
def State.sends (s : State) (g : Nat) : Bool := s.on (F.WTU_LG_CTRL_EN g) && !s.on (F.WTU_LG_CTRL_HOLD g)

/-- How long before T_k the launch is due (R57). -/
def State.lead (s : State) (g : Nat) : Nat := max 256 (s.get (F.WTU_LG_LEAD g))

/-- Whether the launch of the generator's next line is due. -/
def State.launchDue (s : State) (g : Nat) : Bool :=
  let l := s.gen g
  s.sends g && l.launched.length < 16 && match s.lineTempo g l.nextK with
    | some t => decide (t ≤ s.now + s.lead g)
    | none => false

/-- Whether a message due `lead` units before `t` was already late when it was computed: at the latch pair, at the generator's start,
or at the write `since` of what it is computed from (R57). -/
def State.lateAt (s : State) (g t lead since : Nat) : Bool :=
  decide (t < max since (max s.wtu.pairAt (s.gen g).startAt) + lead)

/-- A message sent late (R57). -/
def State.noteLate (s : State) (g : Nat) (late : Bool) : State :=
  if late then
    (((s.flag (F.WTU_LG_CTRL_LATE g)).bump (F.WTU_LG_LATE_COUNT g)).raise (128 + 49)).logErr (siteWtu 0) 0x03 0x024 [g]
  else s

/-- The first line of a bar at or past the switch point of a planned castling (R487). -/
def State.noteCastle (s : State) (n k pos : Nat) : State :=
  match s.twn.castle, s.castlePos n with
  | some c, some w =>
    let known : Option Nat := Sparse.get (fun _ => none) c.first n
    if known.isNone && w ≤ pos then
      let s := { s with twn := { s.twn with castle := some { c with first := Sparse.set (fun _ => none) c.first n (some k) } } }
      (((s.bankHeads n (s.activeBank n)).map (·.1)).foldl (fun (s : State) x => s.tryRelease x n) s).castleSettle
    else s
  | _, _ => s

/-- The launch of the next line of generator `g` (R57): due station switches first (R306), then every consumer. -/
def State.launch (s : State) (g t : Nat) : State :=
  let k := (s.gen g).nextK
  let pos := s.linePos g k
  let s := s.noteLate g (s.lateAt g t (s.lead g) (s.gen g).leadAt)
  let s := s.launchStations g k pos
  let l := s.gen g
  let l := { l with launched := insertBy (fun a b => decide (a ≤ b)) k l.launched, lastPos := some pos }
  let s := s.putGen g { l with nextK := l.nextOpen (k + 1) }
  let s := (s.genPipes g).foldl (fun s n => (s.noteCastle n k pos).rpLaunch n k pos t) s
  let s := s.scanLaunch g k pos
  if s.get F.IPL_CTRL_LG = g then s.iplLaunch k pos else s

def execLineLaunch (dt : Nat) (g : Fin 32) (s : State) : Res :=
  evCmd dt (fun s => s.launchDue g) (fun s =>
    match s.lineTempo g (s.gen g).nextK with
    | some t => s.launch g t
    | none => s) s

/-- Whether the commit of the generator's oldest launched line is due: its time has come, and P_k lies inside the clamp of
the latch pair in force (R57). -/
def State.commitDue (s : State) (g : Nat) : Bool :=
  match (s.gen g).launched.head? with
  | none => false
  | some k =>
    s.sends g && decide ((s.linePos g k : Int) ≤ (s.wtu.latchW.toNat : Int) + s.clampSpan) &&
      match s.lineTempo g k with
      | some t => decide (t ≤ s.now + 256)
      | none => false

/-- A write of EXP_COMMIT (R215): where the commit of the port's next line is due, so that it falls in this cycle, the trigger counts
first (R222), and the setting is committed after it. -/
def State.expCommit (s : State) (n : Nat) : State :=
  let s := s.expAsked n
  let sh := s.expShadow n
  if s.cinState n = cinRunning && s.commitDue (s.get (F.CIN_PORT_CTRL_LG n)) then s.setCam n { s.cam n with ask := some sh }
  else s.expTake n sh

def execExpCommit (dt : Nat) (who : Requester) (n : Fin 16) (s : State) : Res :=
  regCmd dt who (O.CIN_PORT_CTRL n) (fun s => s.expCommit n) s

/-- The final T_k of a commit (R57): a late one is no sooner than 256 units from now, and each is later than the one
before. -/
def State.finalTempo (s : State) (g t : Nat) (late : Bool) : Nat :=
  let t := if late then max t (s.now + 256) else t
  let l := s.gen g
  if l.lastK.isSome then max t (l.lastT + 1) else t

/-- The commit of line `k` with its computed T_k (R57). -/
def State.lineCommit (s : State) (g k t : Nat) : State :=
  let late := s.lateAt g t 256 s.wtu.clampAt
  let tk := s.finalTempo g t late
  let pos := s.linePos g k
  let s := s.noteLate g late
  let l := s.gen g
  let s := s.putGen g { l.markSent k with launched := l.launched.drop 1, lastK := some k, lastT := tk }
  let s := (s.put (F.WTU_LG_LINE g) k).put (F.WTU_LG_COMMIT_TEMPO g) tk
  let c : Commit := { k := k, t := tk, v := s.wtu.latchV, inhibit := s.on F.FTU_OVS_CTRL_POLICY }
  let s := (s.genPipes g).foldl (fun s n =>
    let tag := (((s.pipe n).queue.find? fun q => q.k == k).map (·.tag)).getD {}
    (s.rpCommit n k tk).ftuCommit n { c with tag := tag }) s
  let s := (s.genPorts g).foldl (fun s n => s.cinCommit n k tk late) s
  if s.get F.IPL_CTRL_LG = g then s.iplCommit k pos else s

def execLineCommit (dt : Nat) (g : Fin 32) (s : State) : Res :=
  evCmd dt (fun s => s.commitDue g) (fun s =>
    match (s.gen g).launched.head? with
    | some k =>
      match s.lineTempo g k with
      | some t => s.lineCommit g k t
      | none => s
    | none => s) s

/-! ### Station switches ahead of a launch, and station 9 (R306) -/

/-- A station's switch: station 9 at its moment; another where the next line its generator is about to launch is its
switching line. The launch itself switches every station that is still to switch then. -/
def execStationSwitch (dt : Nat) (st : Fin 10) (s : State) : Res :=
  evCmd dt (fun s => if st = 9 then s.globalDue else s.launchDue (s.stationGen st)) (fun s =>
    if st = 9 then s.globalMoment
    else
      let g := s.stationGen st
      let k := (s.gen g).nextK
      s.launchStation g k (s.linePos g k) st) s

/-! ### Moving WCO (R47, R48) -/

/-- The WCO takes a value without web travel (R47): lines reached by travel before are missed, those that the load passes over are
not, and each generator looks for its first line ahead of the new WCO that it has not sent. -/
def State.wcoSet (s : State) (v : Nat) : State :=
  let s := s.gensOn.foldl State.noteMissed s
  let w := 2 ^ 16 * v
  let s := { s with wtu := { s.wtu with acc := BitVec.ofNat 80 w } }.setPair w s.now 0 w
  s.gensOn.foldl (fun s g =>
    let a := s.firstAhead g
    let l := { s.gen g with launched := (s.gen g).launched.filter fun k => decide (a ≤ k) }
    s.putGen g { l with nextK := l.nextOpen a }) s

/-- A load of WCO while the source stands still (R47): the lines it passes over are not missed. -/
def State.wcoLoad (s : State) : State :=
  if s.motion s.src = stStill then s.wcoSet (s.get F.WTU_WCO_LOADVAL) else s.logErr (siteWtu 0) 0x01 0x001 [0]

def execWcoLoad (dt : Nat) (who : Requester) (s : State) : Res :=
  regCmd dt who O.WTU_CTRL State.wcoLoad s

/-- A switch of the WCO source (R48): WCO goes on from its value at the speed of the new source. It is no entry of the source into a
motion state, whatever state the new one is in, and raises neither event 10 nor event 11 (DESIGN CHOICE, assumption 87). -/
def State.setSource (s : State) (src : Nat) : State :=
  if src = s.src then s
  else
    let o := s.outPos
    let s := (s.settleClamp).put F.WTU_CTRL_WCO_SRC src
    let s := { s with wtu := { s.wtu with acc := BitVec.ofInt 80 o } }.setPair o s.now (s.dec src).speed o
    let s := if s.on (F.WTU_ENC_CFG_EN src) then s else s.logErr (siteWtu 0) 0x01 0x002 [0]
    s.showSource.compareTravel.settleGens

def execWcoSourceWrite (dt : Nat) (who : Requester) (src : Fin 4) (s : State) : Res :=
  regCmd dt who O.WTU_CTRL (fun s => s.setSource src) s

end Sys2Proof.Machine
end

