-- ==== Sys2Proof/Machine/Cal.lean ====
section
/-! DEFINITION. Calibration, temperature sensors and thermal alarms (18 R513–R517). The thermal trip, a reset, is in Reset.lean. -/

namespace Sys2Proof.Machine

/-- CAL event `i` (R527). -/
def State.calEvent (s : State) (i : Nat) : State := s.raise (1152 + i)

/-! The states (R515). -/

def caIdle : Nat := 0
def caSensors : Nat := 1
def caStrobes : Nat := 2
def caApply : Nat := 3

def State.calState (s : State) : Nat := s.get F.CAL_STAT_STATE

/-- Whether the run in progress has started in this TMP cycle. -/
def State.calJustStarted (s : State) : Bool := s.cal.startAt.any fun t => t / 8 == s.cycle

/-- A cause for a run (R514): it starts, or is noted while one is in progress; two causes in one cycle start one run (R525). -/
def State.calStart (s : State) : State :=
  if s.calState = caIdle then
    ({ s with cal := { s.cal with startAt := some s.now } }.put F.CAL_STAT_STATE caSensors).calEvent 0
  else if s.calJustStarted then s
  else s.put F.CAL_STAT_PENDING 1

def execCalRun (dt : Nat) (who : Requester) (s : State) : Res := regCmd dt who O.CAL_CTRL State.calStart s

/-! ### Sensors (R513, R514, R517) -/

/-- Twice the median of eight readings: the sum of the two in the middle. -/
def twiceMedian (ts : List Int) : Int :=
  let l := sortBy (fun a b => decide (a ≤ b)) ts
  l.getD 3 0 + l.getD 4 0

/-- Whether a reading is valid among the eight: from −40 °C to 150 °C, and within 20 °C of their median. -/
def tempValid (ts : List Int) (t : Int) : Bool :=
  decide (-640 ≤ t) && decide (t ≤ 2400) && decide ((2 * t - twiceMedian ts).natAbs ≤ 640)

/-- One sensor's conversion. -/
def State.sensor (s : State) (ts : List Int) (i : Nat) : State :=
  let t := ts.getD i 0
  let ok := tempValid ts t
  let s := (s.putInt (F.CAL_SENS_TEMP i) t).put (F.CAL_SENS_TRIM_VALID i) (b2n ok)
  let newly := !ok && !s.cal.bad.getLsbD i
  let bad := (s.cal.bad ||| BitVec.ofNat 8 (2 ^ i)) ^^^ (if ok then BitVec.ofNat 8 (2 ^ i) else 0)
  let s := { s with cal := { s.cal with bad := bad } }
  let s := if ok then s else s.flag F.CAL_STAT_SENSOR_FAULT
  if newly then s.logErr siteCal 0x02 0x010 [i] else s

/-- The valid sensors. -/
def State.validSensors (s : State) : List Nat := (List.range 8).filter fun i => s.on (F.CAL_SENS_TRIM_VALID i)

/-- The valid sensors that have moved by more than DELTA since the last run, while AUTO is 1. -/
def State.movedSensors (s : State) : List Nat :=
  if s.cal.based && s.on F.CAL_CTRL_AUTO then s.validSensors.filter fun i =>
    decide (max 1 (s.get F.CAL_CFG_DELTA) < (s.getInt (F.CAL_SENS_TEMP i) - s.getInt (F.CAL_SENS_BASE i)).natAbs)
  else []

/-- WARN against the hottest valid sensor. -/
def State.checkWarn (s : State) (hot : Int) : State :=
  let limit := s.getInt F.CAL_THERM_WARN
  if !s.on F.CAL_STAT_WARN && limit ≤ hot then
    ((s.put F.CAL_STAT_WARN 1).flag F.CAL_STAT_WARN_SEEN).calEvent 2
  else if s.on F.CAL_STAT_WARN && hot < limit - 32 then (s.put F.CAL_STAT_WARN 0).calEvent 4
  else s

/-- ALARM against the hottest valid sensor. -/
def State.checkAlarm (s : State) (hot : Int) : State :=
  let limit := s.getInt F.CAL_THERM_ALARM
  if !s.on F.CAL_STAT_ALARM && limit ≤ hot then
    (((s.put F.CAL_STAT_ALARM 1).flag F.CAL_STAT_ALARM_SEEN).calEvent 3).logErr siteCal 0x06 0x031 []
  else if s.on F.CAL_STAT_ALARM && hot < limit - 32 then s.put F.CAL_STAT_ALARM 0
  else s

/-- The limits against the hottest valid sensor, if any is valid. -/
def State.checkTherm (s : State) : State :=
  match (s.validSensors.map fun i => s.getInt (F.CAL_SENS_TEMP i)).max? with
  | some hot => (s.checkWarn hot).checkAlarm hot
  | none => s

/-- The sensors convert. In IDLE a sensor that has moved starts a run; in a run only one that had not moved at its last
conversion is a cause that arises (R514, DEDUCED, assumption 61). -/
def State.convert (s : State) (temps : Temps) : State :=
  let was := s.movedSensors
  let ts := (List.range 8).map fun i => (temps.getD i 0).toInt
  let s := { s with cal := { s.cal with convAt := s.now } }
  let s := ((List.range 8).foldl (fun (s : State) i => s.sensor ts i) s).checkTherm
  let moved := s.movedSensors.filter fun i => s.calState == caIdle || !was.contains i
  if moved = [] then s else s.calStart

def execSensorConversion (dt : Nat) (temps : Temps) (s : State) : Res :=
  evCmd dt (fun s => decide (s.cal.convAt + 400000 ≤ s.now)) (fun s => s.convert temps) s

/-! ### Phases (R515, R516) -/

/-- SENSORS ends: trims and bases. -/
def State.sensorsEnd (s : State) (r : CalPhase) : State :=
  let s := (List.range 8).foldl (fun (s : State) i =>
    let s := s.put (F.CAL_SENS_TRIM_TRIM i) (r.trims.getD i 0).toNat
    s.put (F.CAL_SENS_BASE i) (r.temps.getD i 0).toNat) s
  { s with cal := { s.cal with based := true } }.put F.CAL_STAT_STATE caStrobes

/-- STROBES ends: a code for each head. -/
def State.strobesEnd (s : State) (r : CalPhase) : State :=
  { s with cal := { s.cal with codes := (List.range 128).map fun x => (r.codes.getD x 0).toNat } }.put F.CAL_STAT_STATE caApply

/-- The change of each head's code, with the head. -/
def State.codeSteps (s : State) : List (Nat × Nat) :=
  s.cal.codes.zipIdx.map fun p => (((p.1 : Int) - s.get (F.FTU_HEAD_STAT_CAL_CODE p.2)).natAbs, p.2)

/-- A head's code is applied; one held at an end of its range is reported and applied all the same. -/
def State.applyCode (s : State) (x code : Nat) : State :=
  let s := s.put (F.FTU_HEAD_STAT_CAL_CODE x) code
  if code = 0 || code = 0xFF then (s.flag F.CAL_STAT_SAT).logErr siteCal 0x02 0x011 [x] else s

/-- APPLY. -/
def State.calApply (s : State) : State :=
  let best := s.codeSteps.foldl (fun b p => if b.1 < p.1 then p else b) (0, 0)
  let s := s.cal.codes.zipIdx.foldl (fun (s : State) p => s.applyCode p.2 p.1) s
  let s := (s.bump F.CAL_COUNT).put F.CAL_LAST_TEMPO (s.tempoCopy .tmp)
  let s := (s.put F.CAL_DELTA_MAX_STEPS best.1).put F.CAL_DELTA_MAX_HEAD best.2
  let s := (List.range 16).foldl (fun (s : State) n => if s.mcState n = mcReady then s.retrain n else s) s
  let s := ({ s with cal := { s.cal with codes := [] } }.calEvent 1).put F.CAL_STAT_STATE caIdle
  if s.on F.CAL_STAT_PENDING then (s.put F.CAL_STAT_PENDING 0).calStart else s

def State.calPhase (s : State) (r : CalPhase) : State :=
  if s.calState = caSensors then s.sensorsEnd r
  else if s.calState = caStrobes then s.strobesEnd r
  else s.calApply

def execCalPhaseEnd (dt : Nat) (r : CalPhase) (s : State) : Res :=
  evCmd dt (fun s => s.calState != caIdle) (fun s => s.calPhase r) s

end Sys2Proof.Machine
end

