-- ==== Sys2Proof/Machine/Dfq.lean ====
section
/-! DEFINITION. The Defect Queue (10): admission, eviction, reading, pushing and the drain ring. -/

namespace Sys2Proof.Machine

/-- A requester of the DFQ (R281): a function, the secure management domain as 8, each engine from 16 up; a DMA
channel acts for its owner. -/
def State.dfqReq (s : State) (who : Requester) : Nat :=
  match who with
  | .dma c => if s.dmaOwner c.val = 6 then 8 else s.dmaOwner c.val
  | who => reqCode who

/-- The number that cause 0x001 names a requester by (R291). -/
def pushDetail (r : Nat) : Nat := if r = 8 then 6 else if 16 ≤ r then 0x100 + (r - 16) else r

/-- The drain's place among the requesters. -/
def drainReq : Nat := 1024

/-- Word `i` of a record. -/
def recWord (r : List Word) (i : Nat) : Nat := (r.getD i 0).toNat

/-- SEVERITY of a packet: that of its header. -/
def packetSev (recs : List (List Word)) : Nat := bits (recWord (recs.headD []) 0) 7 4

/-! ### Fill (R290, R292) -/

def storedRecords (l : List Stored) : Nat := (l.map fun p => p.recs.length).sum

/-- The stored packets are replaced: FILL, EMPTY and PEAK follow, and events 0 and 3. -/
def State.setQueue (s : State) (l : List Stored) : State :=
  let before := storedRecords s.dfq.stored
  let n := storedRecords l
  let s := { s with dfq := { s.dfq with stored := l } }
  let s := ((s.put F.DFQ_STAT_FILL n).put F.DFQ_STAT_EMPTY (b2n (n == 0))).put F.DFQ_PEAK (max n (s.get F.DFQ_PEAK))
  let w := s.get F.DFQ_FILL_WATCH
  let s := if before < w && w ≤ n then s.raise (576 + 3) else s
  if before = 0 && n != 0 then s.raise 576 else s

/-- A packet is lost or evicted (R279). -/
def State.losePacket (s : State) (sev recs : Nat) : State :=
  let s := (s.bump F.DFQ_LOST).bump F.DFQ_LOST_RECORDS recs
  let s := (s.flagBits F.DFQ_STAT_LOST_SEV (2 ^ sev)).raise (576 + 2)
  let n := s.dfq.losses
  let s := { s with dfq := { s.dfq with losses := n + 1 } }
  if n % 1024 = 0 then s.logErr siteDfq 0x06 0x030 [] else s

/-- Whether something that happened at `t` falls in the running PIX cycle. -/
def State.thisPix (s : State) (t : Option Nat) : Bool :=
  match t with
  | some t => t / 4 == s.now / 4
  | none => false

/-! ### Admission (R278, R279) -/

/-- The records of a packet with its DEFECT_ID, and with UNCOVERED and DEGRADED as the TWN's state has them (R274,
R278, R482). -/
def State.stamp (s : State) (id : Nat) (recs : List (List Word)) : List (List Word) :=
  recs.mapIdx fun i r =>
    let r := r.set 1 (BitVec.ofNat 32 id)
    if i = 0 then
      let cams := if s.twn.lost then s.get F.TWN_PARTNER_CAMS else 0
      let r := r.set 0 (BitVec.ofNat 32 (setBits (recWord r 0) 29 29 (b2n s.twn.lost)))
      r.set 13 (BitVec.ofNat 32 (setBits (recWord r 13) 31 16 cams))
    else r

/-- The packets that an arriving packet of severity `sev` may evict, in the order of their eviction (R279). -/
def evictable (sev : Nat) (l : List Stored) : List Stored :=
  sortBy (fun a b => decide (a.sev ≤ b.sev)) (l.reverse.filter fun p => p.begun.isNone && p.sev < sev)

/-- Evictions until `need` records are free: the packets to evict. -/
def evictUntil (free need : Nat) : List Stored → List Stored
  | [] => []
  | p :: ps => if need ≤ free then [] else p :: evictUntil (free + p.recs.length) need ps

/-- The decision on a packet (R278, R279); one that comes while PF2 is in a Function Level Reset is lost (R285). -/
def State.admitPacket (s : State) (recs : List (List Word)) : State :=
  let recs := s.stamp (s.get F.DFQ_NEXT_ID) recs
  let s := s.bump F.DFQ_NEXT_ID
  if s.hif.flr.getLsbD 2 then s.bump F.DFQ_FLR_LOST else
  let sev := packetSev recs
  let n := recs.length
  if !s.on F.DFQ_CTRL_EN then s.losePacket sev n
  else
    let free := 4096 - storedRecords s.dfq.stored
    let cand := evictable sev s.dfq.stored
    if free + storedRecords cand < n then s.losePacket sev n
    else
      let out := evictUntil free n cand
      let s := out.foldl (fun s p => s.losePacket p.sev p.recs.length) s
      let kept := out.foldl (fun (l : List Stored) p => l.erase p) s.dfq.stored
      let s := s.setQueue (kept ++ [{ sev := sev, recs := recs, at_ := some s.now }])
      let s := s.bump F.DFQ_ADMITTED
      if s.get F.DFQ_CTRL_ALERT_SEV ≤ sev then s.raise (576 + 1) else s

/-- The offer that is served next: the first of the lowest rank (R278). -/
def nextOffer (l : List Offer) : Option Offer :=
  l.foldl (fun (a : Option Offer) o =>
    match a with
    | none => some o
    | some b => if o.rank < b.rank then some o else a) none

/-- The offers of earlier PIX cycles, which the DFQ can serve (R278, R289). -/
def State.offersDue (s : State) : List Offer := s.dfq.offers.filter fun o => !s.thisPix o.at_

def State.serveOffer (s : State) : State :=
  match nextOffer s.offersDue with
  | none => s
  | some o => { s with dfq := { s.dfq with offers := s.dfq.offers.erase o } }.admitPacket o.recs

def execDfqAdmit (dt : Nat) (s : State) : Res :=
  evCmd dt (fun s => s.offersDue != []) State.serveOffer s

/-! ### Reading (R276, R280–R282) -/

/-- Whether no requester has begun a packet, and it was admitted before this PIX cycle (R286). -/
def State.untouched (s : State) (p : Stored) : Bool := p.begun.isNone && !s.thisPix p.at_

/-- The packet that a requester takes from next: the one it is inside, or else the first of the read order that no
requester has begun (R280, R281). -/
def State.nextPacket (s : State) (r : Nat) : Option Stored :=
  match s.dfq.stored.find? fun p => p.begun == some r with
  | some p => some p
  | none => (s.dfq.stored.filter s.untouched).foldl (fun (a : Option Stored) p =>
      match a with
      | none => some p
      | some b => if b.sev < p.sev then some p else a) none

/-- The IDLE record (R276). -/
def State.idleRecord (s : State) : List Word := toWords (field 256 64 (s.tempoCopy .pix)) 16

def State.latchOf (s : State) (r : Nat) : List Word := Sparse.get (fun _ => []) s.dfq.latches r

def State.setLatch (s : State) (r : Nat) (l : List Word) : State :=
  { s with dfq := { s.dfq with latches := Sparse.set (fun _ => []) s.dfq.latches r l } }

/-- The queue with the first record of a packet taken by `r`. -/
def takeFirst (l : List Stored) (p : Stored) (r : Nat) : List Stored :=
  l.flatMap fun q =>
    if q = p then (if q.recs.length ≤ 1 then [] else [{ q with recs := q.recs.drop 1, begun := some r }]) else [q]

/-- The record that a requester's DROP_REST of this PIX cycle leaves to a read of the same cycle (R286). -/
def State.dropTaken (s : State) (r : Nat) : Option (List Word) :=
  ((s.dfq.dropped.find? fun d => d.1 == r && s.thisPix (some d.2.2)).map (·.2.1)).bind List.head?

/-- A requester takes a record into its latch (R281). -/
def State.takeRecord (s : State) (r : Nat) : State :=
  match s.dropTaken r with
  | some w =>
    let s := s.put F.DFQ_DROPPED (s.get F.DFQ_DROPPED - 1)
    { s with dfq := { s.dfq with dropped := [] } }.setLatch r w
  | none =>
    match s.nextPacket r with
    | none => s.setLatch r s.idleRecord
    | some p => (s.setQueue (takeFirst s.dfq.stored p r)).setLatch r (p.recs.headD [])

/-- A read of DFQ_RD word 0 (R281). -/
def State.readTake (s : State) (who : Requester) : State :=
  let s := s.takeRecord (s.dfqReq who)
  s.emit (.readData who (O.DFQ_RD 0) (recWord (s.latchOf (s.dfqReq who)) 0))

def execDfqRecordTake (dt : Nat) (who : Requester) (s : State) : Res :=
  readCmd dt who (O.DFQ_RD 0) (fun s => s.readTake who) s

/-- The rest of a requester's current packet is discarded (R282). -/
def State.dropRest (s : State) (r : Nat) : State :=
  match s.dfq.stored.find? fun p => p.begun == some r with
  | none => s
  | some p =>
    let s := (s.setQueue (s.dfq.stored.filter fun q => q.begun != some r)).bump F.DFQ_DROPPED p.recs.length
    { s with dfq := { s.dfq with dropped := [(r, p.recs, s.now)] } }

def execDropRest (dt : Nat) (who : Requester) (s : State) : Res :=
  regCmd dt who O.DFQ_CTRL (fun s => s.dropRest (s.dfqReq who)) s

/-- FLUSH (R292): records that are not being taken are discarded, but for those admitted in this PIX cycle (R286). -/
def State.flushQueue (s : State) : State :=
  let gone := s.dfq.stored.filter s.untouched
  (s.setQueue (s.dfq.stored.filter fun p => !s.untouched p)).bump F.DFQ_FLUSHED (storedRecords gone)

def execFlush (dt : Nat) (who : Requester) (s : State) : Res :=
  regCmd dt who O.DFQ_CTRL (fun s => s.flushQueue) s

/-! ### Pushing (R283) -/

def State.pushOf (s : State) (r : Nat) : Push := Sparse.get (fun _ => {}) s.dfq.push r

def State.setPush (s : State) (r : Nat) (p : Push) : State :=
  { s with dfq := { s.dfq with push := Sparse.set (fun _ => {}) s.dfq.push r p } }

/-- A word of a requester's staging record is written (R283). -/
def State.stageWord (s : State) (r i : Nat) (v : Word) : State :=
  let p := s.pushOf r
  s.setPush r { p with staged := Sparse.set (fun _ => 0) p.staged i v }

/-- What a commit makes of the staged record: the packet so far and the crops still expected, none for a bad order. -/
def pushStep (p : Push) (r : List Word) : Option (List (List Word) × Nat) :=
  let w := recWord r 0
  if p.expect = 0 then
    if bits w 1 0 = 1 && 7 ≤ bits w 11 8 then some ([r], bits w 15 12) else none
  else if bits w 1 0 = 2 && bits w 15 12 = p.part.length then some (p.part ++ [r], p.expect - 1)
  else none

/-- COMMIT of the staged record (R283). -/
def State.pushCommit (s : State) (r : Nat) : State :=
  let p := s.pushOf r
  let record := (List.range 16).map fun i => Sparse.get (fun _ => 0) p.staged i
  match pushStep p record with
  | none => (s.setPush r { p with part := [], expect := 0, refused := true }).logErr siteDfq 0x01 0x001 [pushDetail r]
  | some (part, n) =>
    if n = 0 then (s.setPush r { p with part := [], expect := 0 }).offer (rankPush r) part
    else s.setPush r { p with part := part, expect := n }

def execPushCommit (dt : Nat) (who : Requester) (s : State) : Res :=
  regCmd dt who O.DFQ_PUSH_CTRL (fun s => s.pushCommit (s.dfqReq who)) s

/-! ### The drain ring (R284) -/

def State.drainSize (s : State) : Nat := 2 ^ s.get F.DFQ_DRAIN_CFG_SIZE_LOG2

/-- The packet that the drain would take: the head of the read order, of at least MIN_SEV. -/
def State.drainHead (s : State) : Option Stored :=
  if s.on F.DFQ_DRAIN_CFG_EN then
    (s.nextPacket drainReq).filter fun p => s.get F.DFQ_DRAIN_CFG_MIN_SEV ≤ p.sev
  else none

def State.drainSlot (s : State) (i : Nat) : Nat :=
  s.get F.DFQ_DRAIN_BASE + (s.get F.DFQ_DRAIN_PROD + i) % s.drainSize * 64

/-- The records of a packet written one after the other: how many were, and whether all. -/
def State.drainRecords (s : State) : Nat → List (List Word) → Nat × Bool × State
  | i, [] => (i, true, s)
  | i, r :: rs =>
    let (ok, s) := s.memWrite 14 (s.drainSlot i) (wordBytes r)
    if ok then s.drainRecords (i + 1) rs else (i, false, s)

/-- The records already written of a packet that a write error cuts short are marked LOST. -/
def State.drainLost (s : State) (recs : List (List Word)) : State :=
  (recs.mapIdx fun i r => (i, r)).foldl (fun s p =>
    (s.memWriteNat 14 (s.drainSlot p.1) 4 (setBits (recWord p.2 0) 1 0 3)).2) s

/-- The drain's turn (R284). -/
def State.drainPacket (s : State) : State :=
  match s.drainHead with
  | none => s
  | some p =>
    let used := (s.get F.DFQ_DRAIN_PROD + 2 ^ 32 - s.get F.DFQ_DRAIN_CONS) % 2 ^ 32
    if s.drainSize < used + p.recs.length then
      if s.dfq.noRoom then s else { s with dfq := { s.dfq with noRoom := true } }.raise (576 + 5)
    else
      let s := { s with dfq := { s.dfq with noRoom := false } }.setQueue (s.dfq.stored.erase p)
      let (n, ok, s) := s.drainRecords 0 p.recs
      if ok then
        let s := s.bump F.DFQ_DRAIN_PROD n
        if s.on F.DFQ_DRAIN_CFG_EVENT then s.raise (576 + 4) else s
      else ((s.drainLost (p.recs.take n)).bump F.DFQ_DRAIN_PROD n).logErr siteDfq 0x02 0x010 []

def execDrainPacketWrite (dt : Nat) (s : State) : Res :=
  evCmd dt (fun s => s.drainHead.isSome) State.drainPacket s

/-! ### Function Level Resets (R285) -/

/-- A reset of a function other than PF2: its latch, staging and the rest of its packet. -/
def State.dfqLeave (s : State) (r : Nat) : State := ((s.dropRest r).setLatch r []).setPush r {}

end Sys2Proof.Machine
end

