-- ==== Sys2Proof/Machine/Dma.lean ====
section
/-! DEFINITION. DMA channels and their programs (14): doorbells, instructions, block moves, bus errors and channel states.
The publish of a SIGNAL, which writes a register, is in Publish.lean. -/

namespace Sys2Proof.Machine

def State.dmaChan (s : State) (c : Nat) : DmaChan := Sparse.get (fun _ => {}) s.dma c

def State.setDma (s : State) (c : Nat) (d : DmaChan) : State :=
  { s with dma := Sparse.set (fun _ => {}) s.dma c d }

/-- The channel states (R385). -/
def dmIdle : Nat := 0
def dmRunning : Nat := 1
def dmWaiting : Nat := 2
def dmEndWait : Nat := 3
def dmHalted : Nat := 4
def dmStopping : Nat := 5

def State.dmaState (s : State) (c : Nat) : Nat := s.get (F.DMA_CH_STAT_STATE c)

/-- A channel enters a state; DMA_ENDWAIT follows. -/
def State.setDmaState (s : State) (c st : Nat) : State :=
  let w := s.get F.DMA_ENDWAIT
  let w := if bit w c then w - 2 ^ c else w
  (s.put (F.DMA_CH_STAT_STATE c) st).put F.DMA_ENDWAIT (if st = dmEndWait then w + 2 ^ c else w)

def State.dmaPc (s : State) (c : Nat) : Nat := s.get (F.DMA_CH_PC c)

/-- DMA event `i` (R388). -/
def State.dmaEvent (s : State) (i : Nat) : State := s.raise (832 + i)

/-- The PIX cycle that runs now. -/
def State.pixCycle (s : State) : Nat := Domain.pix.cycleOf s.now

/-! ### Halts and bus errors (R376, R389) -/

/-- A channel halts with a cause (R376, R389). -/
def State.dmaHalt (s : State) (c cls cause detail : Nat) : State :=
  let s := (s.put (F.DMA_CH_STAT_CAUSE c) cause).setDmaState c dmHalted
  let s := s.flagBits F.DMA_HALTED (2 ^ c)
  let s := s.setDma c { s.dmaChan c with move := none, wait := none, signal := none }
  (s.logErr siteDma cls cause [c, detail % 2 ^ 32]).dmaEvent 32

/-- A halt for a programming error, which keeps PC at the instruction. -/
def State.dmaBad (s : State) (c cause : Nat) : State := s.dmaHalt c 0x01 cause (s.dmaPc c)

/-- The class and cause of a bus error's kind (R376). -/
def kindCause (kind : Nat) : Nat × Nat :=
  if kind = 1 then (0x02, 0x010) else if kind = 2 then (0x01, 0x011) else if kind = 7 then (0x05, 0x051)
  else (0x04, 0x040)

/-- What a bus error latches (R376): the block, the direction, whether it was a fetch, the kind, and the bytes surely written. -/
def State.errLatch (s : State) (c addr : Nat) (write fetch : Bool) (kind done : Nat) : State :=
  let s := (s.put (F.DMA_CH_ERR_ADDR c) addr).put (F.DMA_CH_ERR_DONE c) done
  let s := (s.put (F.DMA_CH_ERR_INFO_DIR c) (b2n write)).put (F.DMA_CH_ERR_INFO_FETCH c) (b2n fetch)
  s.put (F.DMA_CH_ERR_INFO_KIND c) kind

/-- A bus error (R376). -/
def State.dmaBusError (s : State) (c addr : Nat) (write fetch : Bool) (kind done : Nat) : State :=
  (s.errLatch c addr write fetch kind done).dmaHalt c (kindCause kind).1 (kindCause kind).2 addr

/-- Whether a channel address names host memory (R366). -/
def isHost (a : Nat) : Bool := bit a 63

/-- The function whose requester ID a channel's host requests carry (R365). -/
def State.dmaFn (s : State) (c : Nat) : Nat := if s.dmaOwner c = 6 then 0 else s.dmaOwner c

/-- Whether that function's Bus Master Enable is set (R376, kind 7). -/
def State.busMaster (s : State) (c : Nat) : Bool := s.hif.bme.getLsbD (s.dmaFn c)

/-! ### Program fetch (R378) -/

/-- How a fetch of a block ends. -/
inductive Fetched
  | ok (bytes : List Byte)
  | waiting
  | err (kind : Nat)

/-- The block of a program address is fetched: from device memory, or from the host's answer, if it has come; the request to the host has
No-Snoop clear (R380). -/
def State.dmaFetchBlock (s : State) (c blk : Nat) (f : Fetches) : Fetched × Fetches × State :=
  if isHost blk then
    if !s.busMaster c then (.err 7, f, s)
    else match f with
      | [] => (.waiting, [], s)
      | .data bs :: f =>
        (.ok (bs ++ List.replicate (64 - bs.length) 0), f, s.emit (.hostRead (s.dmaFn c) false (blk % 2 ^ 63) 64))
      | .fail k :: f => (.err (3 + k.val), f, s.emit (.hostRead (s.dmaFn c) false (blk % 2 ^ 63) 64))
  else if !s.belowTop blk then (.err 2, f, s)
  else match s.memRead 12 blk 64 with
    | (some bs, s) => (.ok bs, f, s)
    | (none, s) => (.err 1, f, s)

/-- Whether the prefetch buffer holds a block and serves it: the manual does not say how long what was fetched once is
used, so for device memory a fetch may also read memory again. -/
def State.dmaBuffered (s : State) (c blk : Nat) (f : Fetches) : Option (List Byte) × State :=
  match (s.dmaChan c).buf with
  | some (b, bs) =>
    if b = blk then
      if isHost blk then (if f = [] then some bs else none, s)
      else
        let (v, s) := s.draw
        (if v.toNat % 2 = 0 then some bs else none, s)
    else (none, s)
  | none => (none, s)

/-- One program word, or none where the fetch has failed, which halts the channel, or is still under way. -/
def State.dmaWord (s : State) (c a : Nat) (f : Fetches) : Option Nat × Fetches × State :=
  let blk := a / 64 * 64
  let pick := fun (bs : List Byte) => ofBytes ((bs.drop (a % 64)).take 8)
  match s.dmaBuffered c blk f with
  | (some bs, s) => (some (pick bs), f, s)
  | (none, s) =>
    match s.dmaFetchBlock c blk f with
    | (.ok bs, f, s) => (some (pick bs), f, s.setDma c { s.dmaChan c with buf := some (blk, bs) })
    | (.waiting, f, s) => (none, f, s)
    | (.err kind, f, s) =>
      let (v, s) := s.draw
      (none, f, s.dmaBusError c blk false true kind (v.toNat % 2 ^ 32))

/-- `n` program words from `a` on. -/
def State.dmaWords (s : State) (c a : Nat) (f : Fetches) : Nat → Option (List Nat) × Fetches × State
  | 0 => (some [], f, s)
  | n + 1 =>
    match s.dmaWord c a f with
    | (none, f, s) => (none, f, s)
    | (some w, f, s) =>
      match s.dmaWords c (a + 8) f n with
      | (some ws, f, s) => (some (w :: ws), f, s)
      | r => r

/-! ### Decoding (R367–R373) -/

/-- The words of an instruction by opcode (R367). -/
def dmaLength (w : Nat) : Nat := if bits w 3 0 = 1 then 3 else if bits w 3 0 = 3 then 2 else 1

/-- Whether a first word is a valid instruction (R367–R373). -/
def dmaValid (w : Nat) : Bool :=
  match bits w 3 0 with
  | 1 => bits w 31 9 == 0 && bits w 5 4 != 3 && bits w 7 6 != 3
  | 2 => bits w 15 5 == 0 && bits w 47 16 != 0 && bits w 63 48 != 0
  | 3 => bits w 63 6 == 0 && bits w 5 4 != 3
  | 4 => bits w 63 7 == 0
  | 5 => bits w 7 5 == 0
  | 6 => bits w 63 5 == 0
  | _ => false

/-- The fields of a MOVE (R368). -/
def moveOf (ws : List Nat) : DmaMove :=
  let w := ws.headD 0
  { srcMode := bits w 5 4, dstMode := bits w 7 6, src := ws.getD 1 0, dst := ws.getD 2 0, len := bits w 63 32,
    noSnoop := bit w 8 }

/-- The first word at PC is known: its length and, for a MOVE, its rings are what SKIP goes by (R377). -/
def State.dmaDecoded (s : State) (c w : Nat) : State :=
  s.setDma c { s.dmaChan c with words := dmaLength w, last := if bits w 3 0 = 1 then some (moveOf [w]) else none }

/-- No word at PC is known yet. -/
def State.dmaUndecoded (s : State) (c : Nat) : State := s.setDma c { s.dmaChan c with words := 1, last := none }

/-- Whether the channel is ready to take its next instruction. -/
def State.dmaReady (s : State) (c : Nat) : Bool :=
  s.dmaState c == dmRunning && (s.dmaChan c).move.isNone && (s.dmaChan c).signal.isNone

/-- The instruction at PC is taken, where it is valid and has the opcode `op`: its words go to `effect`. -/
def State.dmaTake (s : State) (c op : Nat) (f : Fetches) (effect : List Nat → State → State) : State :=
  match (s.dmaUndecoded c).dmaWord c (s.dmaPc c) f with
  | (none, _, s) => s
  | (some w, f, s) =>
    if dmaValid w && bits w 3 0 == op then
      match (s.dmaDecoded c w).dmaWords c (s.dmaPc c + 8) f (dmaLength w - 1) with
      | (some ws, _, s) => effect (w :: ws) s
      | (none, _, s) => s
    else s

/-- PC moves past an instruction of `n` words. -/
def State.dmaNext (s : State) (c n : Nat) : State :=
  (s.put (F.DMA_CH_PC c) (s.dmaPc c + 8 * n)).setDma c { s.dmaChan c with fromEnd := false }

/-- A command that is an instruction of a channel's program. -/
def dmaCmd (dt c op : Nat) (f : Fetches) (effect : List Nat → State → State) (s : State) : Res :=
  evCmd dt (fun s => s.dmaReady c) (fun s => s.dmaTake c op f effect) s

/-! ### MOVE (R368, R374, R375) -/

/-- BASE, SIZE_LOG2 and PTR of ring `r` of a channel. -/
def State.dmaRingBase (s : State) (c r : Nat) : Nat :=
  if r = 0 then s.get (F.DMA_CH_RING0_BASE c) else s.get (F.DMA_CH_RING1_BASE c)
def State.dmaRingSize (s : State) (c r : Nat) : Nat :=
  if r = 0 then s.get (F.DMA_CH_RING0_SIZE_LOG2 c) else s.get (F.DMA_CH_RING1_SIZE_LOG2 c)
def State.dmaRingPtr (s : State) (c r : Nat) : Nat :=
  if r = 0 then s.get (F.DMA_CH_RING0_PTR c) else s.get (F.DMA_CH_RING1_PTR c)

/-- Whether a ring's BASE and SIZE_LOG2 are valid (R374). -/
def State.dmaRingOk (s : State) (c r : Nat) : Bool :=
  let z := s.dmaRingSize c r
  8 ≤ z && z ≤ 32 && s.dmaRingBase c r % 2 ^ z == 0

/-- The address of the block at `off` from the start of a MOVE, on the side with mode `m` and address `a` (R374). -/
def State.moveAddr (s : State) (c m a off : Nat) : Nat :=
  if m = 0 then a + off else s.dmaRingBase c (m - 1) + (s.dmaRingPtr c (m - 1) + off) % 2 ^ s.dmaRingSize c (m - 1)

def State.srcAddr (s : State) (c : Nat) (m : DmaMove) (off : Nat) : Nat := s.moveAddr c m.srcMode m.src off
def State.dstAddr (s : State) (c : Nat) (m : DmaMove) (off : Nat) : Nat := s.moveAddr c m.dstMode m.dst off

/-- Whether a MOVE reads host memory, and whether it writes it. -/
def State.fromHost (s : State) (c : Nat) (m : DmaMove) : Bool := isHost (s.srcAddr c m 0)
def State.toHost (s : State) (c : Nat) (m : DmaMove) : Bool := isHost (s.dstAddr c m 0)

/-- The alignment of one side of a MOVE (R375). -/
def State.sideAligned (s : State) (c m a : Nat) : Bool :=
  if m = 0 then a % 64 == 0 else s.dmaRingPtr c (m - 1) % 64 == 0

/-- A MOVE is decoded and checked (R374, R375), and starts. -/
def State.dmaMove (s : State) (c : Nat) (ws : List Nat) : State :=
  let m := moveOf ws
  if m.len = 0 || m.len % 64 != 0 || !s.sideAligned c m.srcMode m.src || !s.sideAligned c m.dstMode m.dst then
    s.dmaBad c 0x003
  else if (m.srcMode != 0 && !s.dmaRingOk c (m.srcMode - 1)) || (m.dstMode != 0 && !s.dmaRingOk c (m.dstMode - 1)) then
    s.dmaBad c 0x004
  else
    let barred := (s.fromHost c m || s.toHost c m) && !s.busMaster c
    s.setDma c { s.dmaChan c with move := some { m with barred := barred }, fromEnd := false }

def execDmaMove (dt : Nat) (c : Fin 32) (f : Fetches) (s : State) : Res :=
  dmaCmd dt c 1 f (fun ws s => s.dmaMove c ws) s

/-- The rings that a MOVE uses advance by LEN, a ring named twice once (R374). -/
def State.advanceRings (s : State) (c : Nat) (m : DmaMove) : State :=
  let s := if m.srcMode = 1 || m.dstMode = 1 then s.bump (F.DMA_CH_RING0_PTR c) m.len else s
  if m.srcMode = 2 || m.dstMode = 2 then s.bump (F.DMA_CH_RING1_PTR c) m.len else s

/-- A block of the source: its bytes, or the kind of the failure (R376). `host` holds what host memory returned, from the
start of the MOVE. -/
def State.readSource (s : State) (c : Nat) (m : DmaMove) (host : List Byte) (i : Nat) : Except Nat (List Byte) × State :=
  let a := s.srcAddr c m (64 * i)
  if isHost a then (.ok ((host.drop (64 * i)).take 64), s.emit (.hostRead (s.dmaFn c) m.noSnoop (a % 2 ^ 63) 64))
  else if !s.belowTop a then (.error 2, s)
  else match s.memRead 12 a 64 with
    | (some bs, s) => (.ok bs, s)
    | (none, s) => (.error 1, s)

/-- A block is written to the destination: none, or the kind of the failure. -/
def State.writeDest (s : State) (c : Nat) (m : DmaMove) (i : Nat) (bs : List Byte) : Option Nat × State :=
  let a := s.dstAddr c m (64 * i)
  if isHost a then (none, s.emit (.hostWrite (s.dmaFn c) m.noSnoop (a % 2 ^ 63) bs))
  else if !s.belowTop a then (some 2, s)
  else match s.memWrite 12 a bs with
    | (true, s) => (none, s)
    | (false, s) => (some 1, s)

/-- Whether the blocks of source and destination overlap (R368). -/
def State.overlaps (s : State) (c : Nat) (m : DmaMove) : Bool :=
  let n := m.len / 64
  (List.range n).any fun i => (List.range n).any fun j => s.srcAddr c m (64 * i) == s.dstAddr c m (64 * j)

/-- `n` free bytes. -/
def State.freeBytes (s : State) : Nat → List Byte × State
  | 0 => ([], s)
  | n + 1 =>
    let (v, s) := s.draw
    let (bs, s) := s.freeBytes n
    (v.setWidth 8 :: bs, s)

/-- How a copy ends: done, or at block `i` with the kind of the failure and whether it was a write. -/
inductive Copied
  | done
  | failed (i : Nat) (kind : Nat) (write : Bool)

/-- The blocks of a MOVE from number `i` on, `n` of them. Where source and destination overlap, what is written is free. -/
def State.copyBlocks (s : State) (c : Nat) (m : DmaMove) (host : List Byte) (free : Bool) (i : Nat) : Nat → Copied × State
  | 0 => (.done, s)
  | n + 1 =>
    match s.readSource c m host i with
    | (.error kind, s) => (.failed i kind false, s)
    | (.ok bs, s) =>
      let (bs, s) := if free then s.freeBytes 64 else (bs, s)
      match s.writeDest c m i bs with
      | (some kind, s) => (.failed i kind true, s)
      | (none, s) => s.copyBlocks c m host free (i + 1) n

/-- Blocks that may or may not have been written when a MOVE was cut off (R376, R385): a free bit says for each of the `n`
blocks from `i` on. -/
def State.maybeBlocks (s : State) (c : Nat) (m : DmaMove) (host : List Byte) (free : Bool) (i : Nat) : Nat → State
  | 0 => s
  | n + 1 =>
    let (v, s) := s.draw
    let s :=
      if v.toNat % 2 = 0 || (s.fromHost c m && host.length < 64 * (i + 1)) then s
      else match s.readSource c m host i with
        | (.ok bs, s) =>
          let (bs, s) := if free then s.freeBytes 64 else (bs, s)
          (s.writeDest c m i bs).2
        | (.error _, s) => s
    s.maybeBlocks c m host free (i + 1) n

/-- A MOVE fails at block `i`: the blocks before ERR_DONE are written, and every other may be. With 64 reads in flight, the
blocks before the failing one need not all have been written either, so ERR_DONE is free up to that block. -/
def State.moveFails (s : State) (c : Nat) (m : DmaMove) (host : List Byte) (i kind : Nat) (write : Bool) : State :=
  let (v, s) := s.draw
  let sure := i - v.toNat % (min i 63 + 1)
  let free := s.overlaps c m
  let s := (s.copyBlocks c m host free 0 sure).2
  let s := s.maybeBlocks c m host free sure (m.len / 64 - sure)
  let a := if write then s.dstAddr c m (64 * i) else s.srcAddr c m (64 * i)
  s.dmaBusError c a write false kind (64 * sure)

/-- The host requests of a MOVE are refused because Bus Master Enable is clear (R376, kind 7): from the first block on, or, where it was
cleared during the MOVE, from a free block on. -/
def State.moveBarred (s : State) (c : Nat) (m : DmaMove) (host : List Byte) : State :=
  let w := !s.fromHost c m
  if m.barred then s.dmaBusError c (if w then s.dstAddr c m 0 else s.srcAddr c m 0) w false 7 0
  else
    let (v, s) := s.draw
    s.moveFails c m host (v.toNat % max 1 (m.len / 64)) 7 w

/-- A MOVE runs: complete, with its rings, MOVED and PC advanced, or ended by a bus error. -/
def State.moveRun (s : State) (c : Nat) (m : DmaMove) (host : List Byte) : Bool × State :=
  if m.barred || ((s.fromHost c m || s.toHost c m) && !s.busMaster c) then (false, s.moveBarred c m host)
  else
    match s.copyBlocks c m host (s.overlaps c m) 0 (m.len / 64) with
    | (.failed i kind write, _) => (false, s.moveFails c m host i kind write)
    | (.done, s) =>
      let s := (s.advanceRings c m).bump (F.DMA_CH_MOVED c) m.len
      (true, (s.setDma c { s.dmaChan c with move := none }).dmaNext c 3)

/-- Every block of a MOVE is written (R374); `host` is what host memory returned, all of it. -/
def execDmaMoveComplete (dt : Nat) (c : Fin 32) (host : Bytes) (s : State) : Res :=
  evCmd dt (fun s => s.dmaState c == dmRunning && match (s.dmaChan c).move with
      | some m => !s.fromHost c m || host.length == m.len
      | none => false)
    (fun s => match (s.dmaChan c).move with
      | some m => (s.moveRun c m host).2
      | none => s) s

/-- A bus error (R376): on the host side at block `blk` of the MOVE under way with one of the kinds 3 to 6, or where the
MOVE's own accesses to device memory fail. -/
def State.dmaBusFail (s : State) (c blk kind : Nat) (host : List Byte) : State :=
  match (s.dmaChan c).move with
  | none => s
  | some m =>
    if s.fromHost c m then
      if blk < m.len / 64 then s.moveFails c m host blk (3 + kind) false else s
    else
      let r := s.moveRun c m host
      if r.1 then s else r.2

/-- The block, kind and direction of the bus error of a MOVE that a STOP of this PIX cycle cut off: on the host side as the command says,
where host memory had not returned the block, or where the MOVE's own accesses to device memory fail. -/
def State.cutFailure (s : State) (c : Nat) (k : DmaCut) (blk kind : Nat) : Option (Nat × Nat × Bool) :=
  let m := k.move
  if m.barred then some (0, 7, !s.fromHost c m)
  else if s.fromHost c m then
    if blk < m.len / 64 && k.got ≤ 64 * blk then some (blk, 3 + kind, false) else none
  else match s.copyBlocks c m [] false 0 (m.len / 64) with
    | (.failed i kind write, _) => some (i, kind, write)
    | (.done, _) => none

/-- A bus error in the PIX cycle of a STOP (R386): it is latched and logged, and the channel stays in STOPPING. That DMA_HALTED and event 32
show it too, as where the error comes first, is DEDUCED (assumption 114). -/
def State.dmaCutFail (s : State) (c blk kind : Nat) : State :=
  match (s.dmaChan c).cut with
  | none => s
  | some k =>
    match if k.cycle = s.pixCycle then s.cutFailure c k blk kind else none with
    | none => s
    | some (i, kind, w) =>
      let a := if w then s.dstAddr c k.move (64 * i) else s.srcAddr c k.move (64 * i)
      let s := s.setDma c { s.dmaChan c with cut := none }
      (s.dmaBusError c a w false kind (64 * min k.sure i)).setDmaState c dmStopping

def execDmaBusError (dt : Nat) (c : Fin 32) (blk : BitVec 26) (kind : Fin 4) (host : Bytes) (s : State) : Res :=
  evCmd dt (fun s => s.dmaState c == dmRunning || s.dmaState c == dmStopping) (fun s =>
    if s.dmaState c = dmRunning then s.dmaBusFail c blk.toNat kind host else s.dmaCutFail c blk.toNat kind) s

/-! ### LOOP, WAIT, JUMP, SIGNAL and illegal words (R367, R369–R372) -/

/-- LOOP (R369). -/
def State.dmaLoop (s : State) (c w : Nat) : State :=
  let ctr := bits w 4 4
  let f := if ctr = 0 then F.DMA_CH_LOOP0 c else F.DMA_CH_LOOP1 c
  let act := s.get (F.DMA_CH_LOOP_ACT c)
  let n := (if bit act ctr then s.get f else bits w 47 16) + (2 ^ 32 - 1)
  let n := n % 2 ^ 32
  let s := s.put f n
  if n != 0 then
    let s := s.put (F.DMA_CH_LOOP_ACT c) (act ||| 2 ^ ctr)
    (s.putInt (F.DMA_CH_PC c) ((s.dmaPc c : Int) - 8 * (bits w 63 48 : Int))).setDma c
      { s.dmaChan c with fromEnd := false }
  else (s.put (F.DMA_CH_LOOP_ACT c) (setBits act ctr ctr 0)).dmaNext c 1

def execDmaLoop (dt : Nat) (c : Fin 32) (f : Fetches) (s : State) : Res :=
  dmaCmd dt c 2 f (fun ws s => s.dmaLoop c (ws.headD 0)) s

/-- The Tempo copy that a channel sees (R17, R370). -/
def State.dmaTempo (s : State) : Nat := s.tempoCopy .pix

/-- A channel leaves a WAIT for the next instruction. -/
def State.waitOver (s : State) (c : Nat) : State :=
  ((s.setDma c { s.dmaChan c with wait := none }).setDmaState c dmRunning).dmaNext c 2

/-- Whether a MODE 0 WAIT for Tempo `t` has timed out (R370): the copy reached `t`, with the channel waiting, in an earlier PIX cycle, so that
an event of the cycle of the deadline is taken (R386). -/
def State.waitExpired (s : State) (c t : Nat) : Bool :=
  t != 2 ^ 64 - 1 && t ≤ ({ s with tempo := s.tempo - 4 } : State).dmaTempo && (s.dmaChan c).waitAt < s.pixCycle

/-- The condition of a WAIT is looked at (R370, R386): it ends, times out, or goes on waiting. -/
def State.waitCheck (s : State) (c mode t : Nat) : State :=
  let now := s.dmaTempo
  if mode = 0 then
    if s.on (F.DMA_CH_STAT_EV_PEND c) then (s.put (F.DMA_CH_STAT_EV_PEND c) 0).waitOver c
    else if s.waitExpired c t then s.dmaHalt c 0x03 0x030 (s.dmaPc c)
    else s
  else
    let d := if mode = 1 then t else (s.get (F.DMA_CH_LAST_DL c) + t) % 2 ^ 64
    if d ≤ now then (s.put (F.DMA_CH_LAST_DL c) d).waitOver c else s

/-- WAIT (R370). -/
def State.dmaWait (s : State) (c : Nat) (ws : List Nat) : State :=
  let mode := bits (ws.headD 0) 5 4
  let t := ws.getD 1 0
  let s := (s.setDma c { s.dmaChan c with wait := some (mode, t), waitAt := s.pixCycle, fromEnd := false }).setDmaState c dmWaiting
  s.waitCheck c mode t

def execDmaWait (dt : Nat) (c : Fin 32) (f : Fetches) (s : State) : Res :=
  dmaCmd dt c 3 f (fun ws s => s.dmaWait c ws) s

def execDmaWaitEnd (dt : Nat) (c : Fin 32) (s : State) : Res :=
  evCmd dt (fun s => s.dmaState c == dmWaiting) (fun s =>
    match (s.dmaChan c).wait with
    | some (mode, t) => s.waitCheck c mode t
    | none => s) s

/-- SIGNAL (R371) waits for the acknowledges of earlier writes, and then publishes. -/
def execDmaSignal (dt : Nat) (c : Fin 32) (f : Fetches) (s : State) : Res :=
  dmaCmd dt c 4 f (fun ws s =>
    let w := ws.headD 0
    s.setDma c { s.dmaChan c with signal := some (bit w 4, bit w 5, bits w 6 6), fromEnd := false }) s

/-- JUMP (R372): bits [58:3] of the target, and bit 63 from SPACE. -/
def execDmaJump (dt : Nat) (c : Fin 32) (f : Fetches) (s : State) : Res :=
  dmaCmd dt c 5 f (fun ws s =>
    let w := ws.headD 0
    (s.put (F.DMA_CH_PC c) (bits w 63 8 * 8 + 2 ^ 63 * bits w 4 4)).setDma c { s.dmaChan c with fromEnd := false }) s

/-- A word that is no valid instruction (R367). -/
def execDmaIllegal (dt : Nat) (c : Fin 32) (f : Fetches) (s : State) : Res :=
  evCmd dt (fun s => s.dmaReady c) (fun s =>
    match (s.dmaUndecoded c).dmaWord c (s.dmaPc c) f with
    | (some w, _, s) => if dmaValid w then s else (s.dmaDecoded c w).dmaBad c 0x002
    | (none, _, s) => s) s

/-! ### END and doorbells (R373, R378, R383) -/

/-- The word at the END's address is fetched again (R378). -/
def State.refetch (s : State) (c : Nat) (fromEnd : Bool) : State :=
  (s.put (F.DMA_CH_STAT_DB_PEND c) 0).setDma c { s.dmaChan c with buf := none, fromEnd := fromEnd }

/-- END (R378). -/
def State.dmaEnd (s : State) (c w : Nat) : State :=
  if s.on (F.DMA_CH_STAT_DB_PEND c) then s.refetch c (s.dmaChan c).fromEnd
  else
    let again := (s.dmaChan c).fromEnd
    let ev := !again && bit w 4
    let d := { s.dmaChan c with fromEnd := false, ended := some (s.pixCycle, ev && !s.hasRaised (832 + c), again) }
    let s := (s.setDma c d).setDmaState c dmEndWait
    if again then s.bump (F.DMA_CH_DB_EMPTY c)
    else if ev then s.dmaEvent c
    else s

/-- A doorbell in END_WAIT: the channel fetches the word again. Where the END was executed in this PIX cycle, the doorbell counts as
earlier: the END presented no event, and was no empty doorbell (R379, R386). -/
def State.fetchAtEnd (s : State) (c : Nat) : State :=
  match (s.dmaChan c).ended with
  | some (t, ev, again) =>
    if t = s.pixCycle then
      let s := if ev then s.withdrawEvent (832 + c) else s
      let s := if again then s.put (F.DMA_CH_DB_EMPTY c) (s.get (F.DMA_CH_DB_EMPTY c) - 1) else s
      s.refetch c again
    else s.refetch c true
  | none => s.refetch c true

def execDmaEnd (dt : Nat) (c : Fin 32) (f : Fetches) (s : State) : Res :=
  dmaCmd dt c 6 f (fun ws s => s.dmaEnd c (ws.headD 0)) s

/-- A doorbell is noted with its PIX cycle (R386). -/
def State.ring (s : State) (c : Nat) : State := s.setDma c { s.dmaChan c with rung := some s.pixCycle }

/-- A doorbell (R378, R383, R385): it starts an IDLE channel, sends one in END_WAIT to fetch again, is discarded in HALTED
and STOPPING, and otherwise stays pending. -/
def State.doorbell (s : State) (c : Nat) : State :=
  let s := s.ring c
  let st := s.dmaState c
  if st = dmIdle then
    if s.dmaPc c % 8 != 0 then s.logErr siteDma 0x01 0x001 [c, s.dmaPc c % 2 ^ 32]
    else
      let s := (s.put (F.DMA_CH_LAST_DL c) s.dmaTempo).put (F.DMA_CH_LOOP_ACT c) 0
      let s := (s.put (F.DMA_CH_STAT_DB_PEND c) 0).put (F.DMA_CH_STAT_EV_PEND c) 0
      (s.setDma c { rung := (s.dmaChan c).rung }).setDmaState c dmRunning
  else if st = dmEndWait then (s.fetchAtEnd c).setDmaState c dmRunning
  else if st = dmHalted || st = dmStopping then (s.bump (F.DMA_CH_DB_LOST c)).dmaEvent 34
  else s.put (F.DMA_CH_STAT_DB_PEND c) 1

/-- Whether a channel's doorbell task is busy, and its event task (R383). -/
def State.doorbellBusy (s : State) (c : Nat) : Bool :=
  let st := s.dmaState c
  s.on (F.DMA_CH_STAT_DB_PEND c) || st == dmHalted || st == dmStopping

def State.dmaEventBusy (s : State) (c : Nat) : Bool := s.on (F.DMA_CH_STAT_EV_PEND c)

/-- Whether a doorbell of the channel has come in this PIX cycle. -/
def State.rungNow (s : State) (c : Nat) : Bool := (s.dmaChan c).rung == some s.pixCycle

/-- A trigger of the doorbell task, which a write of DOORBELL is too (R383): a second one of a PIX cycle is merged with the first (R386), and
one that finds the input busy is absorbed (R356). -/
def State.doorbellTrigger (s : State) (c : Nat) : State :=
  if s.rungNow c then s.coalesce (1536 + 2 * c)
  else if s.doorbellBusy c then (s.doorbell c).absorb (1536 + 2 * c)
  else s.doorbell c

def execDmaDoorbell (dt : Nat) (trig : Trigger) (c : Fin 32) (s : State) : Res :=
  trigCmd dt trig (O.DMA_CH_DOORBELL c) (fun s => s.doorbellTrigger c) s

/-! ### STOP, RESUME and SKIP (R377, R385) -/

/-- A MOVE is cut off by a STOP (R385): the blocks before a free one are written, and each other that had been read may be. -/
def State.cutMove (s : State) (c : Nat) (m : DmaMove) (host : List Byte) : State :=
  let n := m.len / 64
  let (v, s) := s.draw
  let most := if m.barred then 0 else if s.fromHost c m then min n (host.length / 64) else n
  let free := s.overlaps c m
  let (r, s) := s.copyBlocks c m host free 0 (v.toNat % (most + 1))
  let sure := match r with
    | .done => v.toNat % (most + 1)
    | .failed i _ _ => i
  let s := if m.barred then s else s.maybeBlocks c m host free sure (n - sure)
  s.setDma c { s.dmaChan c with cut := some ⟨s.pixCycle, m, sure, host.length⟩ }

/-- STOP (R385). -/
def State.dmaStop (s : State) (c : Nat) (host : List Byte) : State :=
  if s.dmaState c = dmIdle then s
  else
    let s := match (s.dmaChan c).move with
      | some m => s.cutMove c m host
      | none => s
    (s.setDma c { s.dmaChan c with move := none, wait := none, signal := none }).setDmaState c dmStopping

def execDmaStop (dt : Nat) (who : Requester) (c : Fin 32) (host : Bytes) (s : State) : Res :=
  regCmd dt who (O.DMA_CH_CTRL c) (fun s => s.dmaStop c host) s

/-- A STOPPING channel is done (R385). -/
def State.dmaStopped (s : State) (c : Nat) : State :=
  ((s.setDma c { rung := (s.dmaChan c).rung }).setDmaState c dmIdle).dmaEvent 33

def execDmaStopComplete (dt : Nat) (c : Fin 32) (s : State) : Res :=
  evCmd dt (fun s => s.dmaState c == dmStopping) (fun s => s.dmaStopped c) s

/-- RESUME (R377): the halted instruction runs again. -/
def State.dmaResume (s : State) (c : Nat) : State :=
  if s.dmaState c = dmHalted then (s.setDma c { s.dmaChan c with buf := none }).setDmaState c dmRunning else s

def execDmaResume (dt : Nat) (who : Requester) (c : Fin 32) (s : State) : Res :=
  regCmd dt who (O.DMA_CH_CTRL c) (fun s => s.dmaResume c) s

/-- SKIP (R377): the halted instruction counts as complete. -/
def State.dmaSkip (s : State) (c : Nat) : State :=
  if s.dmaState c = dmHalted then
    let d := s.dmaChan c
    let s := match d.last with
      | some m => s.advanceRings c m
      | none => s
    let d := { d with buf := none, last := none, skipped := d.last.map fun m => (s.pixCycle, m) }
    ((s.setDma c d).setDmaState c dmRunning).dmaNext c d.words
  else s

/-- What a ring's PTR takes from a write of `v` in the PIX cycle of a SKIP: the write lands first, and SKIP then adds LEN where the MOVE it
skipped uses the ring (R386). None where no SKIP acts in this cycle. -/
def State.skippedPtr (s : State) (c r v : Nat) : Option Nat :=
  match (s.dmaChan c).skipped with
  | some (t, m) =>
    if t = s.pixCycle then
      some (if m.srcMode = r + 1 || m.dstMode = r + 1 then (v + m.len) % 2 ^ 64 else v)
    else none
  | none => none

def execDmaSkip (dt : Nat) (who : Requester) (c : Fin 32) (s : State) : Res :=
  regCmd dt who (O.DMA_CH_CTRL c) (fun s => s.dmaSkip c) s

end Sys2Proof.Machine
end

