-- ==== Sys2Proof/Machine/EngAlu.lean ====
section
/-! DEFINITION. The meanings of the Cregar instructions that reach no BAR0 register (R335–R337): arithmetic, branches and jumps,
system and cache instructions, and vectors. -/

namespace Sys2Proof.Machine

/-! ### Scalar arithmetic -/

/-- ADD: s[d] = s[a] + s[b]. -/
def execEngAdd (dt : Nat) (e : Fin 192) (s : State) : Res :=
  engCmd dt e .add (formR e (· + ·)) s

/-- SUB: s[d] = s[a] - s[b]. -/
def execEngSub (dt : Nat) (e : Fin 192) (s : State) : Res :=
  engCmd dt e .sub (formR e (· - ·)) s

/-- AND: s[d] = s[a] and s[b]. -/
def execEngAnd (dt : Nat) (e : Fin 192) (s : State) : Res :=
  engCmd dt e .and (formR e (· &&& ·)) s

/-- OR: s[d] = s[a] or s[b]. -/
def execEngOr (dt : Nat) (e : Fin 192) (s : State) : Res :=
  engCmd dt e .or (formR e (· ||| ·)) s

/-- XOR: s[d] = s[a] xor s[b]. -/
def execEngXor (dt : Nat) (e : Fin 192) (s : State) : Res :=
  engCmd dt e .xor (formR e (· ^^^ ·)) s

/-- SLL: s[a] shifted left by s[b] [5:0]. -/
def execEngSll (dt : Nat) (e : Fin 192) (s : State) : Res :=
  engCmd dt e .sll (formR e shl64) s

/-- SRL: s[a] shifted right, zeros entering. -/
def execEngSrl (dt : Nat) (e : Fin 192) (s : State) : Res :=
  engCmd dt e .srl (formR e shr64) s

/-- SRA: s[a] shifted right, copies of its sign entering. -/
def execEngSra (dt : Nat) (e : Fin 192) (s : State) : Res :=
  engCmd dt e .sra (formR e sar64) s

/-- SLT: 1 if s[a] < s[b] as signed numbers, else 0. -/
def execEngSlt (dt : Nat) (e : Fin 192) (s : State) : Res :=
  engCmd dt e .slt (formR e (fun a b => truth (a.slt b))) s

/-- SLTU: 1 if s[a] < s[b] as unsigned numbers, else 0. -/
def execEngSltu (dt : Nat) (e : Fin 192) (s : State) : Res :=
  engCmd dt e .sltu (formR e (fun a b => truth (a.ult b))) s

/-- MIN: the signed minimum. -/
def execEngMin (dt : Nat) (e : Fin 192) (s : State) : Res :=
  engCmd dt e .min (formR e min64) s

/-- MAX: the signed maximum. -/
def execEngMax (dt : Nat) (e : Fin 192) (s : State) : Res :=
  engCmd dt e .max (formR e max64) s

/-- POPC: how many bits of s[a] are 1. -/
def execEngPopc (dt : Nat) (e : Fin 192) (s : State) : Res :=
  engCmd dt e .popc (formR e (fun a _ => popCount a)) s

/-- MUL: the low 64 bits of the product. -/
def execEngMul (dt : Nat) (e : Fin 192) (s : State) : Res :=
  engCmd dt e .mul (formR e (· * ·)) s

/-- DIV: the signed quotient. -/
def execEngDiv (dt : Nat) (e : Fin 192) (s : State) : Res :=
  engCmd dt e .div (formR e div64) s

/-- DIVU: the unsigned quotient. -/
def execEngDivu (dt : Nat) (e : Fin 192) (s : State) : Res :=
  engCmd dt e .divu (formR e divu64) s

/-- REM: the signed remainder. -/
def execEngRem (dt : Nat) (e : Fin 192) (s : State) : Res :=
  engCmd dt e .rem (formR e rem64) s

/-- REMU: the unsigned remainder. -/
def execEngRemu (dt : Nat) (e : Fin 192) (s : State) : Res :=
  engCmd dt e .remu (formR e remu64) s

/-- ADDI: s[a] plus the immediate sign-extended. -/
def execEngAddi (dt : Nat) (e : Fin 192) (s : State) : Res :=
  engCmd dt e .addi (formI e (fun a i => a + immS 16 i)) s

/-- ANDI: s[a] and the immediate zero-extended. -/
def execEngAndi (dt : Nat) (e : Fin 192) (s : State) : Res :=
  engCmd dt e .andi (formI e (fun a i => a &&& BitVec.ofNat 64 i)) s

/-- ORI: s[a] or the immediate zero-extended. -/
def execEngOri (dt : Nat) (e : Fin 192) (s : State) : Res :=
  engCmd dt e .ori (formI e (fun a i => a ||| BitVec.ofNat 64 i)) s

/-- SLLI: s[a] shifted left by imm [5:0]. -/
def execEngSlli (dt : Nat) (e : Fin 192) (s : State) : Res :=
  engCmd dt e .slli (formI e (fun a i => a <<< (i % 64))) s

/-- SRLI: s[a] shifted right by imm [5:0], zeros entering. -/
def execEngSrli (dt : Nat) (e : Fin 192) (s : State) : Res :=
  engCmd dt e .srli (formI e (fun a i => a >>> (i % 64))) s

/-- SRAI: s[a] shifted right by imm [5:0], copies of its sign entering. -/
def execEngSrai (dt : Nat) (e : Fin 192) (s : State) : Res :=
  engCmd dt e .srai (formI e (fun a i => a.sshiftRight (i % 64))) s

/-- EXT: the bit field of s[a] that the immediate names. -/
def execEngExt (dt : Nat) (e : Fin 192) (s : State) : Res :=
  engCmd dt e .ext (formI e (fun a i => ext64 a (bits i 15 10) (bits i 5 0 + 1) (bit i 9))) s

/-- INS16: halfword h of s[d] replaced by the immediate. -/
def execEngIns16 (dt : Nat) (e : Fin 192) (s : State) : Res :=
  engCmd dt e .ins16 (fun w s =>
    .ok (s.setS e (insD w) (ins16 (s.sreg e (insD w)) (insA w % 4) (insImm16 w)))) s

/-! ### Branches and jumps -/

/-- BEQ: branch if equal. -/
def execEngBeq (dt : Nat) (e : Fin 192) (s : State) : Res :=
  engCmd dt e .beq (formB e (· == ·)) s

/-- BNE: branch if not equal. -/
def execEngBne (dt : Nat) (e : Fin 192) (s : State) : Res :=
  engCmd dt e .bne (formB e (· != ·)) s

/-- BLT: branch if less, signed. -/
def execEngBlt (dt : Nat) (e : Fin 192) (s : State) : Res :=
  engCmd dt e .blt (formB e (fun a b => a.slt b)) s

/-- BGE: branch if not less, signed. -/
def execEngBge (dt : Nat) (e : Fin 192) (s : State) : Res :=
  engCmd dt e .bge (formB e (fun a b => !a.slt b)) s

/-- BLTU: branch if less, unsigned. -/
def execEngBltu (dt : Nat) (e : Fin 192) (s : State) : Res :=
  engCmd dt e .bltu (formB e (fun a b => a.ult b)) s

/-- BGEU: branch if not less, unsigned. -/
def execEngBgeu (dt : Nat) (e : Fin 192) (s : State) : Res :=
  engCmd dt e .bgeu (formB e (fun a b => !a.ult b)) s

/-- J: a jump by off26 words. -/
def execEngJ (dt : Nat) (e : Fin 192) (s : State) : Res :=
  engCmd dt e .j (fun w s => .branch s true (s.pc e + 4 * immS 26 (insOff26 w))) s

/-- JAL: as J, with the link in s30. -/
def execEngJal (dt : Nat) (e : Fin 192) (s : State) : Res :=
  engCmd dt e .jal (fun w s => .branch (s.setS e 30 (s.pc e + 4)) true (s.pc e + 4 * immS 26 (insOff26 w))) s

/-- JALR: a jump to s[a], with the link in s[d]. -/
def execEngJalr (dt : Nat) (e : Fin 192) (s : State) : Res :=
  engCmd dt e .jalr (fun w s => .branch (s.setS e (insD w) (s.pc e + 4)) true (s.sreg e (insA w))) s

/-! ### System and cache instructions -/

/-- FENCE: every write-back started has landed (R327); every other access of the model is acknowledged when it is made. -/
def execEngFence (dt : Nat) (e : Fin 192) (s : State) : Res :=
  engCmd dt e .fence (fun _ s => .ok (s.landAll e fun _ => true)) s

/-- ISYNC: what the fetch pipe held is discarded. -/
def execEngIsync (dt : Nat) (e : Fin 192) (s : State) : Res :=
  engCmd dt e .isync (fun _ s => .ok (s.setEngine e { s.engine e with behind := [] })) s

/-- The pending bits a WAIT checks, and whether its condition holds (R337). -/
def State.waitHolds (s : State) (e : Nat) (deadline : DWord) (mask : Nat) : Bool :=
  s.get (F.ENGINE_EV_PENDING e) &&& mask != 0 || decide (deadline.toNat ≤ s.tempoCopy .eng)

/-- A WAIT ends: s[d] takes the pending bits it checks, which are cleared. -/
def State.waitEnd (s : State) (e d mask : Nat) : State :=
  let p := s.get (F.ENGINE_EV_PENDING e)
  let s := (s.setS e d (BitVec.ofNat 64 (p &&& mask))).put (F.ENGINE_EV_PENDING e) (p - (p &&& mask))
  s.setEngine e { s.engine e with polled := some (s.now, d, mask) }

/-- WAIT: it ends at once where its condition holds; otherwise the engine is WAITING (R337). -/
def execEngWait (dt : Nat) (e : Fin 192) (s : State) : Res :=
  engCmd dt e .wait (fun w s =>
    if s.waitHolds e (s.sreg e (insA w)) (insImm8 w) then .ok (s.waitEnd e (insD w) (insImm8 w))
    else .sleep s w (s.sreg e (insA w))) s

/-- A waiting engine's condition holds: the WAIT completes and the engine is RUNNING again. -/
def State.wakeUp (s : State) (e w : Nat) : State :=
  let s := ((s.waitEnd e (insD w) (insImm8 w)).setEngState e egRunning)
  let s := s.setEngine e { s.engine e with wait := none }
  s.engDone e (s.sampleOf e .wait w none false false) .wait (s.pc e + 4)

def execEngWaitEnd (dt : Nat) (e : Fin 192) (s : State) : Res :=
  evCmd dt (fun s => s.engState e == egWaiting && !(s.engine e).off && match (s.engine e).wait with
      | some (w, t) => s.waitHolds e t (insImm8 w)
      | none => false)
    (fun s => match (s.engine e).wait with
      | some (w, _) => s.wakeUp e w
      | none => s) s

/-- An ENG event from an instruction: one that its source has already presented in this TMP cycle is merged and counted (R337). -/
def State.engSignal (s : State) (n : Nat) : State :=
  if s.hasRaised (704 + n) then s.bump F.ENG_SIG_MERGED else s.raise (704 + n)

/-- SIGNAL: event imm8 of ENG. -/
def execEngSignal (dt : Nat) (e : Fin 192) (s : State) : Res :=
  engCmd dt e .signal (fun w s => .ok (s.engSignal (insImm8 w))) s

/-- What RDSYS reads by its selector. -/
def State.sysValue (s : State) (e : Nat) : Nat → DWord
  | 0 => BitVec.ofNat 64 (s.tempoCopy .eng)
  | 1 => BitVec.ofNat 64 e
  | 2 => BitVec.ofNat 64 (e / 16)
  | 3 => truth (s.secureEngine e)
  | _ => BitVec.ofNat 64 s.devmemTop

/-- RDSYS: a system value. -/
def execEngRdsys (dt : Nat) (e : Fin 192) (s : State) : Res :=
  engCmd dt e .rdsys (fun w s => .ok (s.setS e (insD w) (s.sysValue e (insImm8 w)))) s

/-- HALT: HALTED with HALT_CODE imm8 (R340). -/
def execEngHalt (dt : Nat) (e : Fin 192) (s : State) : Res :=
  engCmd dt e .halt (fun w s => .halt s (insImm8 w)) s

/-- A cache instruction on the line at s[a]: nothing on an uncached region, a fault where nothing is mapped. A line whose dirty
bytes are lost faults when it is written back (R332). -/
def cacheOp (e : Nat) (f : State → Nat → DLine → State) (back : Bool) (w : Nat) (s : State) : EngRes :=
  let a := s.sreg e (insA w)
  match s.region e a.toNat with
  | .none => .fault s 0x004 a
  | .dev => match s.dline e (a.toNat / 64) with
    | some l =>
      if back && l.lost then
        .fault (((s.dropLine e (a.toNat / 64)).startBack e (a.toNat / 64) l).setPc e (s.pc e + 4)) 0x011 (BitVec.ofNat 64 (a.toNat / 64 * 64))
      else .ok (f s (a.toNat / 64) l)
    | none => .ok s
  | _ => .ok s

/-- A line written back and kept, clean. -/
def State.cleanLine (s : State) (e b : Nat) (l : DLine) : State :=
  (s.startBack e b l).putLine e b { l with dirty := 0 }

/-- DC.CLEAN: the write-back of the dirty bytes is started; the line stays, clean. -/
def execEngDcClean (dt : Nat) (e : Fin 192) (s : State) : Res :=
  engCmd dt e .dcClean (cacheOp e (fun s b l => s.cleanLine e b l) true) s

/-- DC.INV: the line is discarded, dirty bytes included. -/
def execEngDcInv (dt : Nat) (e : Fin 192) (s : State) : Res :=
  engCmd dt e .dcInv (cacheOp e (fun s b _ => s.dropLine e b) false) s

/-- DC.CINV: the write-back is started and the line discarded. -/
def execEngDcCinv (dt : Nat) (e : Fin 192) (s : State) : Res :=
  engCmd dt e .dcCinv (cacheOp e (fun s b l => (s.startBack e b l).dropLine e b) true) s

/-- DC.CLEANALL: the write-back of every dirty line is started; the lines stay. -/
def execEngDcCleanall (dt : Nat) (e : Fin 192) (s : State) : Res :=
  engCmd dt e .dcCleanall (fun _ s =>
    let lines := (s.engine e).dc
    let s' := lines.foldl (fun (s : State) p =>
      if p.2.lost then (s.dropLine e p.1).startBack e p.1 p.2 else s.cleanLine e p.1 p.2) s
    match lines.find? fun p => p.2.lost with
    | some p => .fault (s'.setPc e (s.pc e + 4)) 0x011 (BitVec.ofNat 64 (64 * p.1))
    | none => .ok s') s

/-- IC.INVALL: every line of the instruction cache is discarded; the fetch pipe may hold some until ISYNC. -/
def execEngIcInvall (dt : Nat) (e : Fin 192) (s : State) : Res :=
  engCmd dt e .icInvall (fun _ s => .ok (s.setEngine e { s.engine e with ic := [], behind := (s.engine e).ic ++ (s.engine e).behind })) s

/-! ### Vectors -/

/-- VADD: element-wise sum. -/
def execEngVadd (dt : Nat) (e : Fin 192) (s : State) : Res :=
  engCmd dt e .vadd (formV e vadd) s

/-- VSUB: element-wise difference. -/
def execEngVsub (dt : Nat) (e : Fin 192) (s : State) : Res :=
  engCmd dt e .vsub (formV e vsub) s

/-- VMUL: the low half of each product. -/
def execEngVmul (dt : Nat) (e : Fin 192) (s : State) : Res :=
  engCmd dt e .vmul (formV e (fun _ _ a b => a * b)) s

/-- VMIN: element-wise minimum. -/
def execEngVmin (dt : Nat) (e : Fin 192) (s : State) : Res :=
  engCmd dt e .vmin (formV e vmin) s

/-- VMAX: element-wise maximum. -/
def execEngVmax (dt : Nat) (e : Fin 192) (s : State) : Res :=
  engCmd dt e .vmax (formV e vmax) s

/-- VAND: bitwise AND. -/
def execEngVand (dt : Nat) (e : Fin 192) (s : State) : Res :=
  engCmd dt e .vand (formV e (fun _ _ a b => a &&& b)) s

/-- VOR: bitwise OR. -/
def execEngVor (dt : Nat) (e : Fin 192) (s : State) : Res :=
  engCmd dt e .vor (formV e (fun _ _ a b => a ||| b)) s

/-- VSHL: element-wise left shift. -/
def execEngVshl (dt : Nat) (e : Fin 192) (s : State) : Res :=
  engCmd dt e .vshl (formV e (fun z _ a b => vshl z a b)) s

/-- VSHR: element-wise right shift. -/
def execEngVshr (dt : Nat) (e : Fin 192) (s : State) : Res :=
  engCmd dt e .vshr (formV e vshr) s

/-- VABSD: element-wise absolute difference. -/
def execEngVabsd (dt : Nat) (e : Fin 192) (s : State) : Res :=
  engCmd dt e .vabsd (formV e vabsd) s

/-- VCMPEQ: predicate of equality. -/
def execEngVcmpeq (dt : Nat) (e : Fin 192) (s : State) : Res :=
  engCmd dt e .vcmpeq (formC e (fun _ _ a b => a == b)) s

/-- VCMPLT: predicate of less-than. -/
def execEngVcmplt (dt : Nat) (e : Fin 192) (s : State) : Res :=
  engCmd dt e .vcmplt (formC e (fun z u a b => decide (elemAs z u a < elemAs z u b))) s

/-- VSEL: each element from va where pm is 1, else from vb. -/
def execEngVsel (dt : Nat) (e : Fin 192) (s : State) : Res :=
  engCmd dt e .vsel (fun w s =>
    let z := insEsz w
    .ok (s.setV e (insD w) (ofElems z fun i =>
      if active z (s.preg e (insPm w)) i then elem z (s.vreg e (insA w)) i else elem z (s.vreg e (insB w)) i))) s

/-- VREDADD: the sum of the active elements. -/
def execEngVredadd (dt : Nat) (e : Fin 192) (s : State) : Res :=
  engCmd dt e .vredadd (fun w s =>
    .ok (s.setS e (insD w) (vredadd (insEsz w) (insU w) (s.preg e (insPm w)) (s.vreg e (insA w))))) s

/-- VBCAST: a scalar to every active element. -/
def execEngVbcast (dt : Nat) (e : Fin 192) (s : State) : Res :=
  engCmd dt e .vbcast (fun w s =>
    let z := insEsz w
    .ok (s.setV e (insD w) (mergeElems z (s.preg e (insPm w)) (s.vreg e (insD w)) fun _ => (s.sreg e (insA w)).toNat))) s

/-- VEXTR: one element to a scalar. -/
def execEngVextr (dt : Nat) (e : Fin 192) (s : State) : Res :=
  engCmd dt e .vextr (fun w s =>
    .ok (s.setS e (insD w) (vextr (insEsz w) (insU w) (s.vreg e (insA w)) (s.sreg e (insB w)).toNat))) s

/-- PAND: AND of predicates. -/
def execEngPand (dt : Nat) (e : Fin 192) (s : State) : Res :=
  engCmd dt e .pand (fun w s => .ok (s.setP e (insD w) (s.preg e (insA w) &&& s.preg e (insB w)))) s

/-- PNOT: NOT of a predicate. -/
def execEngPnot (dt : Nat) (e : Fin 192) (s : State) : Res :=
  engCmd dt e .pnot (fun w s => .ok (s.setP e (insD w) (~~~ s.preg e (insA w)))) s

/-- A word that is no instruction takes the ILLEGAL fault (R334), as does every fetch fault its own. -/
def execEngIllegal (dt : Nat) (e : Fin 192) (s : State) : Res :=
  evCmd dt (fun s => s.issuing e) (fun s =>
    match s.engFetch e with
    | (.error cause, s') => s'.engFault e cause (s.pc e)
    | (.ok w, s') => if (cregar w).isNone then s'.engFault e 0x002 0 else s) s

end Sys2Proof.Machine
end

