-- ==== Sys2Proof/Machine/Hif.lean ====
section
/-! DEFINITION. The host interface (17 R452–R464): PCIe link, MSI-X, BAR2, GPIO and I²C. Function Level Resets are in
Reset.lean. -/

namespace Sys2Proof.Machine

/-- HIF event `i` (R493). -/
def State.hifEvent (s : State) (i : Nat) : State := s.raise (1280 + i)

/-- Whether a function's Bus Master Enable is set. -/
def State.bmeOf (s : State) (f : Nat) : Bool := s.hif.bme.getLsbD f

/-! ### Interrupts (R33, R454) -/

/-- An MSI-X write goes out. -/
def State.msixIssue (s : State) (f v : Nat) : State := s.emit (s.msixWrite f v)

/-- The write of a vector that has just fired is to go out within 40 ns of its TMP cycle; when in that time is free. -/
def State.msixIssueSoon (s : State) (f v : Nat) : State :=
  let (d, s) := s.draw
  { s with hif := { s.hif with msix := s.hif.msix ++ [{ f := f, v := v, due := s.now / 8 * 8 + d.toNat % 161 }] } }

/-- Whether the write of a vector that has fired is still to go out. -/
def State.msixGoing (s : State) (f v : Nat) : Bool := s.hif.msix.any fun m => m.f == f && m.v == v

/-- Whether a vector is held pending. -/
def State.msixPending (s : State) (f v : Nat) : Bool := bit (s.get (F.MSIX_PBA f)) v

def State.setPending (s : State) (f v : Nat) : State := s.put (F.MSIX_PBA f) (s.get (F.MSIX_PBA f) ||| 2 ^ v)

/-- A vector may be issued: unmasked, and its function may master the bus. -/
def State.msixOpen (s : State) (f v : Nat) : Bool := !s.on (F.MSIX_CTRL f v) && s.bmeOf f

/-- A host interrupt task fires (R33). -/
def State.msixFire (s : State) (f v : Nat) : State :=
  if s.inFlr f then s.bump (F.HIF_PF_DISC_INT f)
  else if s.msixOpen f v then s.msixIssueSoon f v
  else s.setPending f v

/-- A held interrupt whose vector may now be issued goes out. -/
def State.msixFlush (s : State) (f v : Nat) : State :=
  if s.msixPending f v && s.msixOpen f v then
    (s.put (F.MSIX_PBA f) (s.get (F.MSIX_PBA f) - 2 ^ v)).msixIssue f v
  else s

def execMsixVectorUnmask (dt : Nat) (who : Requester) (f : Fin 6) (v : Fin 32) (s : State) : Res :=
  regCmd dt who (O.MSIX_CTRL f v) (fun s => (s.put (F.MSIX_CTRL f v) 0).msixFlush f v) s

/-- Bus Master Enable is set: the function's held interrupts go out, in the order of their vectors. -/
def State.enableBusMaster (s : State) (f : Fin 6) : State :=
  (List.range 32).foldl (fun (s : State) v => s.msixFlush f v)
    { s with hif := { s.hif with bme := s.hif.bme ||| BitVec.ofNat 6 (2 ^ f.val) } }

/-- Whether the HIF answers configuration requests: from the end of boot step 4 on (R534), and outside the function's reset. -/
def State.configOpen (s : State) (f : Nat) : Bool := decide (5 ≤ s.boot.step) && !s.inFlr f

def execBusMasterEnableSet (dt : Nat) (f : Fin 6) (s : State) : Res :=
  evCmd dt (fun s => s.configOpen f) (fun s => s.enableBusMaster f) s

/-! ### The link (R452, R493, R494) -/

def execPcieLinkUp (dt : Nat) (rate : Fin 5) (width : Fin 9) (s : State) : Res :=
  evCmd dt (fun s => !s.on F.HIF_LINK_UP) (fun s =>
    (((s.put F.HIF_LINK_RATE (rate + 1)).put F.HIF_LINK_WIDTH width).put F.HIF_LINK_UP 1).hifEvent 1) s

def execPcieLinkDown (dt : Nat) (s : State) : Res :=
  evCmd dt (fun s => s.on F.HIF_LINK_UP) (fun s =>
    ((s.put F.HIF_LINK_UP 0).hifEvent 0).logErr siteHif 0x04 0x040 []) s

/-! ### BAR2 (R455, R456) -/

/-- The size of a function's BAR2, as a power of two: 128 GiB unless it has been resized. -/
def State.bar2Size (s : State) (f : Nat) : Nat := Sparse.get (fun _ => 37) s.hif.bar2Log2 f

/-- BAR2_BASE is written: a multiple of the BAR's size, or discarded with cause 0x002. -/
def State.bar2BaseWrite (s : State) (f v : Nat) : State :=
  if v % 2 ^ s.bar2Size f = 0 then s.put (F.HIF_PF_BAR2_BASE f) v
  else s.logErr siteHif 0x01 0x002

/-- Whether `n` bytes at an offset of a function's BAR2 lie below DEVMEM_TOP. -/
def State.bar2In (s : State) (f off n : Nat) : Bool :=
  s.belowTop (s.get (F.HIF_PF_BAR2_BASE f) + off + (n - 1))

def State.bar2Range (s : State) : State := s.logErr siteHif 0x01 0x011

/-- A read of BAR2. -/
def State.bar2Read (s : State) (f off n : Nat) : State :=
  if s.inFlr f then s.emit (.bar2 f off true none)
  else if s.bar2In f off n then
    match s.memRead 15 (s.get (F.HIF_PF_BAR2_BASE f) + off) n with
    | (some bs, s) => s.emit (.bar2 f off false (some bs))
    | (none, s) => (s.emit (.bar2 f off false none)).logErr siteHif 0x02 0x010
  else (s.bar2Range).emit (.bar2 f off true none)

def execBar2Read (dt : Nat) (f : Fin 6) (off : DWord) (len : Fin 4097) (s : State) : Res :=
  evCmd dt (fun _ => true) (fun s => s.bar2Read f (off.toNat % 2 ^ s.bar2Size f) len) s

/-- A write of BAR2. -/
def State.bar2Write (s : State) (f off : Nat) (bs : List Byte) : State :=
  if s.inFlr f then s
  else if s.bar2In f off bs.length then (s.memWrite 15 (s.get (F.HIF_PF_BAR2_BASE f) + off) bs).2
  else s.bar2Range

def execBar2Write (dt : Nat) (f : Fin 6) (off : DWord) (bytes : Bytes) (s : State) : Res :=
  evCmd dt (fun _ => true) (fun s => s.bar2Write f (off.toNat % 2 ^ s.bar2Size f) bytes) s

/-! ### GPIO (R460) -/

/-- The edge selection of a ball: 1 rising, 2 falling, 3 both. -/
def State.gpioSel (s : State) (i : Nat) : Nat :=
  let w := if i < 16 then s.get F.GPIO_EDGE_CFG0 else s.get F.GPIO_EDGE_CFG1
  w / 2 ^ (2 * (i % 16)) % 4

/-- A new level of a ball has been accepted. -/
def State.gpioEdge (s : State) (i : Nat) (level : Bool) : State :=
  let w := s.get F.GPIO_IN
  let s := s.put F.GPIO_IN (if level then w ||| 2 ^ i else w - 2 ^ i)
  if bit (s.gpioSel i) (if level then 0 else 1) then
    (s.flagBits F.GPIO_EDGE_STAT (2 ^ i)).hifEvent (16 + i)
  else s

/-- When a ball's level was accepted last: one more than the Tempo, and 0 with none yet. -/
def State.gpioLast (s : State) (i : Nat) : Nat := Sparse.get (fun _ => 0) s.hif.gpioAt i

/-- Whether a ball can have given FILT + 1 equal samples, 1 µs apart, since its last accepted level. -/
def State.gpioFiltered (s : State) (i : Nat) : Bool :=
  s.gpioLast i == 0 || decide (s.gpioLast i - 1 + (s.get F.GPIO_FILT + 1) * 4000 ≤ s.now)

/-- A ball shows another level than the accepted one through FILT + 1 samples. -/
def State.gpioNew (s : State) (i : Nat) (level : Bool) : Bool := bit (s.get F.GPIO_IN) i != level && s.gpioFiltered i

/-- The level is accepted. -/
def State.gpioAccept (s : State) (i : Nat) (level : Bool) : State :=
  { s with hif := { s.hif with gpioAt := Sparse.set (fun _ => 0) s.hif.gpioAt i (s.now + 1) } }.gpioEdge i level

def execGpioEdge (dt : Nat) (i : Fin 32) (level : Bool) (s : State) : Res :=
  evCmd dt (fun s => s.gpioNew i level) (fun s => s.gpioAccept i level) s

/-- The GPIO balls drive what GPIO_OE and GPIO_OUT say (R460). -/
def State.gpioDrive (s : State) : State := s.emit (.gpio (s.get F.GPIO_OE) (s.get F.GPIO_OUT &&& s.get F.GPIO_OE))

/-- The bits of GPIO_OUT set in this HIF cycle. -/
def State.gpioJustSet (s : State) : Nat :=
  if Domain.hif.cycleOf s.hif.gpioSet.2 = Domain.hif.cycleOf s.now then s.hif.gpioSet.1 else 0

/-- Bits of GPIO_OUT are set. -/
def State.gpioSet (s : State) (v : Nat) : State :=
  ({ s with hif := { s.hif with gpioSet := (s.gpioJustSet ||| v, s.now) } }.put F.GPIO_OUT (s.get F.GPIO_OUT ||| v)).gpioDrive

/-- Bits of GPIO_OUT are cleared, but for those set in the same cycle. -/
def State.gpioClr (s : State) (v : Nat) : State :=
  let out := s.get F.GPIO_OUT
  (s.put F.GPIO_OUT (out ^^^ (out &&& (v ^^^ (v &&& s.gpioJustSet))))).gpioDrive

def execGpioOutSet (dt : Nat) (who : Requester) (v : Word) (s : State) : Res :=
  regCmd dt who O.GPIO_OUT_SET (fun s => s.gpioSet v.toNat) s

def execGpioOutClr (dt : Nat) (who : Requester) (v : Word) (s : State) : Res :=
  regCmd dt who O.GPIO_OUT_CLR (fun s => s.gpioClr v.toNat) s

/-! ### I²C (R461, R462) -/

/-- The bytes of WDATA that a transfer sends. -/
def State.i2cData (s : State) (n : Nat) : List Byte :=
  ((List.range 4).flatMap fun i => toBytes 4 (s.get (F.I2C_WDATA i))).take n

/-- GO is written. -/
def State.i2cGo (s : State) : State :=
  if s.on F.I2C_STAT_BUSY then s
  else
    let w := min 16 (s.get F.I2C_LEN_WLEN)
    let r := min 16 (s.get F.I2C_LEN_RLEN)
    let s := ((s.put F.I2C_STAT_NACK 0).put F.I2C_STAT_ARB_LOST 0).put F.I2C_STAT_TIMEOUT 0
    let s := ((s.put F.I2C_STAT_BUS_STUCK 0).put F.I2C_STAT_NACK_BYTE 0).put F.I2C_STAT_BUSY 1
    { s with hif := { s.hif with i2cLen := (w, r) } }.emit (.i2c (s.on F.I2C_CFG_FAST) (s.get F.I2C_ADDR) (s.i2cData w) r)

def execI2cGo (dt : Nat) (who : Requester) (s : State) : Res := regCmd dt who O.I2C_CTRL State.i2cGo s

/-- Bytes read go into RDATA0 to RDATA3. -/
def State.i2cStore (s : State) (bs : List Byte) : State :=
  let bs := bs.take s.hif.i2cLen.2
  (List.range 4).foldl (fun (s : State) i =>
    let part := (bs.drop (4 * i)).take 4
    if part = [] then s
    else s.put (F.I2C_RDATA i) (setBits (s.get (F.I2C_RDATA i)) (8 * part.length - 1) 0 (ofBytes part))) s

/-- A transfer ends in error: the flag is set, event 49 raised, and the error logged with I2C_STAT. -/
def State.i2cFail (s : State) (flag : Fld) (cause : Nat) : State :=
  let s := ((s.put F.I2C_STAT_BUSY 0).flag F.I2C_STAT_ERROR).put flag 1
  (s.hifEvent 49).logErr siteHif 0x04 cause [s.word O.I2C_STAT]

/-- The bytes that a transfer has read: none where the target did not answer or the bus could not be freed. -/
def i2cRead (o : I2cEnd) (bs : List Byte) : List Byte :=
  match o with
  | .ok | .arbLost => bs
  | .nack _ | .busStuck => []

/-- A transfer ends (R462). -/
def State.i2cEnd (s : State) (outcome : I2cEnd) : State :=
  match outcome with
  | .ok => ((s.put F.I2C_STAT_BUSY 0).flag F.I2C_STAT_DONE).hifEvent 48
  | .nack b => (s.put F.I2C_STAT_NACK_BYTE (min b s.hif.i2cLen.1)).i2cFail F.I2C_STAT_NACK 0x042
  | .arbLost => s.i2cFail F.I2C_STAT_ARB_LOST 0x043
  | .busStuck => s.i2cFail F.I2C_STAT_BUS_STUCK 0x043

def execI2cTransferEnd (dt : Nat) (outcome : I2cEnd) (rdata : Bytes) (s : State) : Res :=
  evCmd dt (fun s => s.on F.I2C_STAT_BUSY) (fun s => (s.i2cStore (i2cRead outcome rdata)).i2cEnd outcome) s

def execI2cStretchTimeout (dt : Nat) (rdata : Bytes) (s : State) : Res :=
  evCmd dt (fun s => s.on F.I2C_STAT_BUSY) (fun s => (s.i2cStore rdata).i2cFail F.I2C_STAT_TIMEOUT 0x043) s

end Sys2Proof.Machine
end

