-- ==== Sys2Proof/Machine/Pmu.lean ====
section
/-! DEFINITION. Performance monitor controls (18 R519–R524). The counting is in Ops.lean, the samplers in Eng.lean. -/

namespace Sys2Proof.Machine

/-! ### Counts of cycles (R520, R521) -/

/-- The instances of a unit that have codes of their own, and how many codes (R520). -/
def pmuCodes (unit : Nat) : Nat × Nat :=
  if unit = 0x0B then (192, 9) else if unit = 0x0E then (16, 6) else if unit = 0x04 then (9, 3)
  else if unit = 0x08 then (1, 2) else if unit = 0x0F then (53, 4) else (0, 0)

/-- Whether a code counts cycles (R520): an engine's cycles, cycles WAITING and cycles stalled on a load, a channel's in self-refresh, and a
pipe's rendering. The other codes are counted where what they name happens (State.tally). -/
def pmuCycles (unit event : Nat) : Bool :=
  (unit == 0x0B && (event == 0 || event == 6 || event == 7)) || (unit == 0x0E && event == 5) || (unit == 0x04 && event == 2)

/-- The clock domain of a unit that has codes of its own (R520). -/
def pmuDomain (unit : Nat) : Domain := if unit = 0x0B then .eng else if unit = 0x0E then .mem else .pix

/-- Whether counter `c` counts cycles now. -/
def State.pmuTicks (s : State) (c : Nat) : Bool :=
  let unit := s.get (F.PMU_CNT_CFG_UNIT c)
  s.on (F.PMU_CNT_CFG_EN c) && !s.on F.PMU_CTRL_FREEZE && pmuCycles unit (s.get (F.PMU_CNT_CFG_EVENT c))
    && decide (bits (s.word (O.PMU_CNT_CFG c)) 23 16 < (pmuCodes unit).1)

/-- The Tempo up to which a counter of cycles has counted. -/
def State.pmuUpTo (s : State) (c : Nat) : Nat := Sparse.get (fun _ => 0) s.pmu.ticksAt c

/-- A counter of cycles counts from Tempo `t` on. -/
def State.pmuMark (s : State) (c t : Nat) : State :=
  { s with pmu := { s.pmu with ticksAt := Sparse.set (fun _ => 0) s.pmu.ticksAt c t } }

/-- The cycles of its unit's domain that counter `c` has not yet counted at Tempo `t`. -/
def State.pmuElapsed (s : State) (c t : Nat) : Nat :=
  let d := pmuDomain (s.get (F.PMU_CNT_CFG_UNIT c))
  d.cycleOf t - d.cycleOf (s.pmuUpTo c)

/-- Counter `c` counts up to Tempo `t` where it counts cycles: at most one in each cycle, and an engine's cycles all of them; how many of the
others met what the code names, no command shows, so it is free. -/
def State.pmuCount (s : State) (c t : Nat) : State :=
  if s.pmuTicks c && decide (s.pmuUpTo c ≤ t) then
    let n := s.pmuElapsed c t
    let all := s.get (F.PMU_CNT_CFG_UNIT c) = 0x0B && s.get (F.PMU_CNT_CFG_EVENT c) = 0
    let (v, s) := s.draw
    let value := s.get (F.PMU_CNT_VALUE c) + if all then n else v.toNat % (n + 1)
    let s := s.pmuMark c t
    if 2 ^ 48 ≤ value then (s.pmuWrap c).put (F.PMU_CNT_VALUE c) (value - 2 ^ 48) else s.put (F.PMU_CNT_VALUE c) value
  else s

/-- A read shows what has come through the crossing of R18: the count of a free instant at most 42 units ago, its longest. -/
def State.pmuShow (s : State) (c : Nat) : State :=
  if s.pmuTicks c then
    let (v, s) := s.draw
    s.pmuCount c (s.now - v.toNat % 43)
  else s

/-- A counter stops at a free instant within the 30 ns of R521. -/
def State.pmuStop (s : State) (c : Nat) : State :=
  if s.pmuTicks c then
    let (v, s) := s.draw
    s.pmuCount c (s.now + v.toNat % 121)
  else s

/-- A counter of cycles that has been started or set counts from now on. -/
def State.pmuFromNow (s : State) (c : Nat) : State := if s.pmuTicks c then s.pmuMark c s.now else s

/-! ### Controls -/

/-- FREEZE is written (R521). -/
def State.pmuFreeze (s : State) (on : Bool) : State :=
  let s := ((List.range 32).foldl State.pmuStop s).put F.PMU_CTRL_FREEZE (b2n on)
  (List.range 32).foldl State.pmuFromNow s

def execPmuFreeze (dt : Nat) (who : Requester) (on : Bool) (s : State) : Res :=
  regCmd dt who O.PMU_CTRL (fun s => s.pmuFreeze on) s

/-- Every counter is set to 0. -/
def State.pmuClear (s : State) : State :=
  (List.range 32).foldl (fun (s : State) c => (s.put (F.PMU_CNT_VALUE c) 0).pmuFromNow c) s

def execPmuClear (dt : Nat) (who : Requester) (s : State) : Res := regCmd dt who O.PMU_CTRL State.pmuClear s

/-- Whether a counter may wrap now: enabled and running, at its last value, or with cycles enough to pass it (R521). -/
def State.pmuMayWrap (s : State) (c : Nat) : Bool :=
  s.on (F.PMU_CNT_CFG_EN c) && !s.on F.PMU_CTRL_FREEZE
    && decide (2 ^ 48 - 1 ≤ s.get (F.PMU_CNT_VALUE c) + if s.pmuTicks c then s.pmuElapsed c s.now else 0)

def execPmuCounterWrap (dt : Nat) (c : Fin 32) (s : State) : Res :=
  evCmd dt (fun s => s.pmuMayWrap c) (fun s => (s.pmuFromNow c).pmuWrap c) s

/-- Software has written a counter's value: a wrap in the same PIX cycle counts for nothing (R525). An older overflow that is not cleared
goes with it (DESIGN CHOICE, assumption 118). -/
def State.unwrap (s : State) (c : Nat) : State :=
  if s.presented.any fun p => p.1 == 1088 + c && Domain.pix.cycleOf p.2 == Domain.pix.cycleOf s.now then
    (s.withdrawEvent (1088 + c)).put F.PMU_OVF (s.get F.PMU_OVF ^^^ (s.get F.PMU_OVF &&& 2 ^ c))
  else s

/-- Whether a selection names an event. -/
def pmuNames (unit inst event : Nat) : Bool :=
  if 0x80 ≤ event then decide (event < 0xC0) && implemented (unit * 64 + (event - 0x80))
  else decide (inst < (pmuCodes unit).1) && decide (event < (pmuCodes unit).2)

/-- A counter's configuration is written: a selection that names no event is logged at its enable (R520). -/
def State.pmuCfg (s : State) (c v : Nat) : State :=
  let rises := bit v 0 && !s.on (F.PMU_CNT_CFG_EN c)
  let s := ((s.pmuCount c s.now).setWord (O.PMU_CNT_CFG c) (v &&& 0xFFFF1F01)).pmuFromNow c
  if rises && !pmuNames (bits v 12 8) (bits v 23 16) (bits v 31 24) then s.logErr (sitePmu 0) 0x01 0x001 [c] else s

/-! ### Bandwidth windows (R524) -/

/-- WINDOW in Tempo units. -/
def State.bwWindow (s : State) : Nat := max 1000 (s.get F.PMU_BW_WINDOW) * 4

def State.bwDue (s : State) : Bool := s.on F.PMU_BW_CFG_EN && decide (s.pmu.winAt + s.bwWindow ≤ s.now)

/-- Bandwidth measurement is enabled: the first window starts. -/
def State.bwStart (s : State) : State := { s with pmu := { s.pmu with bytes := [], winAt := s.now } }

/-- A window ends: the counts go into the results, and the next window starts. -/
def State.bwEnd (s : State) : State :=
  let n := fun (slot : Nat) => Sparse.get (fun _ => 0) s.pmu.bytes slot
  let s := (List.range 28).foldl (fun (s : State) p =>
    (s.put (F.PMU_BWM_RD p) (n (2 * p))).put (F.PMU_BWM_WR p) (n (2 * p + 1))) s
  let s := (List.range 53).foldl (fun (s : State) p =>
    (s.put (F.PMU_BWF_TX p) (n (64 + 2 * p))).put (F.PMU_BWF_RX p) (n (65 + 2 * p))) s
  ({ s with pmu := { s.pmu with bytes := [], winAt := s.pmu.winAt + s.bwWindow } }.bump F.PMU_BW_SEQ).raise (1088 + 32)

def execBandwidthWindowEnd (dt : Nat) (s : State) : Res := evCmd dt State.bwDue State.bwEnd s

end Sys2Proof.Machine
end

