-- ==== Sys2Proof/Machine/Task.lean ====
section
/-! DEFINITION. Task inputs (13 R347, R356): what a trigger of each does, and when its consumer is busy. -/

namespace Sys2Proof.Machine

/-- The consumer behind a task input (R347). -/
inductive Consumer
  | engine (e j : Nat)
  | dma (c j : Nat)
  | snapshot (k : Nat)
  | ssi (m : Nat)
  | timer (t : Nat)
  | host (f v : Nat)
  | none
  deriving DecidableEq, Repr

def consumerOf (t : Nat) : Consumer :=
  if t < 1536 then .engine (t / 8) (t % 8)
  else if t < 1600 then .dma ((t - 1536) / 2) (t % 2)
  else if t < 1604 then .snapshot (t - 1600)
  else if t < 1606 then .ssi (t - 1604)
  else if t < 1664 then .none
  else if t < 1696 then .timer (t - 1664)
  else if t < 1856 then .none
  else if t < 2048 then .host ((t - 1856) / 32) ((t - 1856) % 32)
  else .none

/-- Whether a task's consumer is busy with an earlier trigger (R356, R383). -/
def State.taskBusy (s : State) (t : Nat) : Bool :=
  match consumerOf t with
  | .engine e j => bit (s.get (F.ENGINE_EV_PENDING e)) j
  | .dma c j => if j = 0 then s.doorbellBusy c else s.dmaEventBusy c
  | .ssi m => s.on (F.WTU_SSI_STAT_BUSY m)
  | .timer t => s.timerBusy t
  | .host f v => s.msixPending f v || s.msixGoing f v
  | _ => false

/-- Task input `j` of engine `e` fires: its pending bit is set, or a WAIT that ended in this ENG cycle and checks the bit takes it in
s[d] (R337, R343). -/
def State.engTask (s : State) (e j : Nat) : State :=
  match (s.engine e).polled with
  | some (t, d, mask) =>
    if s.thisEng (some t) && bit mask j then s.setS e d (s.sreg e d ||| BitVec.ofNat 64 (2 ^ j))
    else s.flagBits (F.ENGINE_EV_PENDING e) (2 ^ j)
  | none => s.flagBits (F.ENGINE_EV_PENDING e) (2 ^ j)

/-- What a trigger does that finds its consumer free. -/
def State.taskTrigger (s : State) (t : Nat) : State :=
  match consumerOf t with
  | .engine e j => s.engTask e j
  | .dma c j => if j = 0 then s.doorbell c else s.put (F.DMA_CH_STAT_EV_PEND c) 1
  | .snapshot k => s.capture k
  | .ssi m => s.ssiRequest m
  | .timer t => s.timerTrigger t
  | .host f v => s.msixFire f v
  | .none => s

/-- What an absorbed trigger does at its consumer: the SSI input notes a lost request, the timer an overrun, and a DMA channel
that is HALTED or STOPPING a lost doorbell (R54, R358, R383). -/
def State.taskAbsorbed (s : State) (t : Nat) : State :=
  match consumerOf t with
  | .dma c j => if j = 0 then s.doorbell c else s
  | .ssi m => s.ssiRequest m
  | .timer t => s.flag (F.EVF_TMR_CFG_OVERRUN t)
  | _ => s

end Sys2Proof.Machine
end

