-- ==== Sys2Proof/Machine/Net.lean ====
section
/-! DEFINITION. The network (17 R465–R475): receive and transmit paths, the PTP clock, its stamps, and the mapping between PTP
time and Tempo. -/

namespace Sys2Proof.Machine

/-- NET event `i` (R493). -/
def State.netEvent (s : State) (i : Nat) : State := s.raise (1024 + i)

def State.netPort (s : State) (n : Nat) : NetPort := Sparse.get (fun _ => {}) s.net.port n

def State.setNetPort (s : State) (n : Nat) (v : NetPort) : State :=
  { s with net := { s.net with port := Sparse.set (fun _ => {}) s.net.port n v } }

/-- Whether a port carries frames. -/
def State.netUp (s : State) (n : Nat) : Bool := s.on (F.NET_P_CFG_EN n) && s.on (F.NET_P_STAT_LINK_UP n)

def execEthLinkChange (dt : Nat) (n : Fin 2) (up anDone : Bool) (s : State) : Res :=
  evCmd dt (fun s => s.on (F.NET_P_STAT_LINK_UP n) != up) (fun s =>
    ((s.put (F.NET_P_STAT_LINK_UP n) (b2n up)).put (F.NET_P_STAT_AN_DONE n) (b2n anDone)).netEvent n) s

/-! ### The PTP clock (R471) -/

/-- RATE's unit is 1/16,384 ppb. -/
def ptpUnit : Int := 16384 * 10 ^ 9

/-- PTP time now, in 2^-32 ns. -/
def State.ptpNow (s : State) : Int :=
  s.net.ptp + (Config.ethTime s.now - Config.ethTime s.net.ptpAt) * (ptpUnit + s.getInt F.NET_PTP_RATE) / ptpUnit

/-- The clock is set to a time from now on. -/
def State.setPtp (s : State) (t : Int) : State := { s with net := { s.net with ptp := t, ptpAt := s.now } }

/-- Seconds (48 bits) and nanoseconds of a PTP time in 2^-32 ns. -/
def ptpParts (t : Int) : Nat × Nat :=
  let ns := t / 2 ^ 32
  ((ns / 10 ^ 9 % 2 ^ 48).toNat, (ns % 10 ^ 9).toNat)

/-- Nanoseconds of seconds and nanoseconds. -/
def ptpNs (sec ns : Nat) : Int := (sec * 10 ^ 9 + ns : Nat)

/-- A stamp `lat` ns from now at the ball: accurate to ±2 ns (R471). -/
def State.ptpStamp (s : State) (lat : Int) : (Nat × Nat) × State :=
  let (v, s) := s.draw
  (ptpParts (s.ptpNow + 2 ^ 32 * (lat + (v.toNat % 5 : Nat) - 2)), s)

/-- A write that holdover forbids is discarded and logged (R474). -/
def State.holdoverWrite (s : State) : State := s.logErr (siteNet 0) 0x03 0x003 []

def State.ptpStep (s : State) (v : Nat) : State :=
  if s.on F.NET_PTP_STAT_HOLDOVER then s.holdoverWrite else s.setPtp (s.ptpNow + 2 ^ 32 * signed 64 v)

def execPtpStep (dt : Nat) (who : Requester) (hi : Word) (s : State) : Res :=
  highCmd dt who O.NET_PTP_STEP hi (fun v s => s.ptpStep v) s

def State.ptpRate (s : State) (v : Nat) : State :=
  if s.on F.NET_PTP_STAT_HOLDOVER then s.holdoverWrite else (s.setPtp s.ptpNow).put F.NET_PTP_RATE v

def execPtpRateWrite (dt : Nat) (who : Requester) (v : Word) (s : State) : Res :=
  regCmd dt who O.NET_PTP_RATE (fun s => s.ptpRate v.toNat) s

/-! ### Holdover (R474) -/

/-- A cause of holdover: holdover begins, unless it stands. -/
def State.holdover (s : State) : State :=
  let s := { s with net := { s.net with causeAt := some s.now } }
  if s.on F.NET_PTP_STAT_HOLDOVER then s
  else
    let s := (s.put F.NET_PTP_STAT_HOLDOVER 1).put F.NET_PTP_MAP_STAT_HOLDOVER 1
    { s with net := { s.net with masterWritten := false } }.netEvent 4

def State.syncLost (s : State) : Bool :=
  s.on F.NET_PTP_CTRL_MASTER_EN && !s.on F.NET_PTP_STAT_HOLDOVER
    && decide (s.net.syncAt + s.get F.NET_PTP_LOSS * 4000 ≤ s.now)

def execSyncLossTimeout (dt : Nat) (s : State) : Res := evCmd dt State.syncLost State.holdover s

/-- Whether a cause of holdover falls in this ETH cycle. -/
def State.holdoverCaused (s : State) : Bool :=
  s.net.causeAt.any fun t => Domain.eth.cycleOf t == Domain.eth.cycleOf s.now

/-- HOLDOVER is written 1: holdover ends where the host has written the master's identity, but not in the cycle of a cause (R491). -/
def State.holdoverClear (s : State) : State :=
  if s.on F.NET_PTP_STAT_HOLDOVER && s.net.masterWritten && !s.holdoverCaused then
    let s := (s.put F.NET_PTP_STAT_HOLDOVER 0).put F.NET_PTP_MAP_STAT_HOLDOVER 0
    { s with net := { s.net with syncAt := s.now } }.netEvent 5
  else s

def execHoldoverClear (dt : Nat) (who : Requester) (s : State) : Res :=
  regCmd dt who O.NET_PTP_STAT State.holdoverClear s

/-! ### The mapping (R475) -/

def State.mapPeriod (s : State) : Nat := max 1 (s.get F.NET_PTP_MAP_CFG_PERIOD) * 4000

def State.mapDue (s : State) : Bool := decide (s.net.mapAt + s.mapPeriod ≤ s.now)

/-- RATE against the pair 2^AVG_LOG2 periods before; with no such pair yet the manual gives none. -/
def State.mapRate (s : State) (p : Int) (t : Nat) : Nat × State :=
  match s.net.pairs[2 ^ min 10 (s.get F.NET_PTP_MAP_CFG_AVG_LOG2) - 1]? with
  | some o => (unsigned 64 (2 ^ 16 * (p - o.ptp) / ((t - o.tempo : Nat) : Int)), s)
  | none =>
    let (v, s) := s.draw
    (v.toNat, s)

/-- A pair is taken and published. -/
def State.mapPair (s : State) : State :=
  let p := s.ptpNow
  let (rate, s) := s.mapRate p s.now
  { s with net := { s.net with
      pairs := (MapPair.mk p s.now rate :: s.net.pairs).take 1025, mapAt := s.now } }.netEvent 24

def execMapPair (dt : Nat) (s : State) : Res := evCmd dt State.mapDue State.mapPair s

/-- SNAP latches the pair and RATE for its reader (R496). -/
def State.mapSnap (s : State) (who : Requester) : State :=
  { s with net := { s.net with
      snaps := Sparse.set (fun _ => {}) s.net.snaps (reqCode who) (s.net.pairs.headD ({} : MapPair)) } }

def execMapSnap (dt : Nat) (who : Requester) (s : State) : Res :=
  regCmd dt who O.NET_PTP_MAP_STAT (fun s => s.mapSnap who) s

/-- The reader's latch of the mapping. -/
def State.mapLatch (s : State) (who : Requester) : MapPair := Sparse.get (fun _ => {}) s.net.snaps (reqCode who)

/-! ### Frames -/

/-- The number that bytes `[o, o + n)` of a frame make, most significant first. -/
def beNat (bs : List Byte) (o n : Nat) : Nat := ((bs.drop o).take n).foldl (fun a b => 256 * a + b.toNat) 0

/-- `n` bytes of a number, most significant first. -/
def beBytes (n v : Nat) : List Byte := (toBytes n v).reverse

/-- Bytes put in place of those at `o`. -/
def patch (bs : List Byte) (o : Nat) (new : List Byte) : List Byte := bs.take o ++ new ++ bs.drop (o + new.length)

/-- Whether a frame carries a VLAN tag, and where its payload begins. -/
def vlanTagged (bs : List Byte) : Bool := beNat bs 12 2 == 0x8100
def bodyAt (bs : List Byte) : Nat := if vlanTagged bs then 18 else 14
def etherType (bs : List Byte) : Nat := beNat bs (bodyAt bs - 2) 2

/-- Where the UDP header of a frame over IPv4 or IPv6 begins, with where its pseudo header's addresses lie and their length. -/
def udpAt (bs : List Byte) : Option (Nat × Nat × Nat) :=
  let b := bodyAt bs
  if etherType bs = 0x0800 && beNat bs (b + 9) 1 = 17 then some (b + 4 * (beNat bs b 1 % 16), b + 12, 8)
  else if etherType bs = 0x86DD && beNat bs (b + 6) 1 = 17 then some (b + 40, b + 8, 32)
  else none

/-- Where the PTP message of a frame begins (R466). -/
def ptpMsgAt (bs : List Byte) : Option Nat :=
  if etherType bs = 0x88F7 then some (bodyAt bs)
  else match udpAt bs with
    | some (u, _, _) => if beNat bs (u + 2) 2 = 319 || beNat bs (u + 2) 2 = 320 then some (u + 8) else none
    | none => none

/-- The ones' complement sum of 16-bit words. -/
def onesSum : List Byte → Nat
  | [] => 0
  | [a] => a.toNat * 256
  | a :: b :: l => a.toNat * 256 + b.toNat + onesSum l

/-- A ones' complement checksum of a sum. -/
def foldSum (n : Nat) : Nat :=
  let n := n % 65536 + n / 65536
  let n := n % 65536 + n / 65536
  0xFFFF - (n % 65536 + n / 65536)

/-- A frame with its UDP checksum computed anew (R473). -/
def fixUdp (bs : List Byte) : List Byte :=
  match udpAt bs with
  | some (u, a, n) =>
    let len := beNat bs (u + 4) 2
    let bs := patch bs (u + 6) [0, 0]
    let sum := onesSum ((bs.drop a).take n) + 17 + len + onesSum ((bs.drop u).take len)
    let c := foldSum sum
    patch bs (u + 6) (beBytes 2 (if c = 0 then 0xFFFF else c))
  | none => bs

/-! ### Receiving (R465–R468) -/

/-- Whether a frame's destination passes the filter (R466). -/
def State.netAccepts (s : State) (n : Nat) (bs : List Byte) : Bool :=
  let d := beNat bs 0 6
  d == 0xFFFFFFFFFFFF || d == s.get (F.NET_P_MAC_ADDR n)
    || (List.range 8).any fun i =>
      let m := s.get (F.NET_P_MCAST n i)
      bit m 63 && m % 2 ^ 48 == d

/-- A MAC control frame that asks for a pause (R465). -/
def isPause (bs : List Byte) : Bool := beNat bs 12 2 == 0x8808 && beNat bs 14 2 == 1

/-- The bytes of a host ring entry or of a descriptor's status go to memory, device or host (R366); to the host only while PF4 is
enabled as a bus master. -/
def State.netWrite (s : State) (a : Nat) (bs : List Byte) : State :=
  if !bit a 63 then (s.memWrite 14 a bs).2
  else if s.bmeOf 4 then s.emit (.hostWrite 4 false (a % 2 ^ 63) bs)
  else s

/-- A frame goes to the host ring (R468). -/
def State.hostRing (s : State) (n : Nat) (bs : List Byte) (ptp : Bool) : State :=
  let size := 2 ^ s.get (F.NET_P_RX_CFG_RX_SIZE_LOG2 n)
  let prod := s.get (F.NET_P_RX_PROD n)
  if 2016 < bs.length then s.bump (F.NET_P_RX_LONG n)
  else if !s.on (F.NET_P_RX_CFG_EN n) then s
  else if size ≤ (prod + 2 ^ 32 - s.get (F.NET_P_RX_CONS n)) % 2 ^ 32 then (s.bump (F.NET_P_RX_LOST n)).netEvent 27
  else
    let (st, s) := s.ptpStamp (-(s.get (F.NET_P_LAT_RX_LAT n) : Int))
    let (v, s) := s.draw
    let open_ := v.toNat
    let st := if ptp then st else (open_ / 2 ^ 16 % 2 ^ 48, open_ % 2 ^ 32)
    let header := toBytes 2 bs.length ++ toBytes 1 n ++ toBytes 1 (b2n ptp + 2 * b2n (vlanTagged bs)) ++ toBytes 4 open_
      ++ toBytes 6 st.1 ++ toBytes 2 open_ ++ toBytes 4 st.2 ++ toBytes 4 open_ ++ toBytes 8 (s.tempoCopy .eth)
    (s.netWrite (s.get (F.NET_P_RX_BASE n) + prod % size * 2048) (header ++ bs)).bump (F.NET_P_RX_PROD n)

/-- A PTP message in the domain is checked against the master (R474). -/
def State.checkMaster (s : State) (bs : List Byte) (m : Nat) : State :=
  let kind := beNat bs m 1 % 16
  let same := beNat bs (m + 20) 8 == s.get F.NET_PTP_MASTER_ID && beNat bs (m + 28) 2 == s.get F.NET_PTP_MASTER_PORT
  if !s.on F.NET_PTP_CTRL_MASTER_EN then s
  else if same then (if kind = 0 then { s with net := { s.net with syncAt := s.now } } else s)
  else if kind = 0 || kind = 11 then s.holdover
  else s

/-- The tile path's record in progress is lost (R467). -/
def State.tileLost (s : State) (n : Nat) : State :=
  let p := s.netPort n
  let s := s.setNetPort n { p with at_ := p.start.getD p.at_, start := none }
  ((s.bump (F.NET_P_TILE_LOST n)).logErr (siteNet n) 0x02 0x010).netEvent 26

/-- Record data is appended to the port's ring, block by block. -/
def State.tileAppend (s : State) (r at_ : Nat) (bs : List Byte) : State :=
  (List.range (bs.length / 64)).foldl (fun (s : State) i =>
    (s.memWrite 14 (s.ringAddr r (at_ + 64 * i)) ((bs.drop (64 * i)).take 64)).2) s

/-- A tile frame whose SEQ is expected and whose length is good is taken. -/
def State.tileTake (s : State) (n : Nat) (first last : Bool) (data : List Byte) : State :=
  let p := s.netPort n
  if first || p.start.isSome then
    let r := s.get (F.NET_P_CFG_TILE_RING n)
    let s := s.tileAppend r p.at_ data
    let w := p.at_ + data.length
    let s := s.setNetPort n { p with at_ := w, start := if last then none else some (if first then p.at_ else p.start.getD p.at_) }
    if last then s.setProd r w else s
  else s

/-- A tile frame (R467). -/
def State.tileFrame (s : State) (n : Nat) (body : List Byte) : State :=
  let flags := beNat body 1 1
  let seq := ofBytes ((body.drop 2).take 2)
  let data := body.drop 8
  let gap := seq != s.get (F.NET_P_TILE_SEQ n)
  let s := s.put (F.NET_P_TILE_SEQ n) (seq + 1)
  let s := if gap || data.length % 64 != 0 then s.tileLost n else s
  if data.length % 64 = 0 then s.tileTake n (bit flags 0) (bit flags 1) data else s

/-- A frame with a good FCS that passes the filter is sorted (R466). A heartbeat goes to the TWN, as HEARTBEAT_RECEIVE. -/
def State.netSort (s : State) (n : Nat) (bs : List Byte) : State :=
  let body := bs.drop (bodyAt bs)
  match ptpMsgAt bs with
  | some m =>
    if beNat bs (m + 4) 1 = s.get F.NET_PTP_CTRL_DOMAIN then (s.checkMaster bs m).hostRing n bs true
    else s.hostRing n bs false
  | none =>
    if etherType bs = 0x88B5 && beNat body 0 1 = 1 then s.tileFrame n body
    else if etherType bs = 0x88B5 && beNat body 0 1 = 2 then s
    else s.hostRing n bs false

/-- A frame arrives. -/
def State.frameIn (s : State) (n : Nat) (fcsOk : Bool) (bs : List Byte) : State :=
  if !fcsOk then s.bump (F.NET_P_FCS_ERRS n)
  else if isPause bs then s.bump (F.NET_P_PAUSE_RX n)
  else if s.netAccepts n bs then s.netSort n bs
  else s

def execEthFrameReceive (dt : Nat) (n : Fin 2) (fcsOk : Bool) (bytes : Bytes) (s : State) : Res :=
  evCmd dt (fun s => s.netUp n && !s.inFlr 4) (fun s => s.frameIn n fcsOk bytes) s

/-! ### Transmitting (R469, R470) -/

def execTxProdWrite (dt : Nat) (who : Requester) (n : Fin 2) (q : Fin 8) (v : Word) (s : State) : Res :=
  regCmd dt who (O.NET_P_TX_PROD n q) (fun s => s.put (F.NET_P_TX_PROD n q) v.toNat) s

/-- A descriptor (R469). -/
structure TxDesc where
  at_ : Nat
  addr : Nat
  len : Nat
  flags : Nat
  id : Nat
  sec : Nat
  ns : Nat
  deriving DecidableEq, Repr

def parseDesc (a : Nat) (b : List Byte) : TxDesc :=
  let f := fun (o n : Nat) => ofBytes ((b.drop o).take n)
  { at_ := a, addr := f 0 8, len := f 8 2, flags := f 10 2, id := f 12 2, sec := f 16 6, ns := f 22 4 }

/-- Whether a reserved bit or byte of a descriptor's bytes is set. -/
def descReserved (b : List Byte) : Bool :=
  let f := fun (o n : Nat) => ofBytes ((b.drop o).take n)
  decide (16 ≤ f 10 2) || f 14 2 != 0 || f 26 2 != 0

/-- What host memory answers at an address. -/
def hostBytes (host : HostMemory) (a n : Nat) : Option (List Byte) :=
  match host.find? fun p => p.1.toNat == a % 2 ^ 63 with
  | some (_, .data bs) => some ((bs ++ List.replicate n 0).take n)
  | _ => none

/-- Bytes the NET reads, from device memory or from the host (R366). -/
def State.netRead (s : State) (host : HostMemory) (a n : Nat) : Option (List Byte) × State :=
  if !bit a 63 then s.memRead 14 a n
  else if s.bmeOf 4 then (hostBytes host a n, s.emit (.hostRead 4 false (a % 2 ^ 63) n))
  else (none, s)

/-- Where the head descriptor of a queue lies, if the queue has one. -/
def State.txHeadAt (s : State) (n q : Nat) : Option Nat :=
  let cons := s.get (F.NET_P_TX_CONS n q)
  if s.on (F.NET_P_TX_CFG_EN n q) && s.get (F.NET_P_TX_PROD n q) != cons then
    some (s.get (F.NET_P_TX_BASE n q) + 32 * (cons % 2 ^ s.get (F.NET_P_TX_CFG_TX_SIZE_LOG2 n q)))
  else none

/-- The bytes of a descriptor as they stand, without a read's side effects. -/
def State.txPeek (s : State) (host : HostMemory) (a : Nat) : Option (List Byte) :=
  if bit a 63 then (if s.bmeOf 4 then hostBytes host a 32 else none) else some (s.peek a 32)

/-- Nanoseconds by which PTP time is past a descriptor's launch time. -/
def State.txPast (s : State) (d : TxDesc) : Int := s.ptpNow / 2 ^ 32 - ptpNs d.sec d.ns

/-- Whether a queue's head is eligible (R470). -/
def State.txEligible (s : State) (host : HostMemory) (n q : Nat) : Bool :=
  match s.txHeadAt n q with
  | none => false
  | some a => match s.txPeek host a with
    | none => false
    | some b => !bit (parseDesc a b).flags 1 || decide (0 ≤ s.txPast (parseDesc a b))

/-- The time of a byte on a port's lane, in 2^-32 ns: 1, 10 or 25 Gb/s by MODE (R465). -/
def State.ethByte (s : State) (n : Nat) : Int :=
  match s.get (F.NET_P_CFG_MODE n) with
  | 0 => 8 * 2 ^ 32
  | 2 => 32 * 2 ^ 32 / 100
  | _ => 8 * 2 ^ 32 / 10

/-- Whether a port's lane is still at a frame (R470). -/
def State.ethSending (s : State) (n : Nat) : Bool :=
  (s.netPort n).sending.any fun t => decide (Config.ethTime s.now < t)

/-- A frame goes out on a port, and with its FCS keeps the lane for its length. -/
def State.ethOut (s : State) (n : Nat) (bs : List Byte) : State :=
  let free := Config.ethTime s.now + s.ethByte n * ((bs.length + 4 : Nat) : Int)
  (s.setNetPort n { s.netPort n with sending := some free }).emit (.eth n bs)

/-- Whether a queue's head is the one to go: eligible, no frame in progress, and no higher-numbered queue's is. -/
def State.txNext (s : State) (host : HostMemory) (n q : Nat) : Bool :=
  s.netUp n && !s.inFlr 4 && !s.ethSending n && s.txEligible host n q
    && (List.range 8).all fun r => r ≤ q || !s.txEligible host n r

/-- A descriptor completes (R469): STATUS is written, then CONS advances, and its event is raised. -/
def State.txDone (s : State) (n q : Nat) (d : TxDesc) (status : Nat) : State :=
  let s := (s.netWrite (d.at_ + 28) (toBytes 4 (1 + status))).bump (F.NET_P_TX_CONS n q)
  if bit d.flags 3 then s.netEvent (8 + 8 * n + q) else s

/-- A stamp joins the stamp queue, or is dropped where 64 are held (R472). -/
def State.txStamp (s : State) (st : TxStamp) : State :=
  if 64 ≤ s.net.tsq.length then
    let s := ((s.flag F.NET_PTP_STAT_TSQ_OVERFLOW).bump F.NET_PTP_TSQ_LOST).netEvent 3
    let s := s.logErr (siteNet 0) 0x06 0x030
    if s.on F.NET_PTP_CTRL_AUTO_RECOVER then s.put F.NET_PTP_CTRL_MODE 3 else s
  else
    let empty := s.net.tsq = []
    let s := { s with net := { s.net with tsq := s.net.tsq ++ [st] } }.put F.NET_PTP_STAT_TSQ_FILL (s.net.tsq.length + 1)
    if empty then s.netEvent 2 else s

/-- The one-step insertion of a departing frame (R473), if it has one. -/
def oneStep (bs : List Byte) (d : TxDesc) (sec ns : Nat) : Option (List Byte) :=
  match ptpMsgAt bs with
  | none => none
  | some m =>
    let kind := beNat bs m 1 % 16
    if kind = 0 then
      let flag := beNat bs (m + 6) 1
      some (fixUdp (patch (patch bs (m + 34) (beBytes 6 sec ++ beBytes 4 ns)) (m + 6)
        (beBytes 1 (if bit flag 1 then flag - 2 else flag))))
    else if kind = 3 && bit d.flags 2 then
      let c := signed 64 (beNat bs (m + 8) 8) + 2 ^ 16 * (ptpNs sec ns - ptpNs d.sec d.ns)
      some (fixUdp (patch bs (m + 8) (beBytes 8 (unsigned 64 c))))
    else none

/-- A frame leaves (R471–R473): stamped at its timestamp point where it asks for one. -/
def State.txSend (s : State) (n q : Nat) (d : TxDesc) (bs : List Byte) (status : Nat) : State :=
  if bit d.flags 0 then
    let (st, s) := s.ptpStamp (s.get (F.NET_P_LAT_TX_LAT n))
    match if s.get F.NET_PTP_CTRL_MODE = 1 then none else oneStep bs d st.1 st.2 with
    | some bs => (s.ethOut n bs).txDone n q d status
    | none => ((s.ethOut n bs).txStamp { id := d.id, port := n, queue := q, sec := st.1, ns := st.2 }).txDone n q d status
  else (s.ethOut n bs).txDone n q d status

/-- A descriptor is carried out (R469, R470). -/
def State.txRun (s : State) (host : HostMemory) (n q : Nat) (d : TxDesc) (reserved : Bool) : State :=
  if reserved || (bit d.flags 1 && bit d.flags 2) || d.len < 60 || 9596 < d.len || d.addr % 64 ≠ 0 then
    (s.logErr (siteNet n) 0x01 0x001).txDone n q d 8
  else
    let late := bit d.flags 1 && decide ((s.get (F.NET_P_LATE_LIMIT n) : Int) < s.txPast d)
    let s := if late then s.netEvent 25 else s
    if late && s.on (F.NET_P_CFG_LATE_DROP n) then s.txDone n q d 4
    else match s.netRead host d.addr d.len with
      | (some bs, s) => s.txSend n q d bs (2 * b2n late)
      | (none, s) => s.txDone n q d 8

/-- The head descriptor of a queue is taken. -/
def State.txTake (s : State) (host : HostMemory) (n q : Nat) : State :=
  match s.txHeadAt n q with
  | none => s
  | some a => match s.netRead host a 32 with
    | (some b, s) => s.txRun host n q (parseDesc a b) (descReserved b)
    | (none, s) => s

def execFrameTransmit (dt : Nat) (n : Fin 2) (q : Fin 8) (host : HostMemory) (s : State) : Res :=
  evCmd dt (fun s => s.txNext host n q) (fun s => s.txTake host n q) s

/-! ### The stamp queue (R472) -/

/-- The words of a stamp as NET_TSQ shows them. -/
def TxStamp.words (t : TxStamp) : List Nat :=
  [t.id + 2 ^ 16 * t.port + 2 ^ 17 * t.queue + 2 ^ 31, t.sec % 2 ^ 32, t.sec / 2 ^ 32, t.ns]

/-- The oldest stamp is taken into the reader's latch. -/
def State.tsqTake (s : State) (who : Requester) : State :=
  let ws := ((s.net.tsq.head?).map TxStamp.words).getD [0, 0, 0, 0]
  let s := { s with net := { s.net with
    tsq := s.net.tsq.drop 1, tsqLatch := Sparse.set (fun _ => []) s.net.tsqLatch (reqCode who) ws } }
  (s.put F.NET_PTP_STAT_TSQ_FILL s.net.tsq.length).emit (.readData who (O.NET_PTP_TSQ 0) (ws.headD 0))

/-- Word `i` of the reader's latch. -/
def State.tsqWord (s : State) (who : Requester) (i : Nat) : Nat :=
  (Sparse.get (fun _ => []) s.net.tsqLatch (reqCode who)).getD i 0

def execTsqTake (dt : Nat) (who : Requester) (s : State) : Res :=
  readCmd dt who (O.NET_PTP_TSQ 0) (fun s => s.tsqTake who) s

end Sys2Proof.Machine
end

