-- ==== Sys2Proof/Machine/Twn.lean ====
section
/-! DEFINITION. Twin pairing (17 R476–R490): pairing, heartbeats, replication, signatures and castling. -/

namespace Sys2Proof.Machine

/-- TWN event `i` (R493). -/
def State.twnEvent (s : State) (i : Nat) : State := s.raise (1216 + i)

/-- Whether the device is paired: heartbeats run (R480). -/
def State.paired (s : State) : Bool := s.twnState != twSolo && s.twnState != twPairing

/-! ### Pairing (R476, R478, R479) -/

def execTwnEnable (dt : Nat) (who : Requester) (s : State) : Res :=
  regCmd dt who O.TWN_CTRL (fun s => (s.put F.TWN_CTRL_EN 1).pairStart) s

/-- EN = 0 returns the TWN to SOLO and ends what it had under way. -/
def State.twnOff (s : State) : State :=
  let s := { s.put F.TWN_CTRL_EN 0 with twn := { seq := s.twn.seq } }
  if s.twnState = twSolo then s else s.setTwnState twSolo

def execTwnDisable (dt : Nat) (who : Requester) (s : State) : Res := regCmd dt who O.TWN_CTRL State.twnOff s

/-- Whether the standby may take the active twin's WCO or keep its own (R479). -/
def State.wcoAgrees (s : State) (r : Pairing) : Bool :=
  (s.motion s.src == stStill && r.still)
    || (s.on F.TWN_CTRL_KEEP_WCO && decide (((s.wco : Int) - r.wco.toNat).natAbs ≤ s.get F.TWN_WCO_LIMIT))

/-- Whether pairing succeeds: authentication, owner binding, opposite roles, and the standby's check of WCO. -/
def State.pairOk (s : State) (r : Pairing) : Bool :=
  r.auth && (!s.on F.TWN_CTRL_OWNER_BIND || r.ownerSame) && s.on F.TWN_CTRL_ROLE != r.standby
    && (if s.on F.TWN_CTRL_ROLE then s.wcoAgrees r else r.accepts)

/-- Pairing ends, once this twin has sent its signature and its ECDH share (R478). -/
def State.pairEnd (s : State) (r : Pairing) : State :=
  let s := (s.pairPart).pairPart
  if s.pairOk r then
    let s := (s.put (F.TWN_PARTNER_SERIAL 0) (r.serial.toNat % 2 ^ 32)).put (F.TWN_PARTNER_SERIAL 1) (r.serial.toNat / 2 ^ 32)
    let s := { s with twn := { seq := s.twn.seq, linkAt := s.now, ethAt := s.now, sentLink := s.now, sentEth := s.now } }
    if s.on F.TWN_CTRL_ROLE then
      (if s.motion s.src = stStill && r.still then s.wcoSet r.wco.toNat else s).setTwnState twStandby
    else s.setTwnState twActive
  else s.pairFail

def execPairingEnd (dt : Nat) (r : Pairing) (s : State) : Res :=
  evCmd dt (fun s => s.twnState == twPairing) (fun s => s.pairEnd r) s

/-! ### Heartbeats (R480) -/

/-- Whether a heartbeat is due on a path. -/
def State.heartbeatDue (s : State) (eth : Bool) : Bool :=
  s.paired && (if eth then decide (s.twn.sentEth + s.get F.TWN_HB_HB_ETH_PERIOD * micro ≤ s.now)
    else decide (s.twn.sentLink + s.get F.TWN_HB_HB_PERIOD * micro ≤ s.now))

/-- The last committed line of a pipe; the manual gives a disabled pipe none. -/
def State.lastLine (s : State) (n : Nat) : DWord × State :=
  match (s.gen (s.pipeGen n)).lastK with
  | some k => if s.pipeState n = rpDisabled then s.draw else (BitVec.ofNat 64 k, s)
  | none => s.draw

/-- The words of a heartbeat before its tag (R490). -/
def State.heartbeatWords (s : State) : List DWord × State :=
  let head := [BitVec.ofNat 64 (s.twnState + 2 ^ 32 * s.get F.TWN_EPOCH), BitVec.ofNat 64 s.twn.seq.toNat,
    BitVec.ofNat 64 (s.get F.WTU_LATCH_WCO), BitVec.ofNat 64 s.wtu.latchT, BitVec.ofInt 64 s.wtu.latchV]
  (List.range 8).foldl (fun (a : List DWord × State) n =>
    let (k, s) := a.2.lastLine n
    (a.1 ++ [k], s)) (head, s)

/-- A heartbeat is sent. On Ethernet it is skipped while PF4 is reset or the port is down (R491). -/
def State.heartbeat (s : State) (eth : Bool) : State :=
  let (ws, s) := s.heartbeatWords
  let s := { s with twn := { s.twn with
    seq := s.twn.seq + 1, sentLink := if eth then s.twn.sentLink else s.now, sentEth := if eth then s.now else s.twn.sentEth } }
  if eth then
    let p := s.get F.TWN_CTRL_ETH_PORT
    if s.netUp p && !s.inFlr 4 then
      s.emit (.heartbeat p (s.get F.TWN_PARTNER_MAC) (ws ++ [Config.twinTag ws 0, Config.twinTag ws 1]))
    else s
  else s.twinTagged 0x01 ws

def execHeartbeatSend (dt : Nat) (eth : Bool) (s : State) : Res :=
  evCmd dt (fun s => s.heartbeatDue eth) (fun s => s.heartbeat eth) s

/-- The partner's latch pair against this device's WCO at the same Tempo (R479). -/
def State.wcoCompare (s : State) (hb : Heartbeat) : State :=
  let t := (hb.latchT.toNat + 2 ^ 64 - s.get F.TWN_TEMPO_OFFSET) % 2 ^ 64
  let own := s.extrap t / 2 ^ 16
  if s.get F.TWN_WCO_LIMIT < ((hb.latchW.toNat : Int) - own).natAbs then
    ((s.flag F.TWN_STAT_WCO_MISMATCH).twnEvent 6).logErr siteTwn 0x03 0x020 []
  else s

/-- A message whose tag fails is discarded and logged (R478). -/
def State.tagFailed (s : State) : State := s.logErr siteTwn 0x05 0x041 []

/-- A valid heartbeat arrives. -/
def State.heartbeatIn (s : State) (eth : Bool) (hb : Heartbeat) : State :=
  let lines := (List.range 8).foldl (fun m n => match hb.lines.getD n none with
    | some k => Sparse.set (fun _ => 0) m n k.toNat
    | none => m) s.twn.lines
  let s := { s with twn := { s.twn with
    lost := false, lines := lines, linkAt := if eth then s.twn.linkAt else s.now, ethAt := if eth then s.now else s.twn.ethAt,
    linkGone := s.twn.linkGone && eth, ethGone := s.twn.ethGone && !eth } }
  let s := s.wcoCompare hb
  if s.twnState = twActive && hb.role.toNat = twActive && 0 < (hb.epoch - BitVec.ofNat 32 (s.get F.TWN_EPOCH)).toInt then s.depose
  else s

def execHeartbeatReceive (dt : Nat) (eth tagOk : Bool) (hb : Heartbeat) (s : State) : Res :=
  evCmd dt State.paired (fun s => if tagOk then s.heartbeatIn eth hb else s.tagFailed) s

/-- HB_LOSS in Tempo units. -/
def State.hbLoss (s : State) : Nat := s.get F.TWN_HB_LOSS * micro

/-- Whether HB_LOSS has run out since a heartbeat: in an earlier TMP cycle, for one that arrives in the cycle of the expiry is taken (R491). -/
def State.hbExpired (s : State) (at_ : Nat) : Bool := decide (Domain.tmp.cycleOf (at_ + s.hbLoss) < Domain.tmp.cycleOf s.now)

/-- Whether a path has gone quiet while the other has not. -/
def State.pathQuiet (s : State) (eth : Bool) : Bool :=
  let link := s.hbExpired s.twn.linkAt
  let net := s.hbExpired s.twn.ethAt
  s.paired && (if eth then net && !link && !s.twn.ethGone else link && !net && !s.twn.linkGone)

/-- One heartbeat path alone is lost. -/
def State.pathLost (s : State) (eth : Bool) : State :=
  let s := if eth then { s with twn := { s.twn with ethGone := true } }.flag F.TWN_STAT_HB_ETH_LOST
    else { s with twn := { s.twn with linkGone := true } }.flag F.TWN_STAT_HB_LINK_LOST
  (s.twnEvent 2).logErr siteTwn 0x04 0x042

def execHeartbeatPathLost (dt : Nat) (eth : Bool) (s : State) : Res :=
  evCmd dt (fun s => s.pathQuiet eth) (fun s => s.pathLost eth) s

/-! ### Loss of the partner and forced castling (R480, R488) -/

def State.partnerQuiet (s : State) : Bool :=
  s.paired && !s.twn.lost && s.hbExpired s.twn.linkAt && s.hbExpired s.twn.ethAt

/-- The partner is lost: an active twin goes on alone; a standby starts a forced castling, which ends a
planned one (R491, R494). -/
def State.partnerLost (s : State) : State :=
  let s := { s with twn := { s.twn with lost := true, castle := none } }.twnEvent 1
  if s.twnState = twActive then s.flag F.TWN_STAT_PARTNER_LOST
  else if s.twnState = twStandby then
    let s := ((s.bump F.TWN_EPOCH).setTwnState twCastling).logErr siteTwn 0x03 0x032
    ((List.range 32).filter fun l => s.on (F.FTU_LINK_CFG_EN l) && s.on (F.FTU_LINK_STAT_UP l)).foldl State.claim s
  else s

def execPartnerLost (dt : Nat) (s : State) : Res := evCmd dt State.partnerQuiet State.partnerLost s

/-- The first line of pipe `n` whose commit is still to come. -/
def State.nextCommit (s : State) (n : Nat) : Nat :=
  let l := s.gen (s.pipeGen n)
  min l.nextK (l.launched.headD l.nextK)

/-- The record of a bar's unprinted span (R274, R488), and the position from which the survivor fires it. T_k, job and repeat index
are those of the span's first line as this twin rendered it; for a line it never saw committed T_k is free. -/
def State.takeBar (s : State) (n : Nat) : State :=
  let b := s.activeBank n
  let heads := ((s.bankHeads n b).map (·.1)).eraseDups.filter s.headEn
  if s.pipeState n = rpDisabled || heads = [] then s
  else
    let g := s.pipeGen n
    let first := s.nextCommit n
    let from_ := Sparse.get (fun _ => 0) s.twn.lines n + 1
    let s := { s with twn := { s.twn with fireFrom := Sparse.set (fun _ => 0) s.twn.fireFrom n (s.linePos g first) } }
    if from_ < first then
      let (v, s) := s.draw
      let span := s.headSpan n b heads
      let c := (s.pipe n).commits.reverse.find? fun c => c.k == from_
      let tk := (c.map (·.t)).getD v.toNat
      let tag := (c.map (·.tag)).getD (s.printTag n b from_ heads)
      s.issue rankTwn (s.dpDefect siteTwn (s.get F.DFQ_SEV_RP_DP) n { tag with x0 := span.1, x1 := span.2 } (s.linePos g from_)
        (s.linePos g (first - 1)) tk (errCode 0x13 0x03 0 0x032) heads)
    else s

/-- All claims are acknowledged: the survivor fires, reports the spans and is ACTIVE. -/
def State.castlingDone (s : State) : State :=
  let s := (List.range 8).foldl State.takeBar s
  ((s.flag F.TWN_STAT_PARTNER_LOST).setTwnState twActive).castled

def execCastlingClaimsDone (dt : Nat) (s : State) : Res :=
  evCmd dt (fun s => s.twnState == twCastling) State.castlingDone s

/-! ### Signatures (R483, R484) -/

/-- The standby's signatures that are complete, up to the 16 of a message. -/
def State.sigReady (s : State) : List Sig := (s.twn.sigs.filter s.sigDone).take 16

def State.sigSend (s : State) : State :=
  let ready := s.sigReady
  let s := { s with twn := { s.twn with sigs := s.twn.sigs.filter fun e => !ready.contains e } }
  s.sendTwin 0x02 (ready.flatMap fun e => [BitVec.ofNat 64 (e.head + 2 ^ 32 * e.group), e.mask, e.value])

def execSignatureSend (dt : Nat) (s : State) : Res :=
  evCmd dt (fun s => s.twnState == twStandby && s.sigReady != []) State.sigSend s

/-- Signatures of the standby arrive; those of groups complete here are compared. -/
def State.sigReceive (s : State) (es : List SigEntry) : State :=
  let add := es.map fun e => TheirSig.mk e.head.toNat e.group.toNat e.mask e.crc
  { s with twn := { s.twn with theirs := s.twn.theirs ++ add } }.sigSettle

def execSignatureReceive (dt : Nat) (entries : List SigEntry) (s : State) : Res :=
  evCmd dt (fun s => s.twnState == twActive && !s.twn.lost) (fun s => s.sigReceive entries) s

/-- The oldest own signature whose partner has not come within SIG_WAIT. -/
def State.sigLate (s : State) : Option Sig :=
  s.twn.sigs.find? fun e => s.sigDone e && decide (e.at_ + s.get F.TWN_SIG_WAIT * micro ≤ s.now)

def State.sigMissing (s : State) : State :=
  match s.sigLate with
  | some e => ({ s with twn := { s.twn with sigs := s.twn.sigs.erase e } }.bump F.TWN_SIG_MISSING).twnEvent 7
  | none => s

def execSignatureWaitTimeout (dt : Nat) (s : State) : Res :=
  evCmd dt (fun s => s.twnState == twActive && !s.twn.lost && s.sigLate.isSome) State.sigMissing s

/-! ### Replication (R481, R482) -/

def execNtUpdateReceive (dt : Nat) (entries : List NtEntry) (s : State) : Res :=
  evCmd dt (fun s => s.twnState == twStandby) (fun s =>
    entries.foldl (fun (s : State) e => s.ntSubmit e.idx.val (.masked e.mask e.data)) s) s

/-- The bytes gathered of a ring's next record. -/
def State.ringBuf (s : State) (r : Nat) : List Byte := Sparse.get (fun _ => []) s.twn.ringBuf r

def State.setRingBuf (s : State) (r : Nat) (bs : List Byte) : State :=
  { s with twn := { s.twn with ringBuf := Sparse.set (fun _ => []) s.twn.ringBuf r bs } }

/-- Every record that is complete goes into the ring, and PROD moves past it. -/
def State.mirrorIn (s : State) (r : Nat) : Nat → State
  | 0 => s
  | fuel + 1 =>
    let bs := s.ringBuf r
    let len := (parseRec r 0 bs).len
    if 64 ≤ bs.length && len ≤ bs.length then
      let prod := s.get (F.CMP_RING_PROD r)
      let s := s.tileAppend r prod (bs.take len)
      ((s.setRingBuf r (bs.drop len)).setProd r (prod + len)).mirrorIn r fuel
    else s

def execRingDataReceive (dt : Nat) (r : Fin 4) (bytes : Bytes) (s : State) : Res :=
  evCmd dt (fun s => s.twnState == twStandby) (fun s =>
    let all := s.ringBuf r ++ bytes
    (s.setRingBuf r all).mirrorIn r (all.length / 64 + 1)) s

/-- Words of 64 bits as words of 32. -/
def unpackWords (ws : List DWord) : List Word := ws.flatMap fun (w : DWord) => [w.setWidth 32, (w >>> 32).setWidth 32]

/-- A list cut into pieces of `n`. -/
def chunks {α : Type} (n : Nat) (l : List α) : List (List α) :=
  (List.range (l.length / n)).map fun i => (l.drop (n * i)).take n

def execDefectMessageReceive (dt : Nat) (words : List DWord) (s : State) : Res :=
  evCmd dt (fun s => s.twnState == twActive) (fun s => s.offer rankTwn (chunks 16 (unpackWords words))) s

/-! ### Planned castling (R487) -/

/-- CASTLE is written 1: an ACTIVE twin with none under way sends PLAN. -/
def State.castlePlan (s : State) : State :=
  if s.twnState = twActive && s.twn.castle.isNone && !s.inFlr 5 then
    let w := s.get F.TWN_CASTLE_WCO
    let s := { s with twn := { s.twn with castle := some { wco := w, at_ := s.now } } }
    s.twinTagged 0x07 [0, BitVec.ofNat 64 w]
  else s

def execCastle (dt : Nat) (who : Requester) (s : State) : Res := regCmd dt who O.TWN_CTRL State.castlePlan s

/-- A message of a planned castling. -/
def State.castleMessage (s : State) (m : CastleMsg) : State :=
  match m, s.twn.castle with
  | .plan w, none =>
    if s.twnState = twStandby then
      let s := { s with twn := { s.twn with castle := some { wco := w.toNat, acked := true, at_ := s.now } } }
      s.twinTagged 0x07 [1, w]
    else s
  | .ack, some c =>
    if s.twnState = twActive then { s with twn := { s.twn with castle := some { c with acked := true } } } else s
  | .release x, some c =>
    if s.twnState = twStandby then
      { s with twn := { s.twn with castle := some { c with released := x.val :: c.released } } }.castleSettle
    else s
  | _, _ => s

def execCastleMessageReceive (dt : Nat) (msg : CastleMsg) (tagOk : Bool) (s : State) : Res :=
  evCmd dt State.paired (fun s => if tagOk then s.castleMessage msg else s.tagFailed) s

/-- Whether the ACK of a plan is overdue. -/
def State.castleLate (s : State) : Bool :=
  s.twnState == twActive && match s.twn.castle with
    | some c => !c.acked && decide (c.at_ + 100 * micro ≤ s.now)
    | none => false

def execCastleAckTimeout (dt : Nat) (s : State) : Res :=
  evCmd dt State.castleLate (fun s =>
    { s with twn := { s.twn with castle := none } }.logErr siteTwn 0x03 0x030 []) s

end Sys2Proof.Machine
end

