-- ==== Sys2Proof/Machine/Regs.lean ====
section
/-! DEFINITION. Registers as BAR0 reaches them (00, 01): what a write does to a register's fields by their access types, what
the blocks' own rules accept of it, and what a read returns. The fields with command rows of their own are in Bus.lean. -/

namespace Sys2Proof.Machine

/-! ### Access types (R8) -/

/-- What a field holds after software writes `v` over `old`; `was` is what it held when the cycle began, so that a flag set in
the cycle of its clearing stays. -/
def Access.write (a : Access) (old was v : Nat) : Nat :=
  match a with
  | .rw => v
  | .w1c => old ^^^ (old &&& (v &&& was))
  | .w1s => old ||| v
  | .ownSet => if v = 0 then 0 else old
  | .ro => old
  | .wo => old
  | .rc => old
  | .own => old

/-- What a field of `w` bits holds after a read: a counter that a read clears keeps the events of the running cycle. -/
def Access.read (a : Access) (w old was : Nat) : Nat := if a = .rc then (old + 2 ^ w - was) % 2 ^ w else old

/-- What a read shows of a field: what hardware alone writes reads as it stood before an update of the same cycle. -/
def Access.shown (a : Access) (old was : Nat) : Nat := if a = .wo then 0 else if a = .ro || a = .rc then was else old

/-- A register's value with every field replaced. -/
def RegDesc.mapFields (r : RegDesc) (f : FieldDesc → Nat → Nat) (old : Nat) : Nat :=
  r.fields.foldl (fun n d => setBits n d.hi d.lo (f d (bits n d.hi d.lo))) old

/-- The register after a write of `v`: bits outside its fields are reserved and keep what they hold (R10). -/
def RegDesc.written (r : RegDesc) (old was v : Nat) : Nat :=
  r.mapFields (fun d o => d.acc.write o (bits was d.hi d.lo) (bits v d.hi d.lo)) old

/-- The register after a read. -/
def RegDesc.afterRead (r : RegDesc) (old was : Nat) : Nat :=
  r.mapFields (fun d o => d.acc.read (d.hi - d.lo + 1) o (bits was d.hi d.lo)) old

/-- The bits of a register that no field holds. -/
def RegDesc.reserved (r : RegDesc) (i : Nat) : Bool := r.fields.all fun d => decide (i < d.lo) || decide (d.hi < i)

/-- What a read of a register's word returns of its value: fields as their types show them, reserved bits undefined (R10). -/
def RegDesc.readWord (r : RegDesc) (off old was : Nat) (high : Bool) : Nat :=
  let v := r.mapFields (fun d o => d.acc.shown o (bits was d.hi d.lo)) old
  let base := if high then 32 else 0
  (List.range 32).foldl (fun n i =>
    n + 2 ^ i * b2n (if r.reserved (base + i) then (Config.reservedBits off).getLsbD i else bit v (base + i))) 0

/-- The field that is all of a register. -/
def wholeReg (off : Nat) (wide : Bool) : Fld := ⟨off, if wide then 63 else 31, 0⟩

/-! ### What the blocks accept -/

/-- What becomes of a write that reaches its block: it is discarded, or the register takes a value. -/
inductive Landing
  | drop (s : State)
  | take (v : Nat) (s : State)

/-- SEC: SEC_DOMAIN has writers of its own (R510); the staging window is shut while BUSY (R507). -/
def State.secLanding (s : State) (who : Requester) (base new v : Nat) : Landing :=
  match base with
  | 0x0000001C => .drop (s.domainWrite who v)
  | 0x00001000 => if s.on F.SEC_CMD_STAT_BUSY then .drop s else .take new s
  | _ => .take new s

/-- WTU: START and PITCH only while EN is 0 (R60); the clamp count and the output position are brought up to date before CLAMP or
SCALE change (R50, R51). -/
def State.wtuLanding (s : State) (base : Nat) (is : List Nat) (new : Nat) : Landing :=
  match base, is with
  | 0x00101008, g :: _ | 0x00101010, g :: _ =>
    if s.on (F.WTU_LG_CTRL_EN g) then .drop ((s.flag (F.WTU_LG_CTRL_CFG_ERR g)).logErr (siteWtu 0) 0x01 0x006 [g])
    else .take new s
  | 0x00100034, _ => .take new s.holdOut
  | 0x00100208, _ => .take new s.holdOut
  | _, _ => .take new s

/-- CMP: a bound plane keeps its registers (R71), an enabled one its geometry in range (R67); the descriptor queue is enabled
only with a good BASE and SIZE_LOG2 (R83, R88). -/
def State.cmpLanding (s : State) (base : Nat) (is : List Nat) (old new : Nat) : Landing :=
  match base, is with
  | 0x00200400, p :: _ | 0x0020040C, p :: _ =>
    if s.planeBound p then .drop (s.logErr siteCmp 0x01 0x002 [0, 0, 0, p]) else .take new s
  | 0x00200408, p :: _ =>
    if s.planeBound p then .drop (s.logErr siteCmp 0x01 0x002 [0, 0, 0, p])
    else if s.on (F.CMP_PLANE_GEOM2_EN p) && !geomOk (bits new 3 0) (bits new 7 4) then
      .drop (s.logErr siteCmp 0x01 0x005 [0, 0, 0, p])
    else .take new s
  | 0x00200808, _ =>
    let l := bits new 3 0
    if bit new 8 && !bit old 8 && !(4 ≤ l && s.get F.CMP_DQ_BASE % 64 == 0) then
      .take (setBits new 8 8 0) (s.logErr siteCmp 0x01 0x004 [s.get F.CMP_DQ_CONS])
    else .take new s
  | _, _ => .take new s

/-- Whether the enabled RRU's active bank names bank `b` of pipe `n` (R243). -/
def State.rruNames (s : State) (n b : Nat) : Bool :=
  s.get F.RRU_STAT_STATE != unitDisabled &&
    (List.range 8).any fun c => s.on (F.RRU_BANK_CH_CFG_EN s.rruBank c) && s.refPipe s.rruBank c == n && s.refBank s.rruBank c == b

/-- RP: the active bank of an enabled pipe, and a bank the RRU renders from, are shut (R113, R243); the shadow bank is locked
during a splice (R309); LG only while DISABLED. -/
def State.rpLanding (s : State) (base : Nat) (is : List Nat) (off old new : Nat) : Landing :=
  if 0x00301000 ≤ base && base < 0x00302000 then
    match is with
    | n :: b :: _ =>
      if (s.pipeState n != rpDisabled && s.activeBank n == b) || s.rruNames n b then
        .drop ((s.flag (F.RP_STAT_WR_ACTIVE n)).logErr (siteRp n) 0x01 0x002)
      else if s.stationLocked n && b != s.activeBank n then .drop (s.lockedWrite n off)
      else .take new s
    | _ => .take new s
  else
    match base, is with
    | 0x00300000, n :: _ =>
      if s.pipeState n = rpDisabled then
        .take new (if bits new 12 8 = bits old 12 8 then s else s.setPipe n { s.pipe n with commits := [] })
      else .take (setBits new 12 8 (bits old 12 8)) s
    | _, _ => .take new s

/-- RRU: the active bank is shut while the RRU is enabled (R260), the shadow bank during a splice (R309). -/
def State.rruLanding (s : State) (base : Nat) (is : List Nat) (off new v : Nat) : Landing :=
  if base = 0x00400000 && !bit v 0 && s.get F.IPL_STAT_STATE != unitDisabled then
    .drop ((s.flag F.RRU_STAT_CFG_ERR).logErr siteRru 0x01 0x001)
  else match decide (0x00401000 ≤ base), is with
  | true, b :: _ =>
    if s.get F.RRU_STAT_STATE != unitDisabled && s.rruBank == b then
      .drop ((s.flag F.RRU_STAT_WR_ACTIVE).logErr siteRru 0x01 0x002)
    else if s.stationLocked 8 && b != s.rruBank then .drop (s.lockedWrite 8 off)
    else .take new s
  | _, _ => .take new s

/-- Whether a head's width, interval and watchdog limit obey R164. -/
def strobeOk (width ivl wdg : Nat) : Bool :=
  200 ≤ width && width ≤ 40000 && width + 4800 ≤ ivl && (width * 13 + 799) / 800 + 2 ≤ wdg

/-- A head's configuration is refused (R149, R164). -/
def State.headRefuse (s : State) (x cause : Nat) : State :=
  let s := if cause = 0x001 then s.flag (F.FTU_HEAD_STAT_CFG_ERR x) else s
  s.logErr siteFtu 0x01 cause [x, 0]

/-- FTU: head configuration (R149, R164, R173). -/
def State.ftuLanding (s : State) (base : Nat) (is : List Nat) (old new : Nat) : Landing :=
  match base, is with
  | 0x00502000, x :: _ =>
    if bits new 9 8 = 3 then .drop (s.headRefuse x 0x001)
    else if s.on (F.FTU_LINK_CFG_EN (x / 4)) && bits new 15 1 != bits old 15 1 then .drop (s.headRefuse x 0x003)
    else if strobeOk (s.get (F.FTU_HEAD_STROBE_WIDTH x)) (s.get (F.FTU_HEAD_MIN_IVL x)) (bits new 25 16) then .take new s
    else .drop (s.headRefuse x 0x001)
  | 0x00502004, x :: _ =>
    if strobeOk (bits new 15 0) (s.get (F.FTU_HEAD_MIN_IVL x)) (s.get (F.FTU_HEAD_CFG_WDG_LIMIT x)) then .take new (s.noteTrim x)
    else .drop (s.headRefuse x 0x001)
  | 0x00502008, x :: _ =>
    if strobeOk (s.get (F.FTU_HEAD_STROBE_WIDTH x)) new (s.get (F.FTU_HEAD_CFG_WDG_LIMIT x)) then .take new s
    else .drop (s.headRefuse x 0x001)
  | _, _ => .take new s

/-- DGU: a channel's order, decimation, clock and windows (R175, R177, R201). -/
def State.dguLanding (s : State) (base : Nat) (is : List Nat) (old new : Nat) : Landing :=
  match base, is with
  | 0x00600040, g :: _ =>
    if 5 ≤ bits new 6 0 && bits new 6 0 ≤ 125 then .take new s else .drop (s.logErr siteDgu 0x01 0x001 [4 * g])
  | 0x00600100, c :: _ =>
    let span := (bits new 23 16 + 1) * (16 * s.get (F.DGU_CLK_HDIV (c / 4)))
    let short := decide (s.get (F.DGU_CH_WIN_LEN c) < span) || decide (s.get (F.DGU_CH_BASE_LEN c) < span)
    if bits new 14 12 < 3 || 5 < bits new 14 12 || bits new 23 16 < 3 || (bit new 0 && !bit old 0 && short) then
      .drop (s.logErr siteDgu 0x01 0x001 [c])
    else .take new s
  | _, _ => .take new s

/-- CIN: the line set-up only while DISABLED (R227). -/
def State.cinLanding (s : State) (base : Nat) (is : List Nat) (old new : Nat) : Landing :=
  match is with
  | n :: _ =>
    if s.cinState n = cinDisabled then .take new s
    else match base with
      | 0x0070000C | 0x00700010 | 0x00700018 | 0x00700020 | 0x00700028 => .drop (s.cinErr n 0x01 0x001 (s.camNext n))
      | 0x00700000 => .take (setBits new 12 8 (bits old 12 8)) s
      | _ => .take new s
  | [] => .take new s

/-- IPL: line set-up and slots only while DISABLED (R268), the active bank shut while enabled (R260), the shadow bank during a
splice (R309); a writer's EN has its check after the write. -/
def State.iplLanding (s : State) (base : Nat) (is : List Nat) (off old new : Nat) : Landing :=
  let off? := s.get F.IPL_STAT_STATE == unitDisabled
  match base, is with
  | 0x00800000, _ =>
    let kept := setBits (setBits (setBits new 2 2 (bits old 2 2)) 12 8 (bits old 12 8)) 18 16 (bits old 18 16)
    if off? || kept = new then .take new s else .take kept (s.logErr siteIpl 0x01 0x001)
  | 0x0080000C, _ | 0x00800400, _ | 0x00800404, _ | 0x00800408, _ =>
    if off? then .take new s else .drop (s.logErr siteIpl 0x01 0x001)
  | 0x00800800, b :: _ | 0x00800808, b :: _ | 0x00800810, b :: _ =>
    if !off? && s.iplBank == b then .drop (s.iplActiveWrite 0)
    else if s.stationLocked 8 && b != s.iplBank then .drop (s.lockedWrite 8 off)
    else .take new s
  | 0x00800108, _ => .take (if bit new 8 && !bit old 8 then setBits new 8 8 0 else new) s
  | _, _ => .take new s

/-- DFQ: the staging record is each requester's own (R283); the drain is enabled only with a good BASE and SIZE_LOG2 (R284). -/
def State.dfqLanding (s : State) (who : Requester) (base : Nat) (is : List Nat) (old new v : Nat) : Landing :=
  match base, is with
  | 0x00900200, i :: _ => .drop (s.stageWord (s.dfqReq who) i (BitVec.ofNat 32 v))
  | 0x00900244, _ =>
    let r := s.dfqReq who
    .drop (if bit v 4 then s.setPush r { s.pushOf r with refused := false } else s)
  | 0x00900308, _ =>
    let l := bits new 4 0
    if bit new 8 && !bit old 8 && !(4 ≤ l && l ≤ 16 && s.get F.DFQ_DRAIN_BASE % (64 * 2 ^ l) == 0) then
      .take (setBits new 8 8 0) (s.logErr siteDfq 0x01 0x002 [])
    else .take new s
  | _, _ => .take new s

/-- FAB: every OFFSET is locked during a splice (R309). -/
def State.fabLanding (s : State) (base : Nat) (is : List Nat) (off new : Nat) : Landing :=
  match base, is with
  | 0x00A00100, st :: _ => if s.on F.FAB_STAT_LOCKED then .drop (s.lockedWrite st off) else .take new s
  | _, _ => .take new s

/-- ENG: an engine's registers take writes from those that control it (R512); PC and ARG only while it is at rest (R339). -/
def State.engLanding (s : State) (who : Requester) (base : Nat) (is : List Nat) (off new : Nat) : Landing :=
  match decide (0x00B01000 ≤ base && base < 0x00B04000), is with
  | true, e :: _ =>
    if s.secureEngine e && !s.engMay who e then .drop (s.logErr siteEng 0x05 0x041 [e, off])
    else if (base = 0x00B01008 || base = 0x00B01010) && (s.engState e = egRunning || s.engState e = egWaiting) then
      .drop (s.engRefuse e)
    else .take new s
  | _, _ => .take new s

/-- EVF: the results of commits are each requester's own (R363); a timer's OWNER takes writes with the rights of PF0 (R358). -/
def State.evfLanding (s : State) (who : Requester) (base : Nat) (old new v : Nat) : Landing :=
  match base with
  | 0x00C00004 =>
    let r := reqCode who
    .drop (s.commitClear r v)
  | 0x00C0B000 => .take (if s.holdsPf0 who then new else setBits new 6 4 (bits old 6 4)) s
  | _ => .take new s

/-- DMA: OWNER only while IDLE (R364); PC, the rings and PUB_ADDR only in IDLE or HALTED (R385). -/
def State.dmaLanding (s : State) (base : Nat) (is : List Nat) (new : Nat) : Landing :=
  match base, is with
  | 0x00D00100, c :: _ =>
    if s.dmaState c = dmIdle then .take new s else .drop (s.logErr siteDma 0x01 0x001 [c, s.dmaPc c % 2 ^ 32])
  | 0x00D01010, c :: _ | 0x00D01040, c :: _ | 0x00D01048, c :: _ | 0x00D01050, c :: _ | 0x00D01058, c :: _
  | 0x00D01060, c :: _ | 0x00D01068, c :: _ | 0x00D01070, c :: _ =>
    if s.dmaState c = dmIdle || s.dmaState c = dmHalted then .take new s
    else match if base = 0x00D01050 || base = 0x00D01068 then s.skippedPtr c ((base - 0x00D01050) / 0x18) new else none with
    | some v => .take v s
    | none => .drop (s.logErr siteDma 0x01 0x001 [c, s.dmaPc c % 2 ^ 32])
  | _, _ => .take new s

/-- A write to the active copy of the slot table (R409). -/
def State.slotActiveWrite (s : State) : State :=
  ((s.flag F.MEM_STAT_ACTIVE_WRITE).logErr (siteMem 0) 0x01 0x002).memEvent 17

/-- One entry of copy A (false) or B (true) of the slot table is written: the active copy, and with a swap pending both, are
shut (R409, R410); the inactive one is locked during a splice of station 9 (R309). -/
def State.slotLanding (s : State) (copyB : Bool) (off new : Nat) : Landing :=
  if s.on F.MEM_STAT_SWAP_PEND || s.on F.MEM_STAT_ACTIVE_COPY == copyB then .drop (s.slotActiveWrite)
  else if s.stationLocked 9 then .drop (s.lockedWrite 9 off)
  else .take new s

/-- MEM: ECC_EN and the channel map only before OPEN (R399, R406), and the slot table (R409). -/
def State.memLanding (s : State) (base : Nat) (is : List Nat) (off old new : Nat) : Landing :=
  let shut := s.on F.MEM_CTRL_OPEN
  match base, is with
  | 0x00E08000, _ =>
    if shut && bit new 1 != bit old 1 then .take (setBits new 1 1 (bits old 1 1)) (s.logErr (siteMem 0) 0x01 0x001)
    else .take new s
  | 0x00E08018, _ | 0x00E08020, _ => if shut then .drop (s.logErr (siteMem 0) 0x01 0x001) else .take new s
  | 0x00E09000, _ => s.slotLanding false off new
  | 0x00E09200, _ => s.slotLanding true off new
  | _, _ => .take new s

/-- FVL: ports have their own rules (R428, R433); endpoints 0 and 0x3FF ignore writes, and any other write clears LEARNED. -/
def State.fvlLanding (s : State) (base : Nat) (is : List Nat) (new v : Nat) : Landing :=
  match base, is with
  | 0x00F01000, p :: _ => .drop (s.fvCfg p v)
  | 0x00F04000, a :: _ => if a = 0 || a = 0x3FF then .drop s else .take (setBits new 7 7 0) s
  | _, _ => .take new s

/-- HIF and NET: BAR2_BASE (R455). -/
def State.hifLanding (s : State) (base : Nat) (is : List Nat) (new : Nat) : Landing :=
  match base, is with
  | 0x01400200, f :: _ => .drop (s.bar2BaseWrite f new)
  | _, _ => .take new s

/-- PMU: a counter's selection is checked (R520). -/
def State.pmuLanding (s : State) (base : Nat) (is : List Nat) (new v : Nat) : Landing :=
  match base, is with
  | 0x01500100, c :: _ => .drop (s.pmuCfg c v)
  | _, _ => .take new s

/-- What becomes of a write of `v` to a register that would then hold `new`. -/
def State.landing (s : State) (who : Requester) (r : RegDesc) (is : List Nat) (off old new v : Nat) : Landing :=
  match r.base / 0x100000 with
  | 0 => s.secLanding who r.base new v
  | 1 => s.wtuLanding r.base is new
  | 2 => s.cmpLanding r.base is old new
  | 3 => s.rpLanding r.base is off old new
  | 4 => s.rruLanding r.base is off new v
  | 5 => s.ftuLanding r.base is old new
  | 6 => s.dguLanding r.base is old new
  | 7 => s.cinLanding r.base is old new
  | 8 => s.iplLanding r.base is off old new
  | 9 => s.dfqLanding who r.base is old new v
  | 10 => s.fabLanding r.base is off new
  | 11 => s.engLanding who r.base is off new
  | 12 => s.evfLanding who r.base old new v
  | 13 => s.dmaLanding r.base is new
  | 14 => s.memLanding r.base is off old new
  | 15 => s.fvlLanding r.base is new v
  | 20 => s.hifLanding r.base is new
  | 21 => s.pmuLanding r.base is new v
  | _ => .take new s

/-! ### What follows a write -/

/-- A decoder's configuration has been written (R41, R44, R48). -/
def State.encWritten (s : State) (n old new : Nat) : State :=
  let s :=
    if bits new 23 16 ≤ bits new 6 3 then
      (s.flag (F.WTU_ENC_STAT_CFG_ERR n)).logErr (siteWtu n) 0x01 0x003 [s.get (F.WTU_ENC_RAW n)]
    else s
  if bit old 0 && !bit new 0 then
    let s := if s.motion n = stStill then s else s.toStill n
    if n = s.src then s.logErr (siteWtu 0) 0x01 0x002 [0] else s
  else s

/-- A running channel waits for its restart, from the first write that asks for it on (R180, R181); one that starts, from now on. -/
def State.markRestart (s : State) (c : Nat) (starts : Bool) : State :=
  s.setCic c { s.cic c with restart := if starts then some s.now else (s.cic c).restart.or (some s.now) }

/-- The clock group of a channel has been disabled: its pending windows are unsettled (R187). -/
def State.spoilWindows (s : State) (c : Nat) : State :=
  s.setCic c { s.cic c with windows := (s.cic c).windows.map fun w => { w with spoiled := true } }

def State.clkWritten (s : State) (g old new : Nat) : State :=
  if old = new then s
  else
    let cs := (List.range 4).map (4 * g + ·)
    let s :=
      if bit old 8 && !bit new 8 then (cs.foldl State.spoilWindows s).emit (.sdClock g none)
      else if bit new 8 && (!bit old 8 || bits old 6 0 != bits new 6 0) then s.clockStart g
      else s
    cs.foldl (fun (s : State) c => if s.on (F.DGU_CH_CFG_EN c) then s.markRestart c (!bit old 8) else s) s

def State.chWritten (s : State) (c old new : Nat) : State :=
  let shape := fun (w : Nat) => (bits w 8 4, bits w 14 12, bits w 23 16)
  let s := if bit old 8 = bit new 8 then s else s.emit (.sdGain c (bit new 8))
  if bit new 0 && (!bit old 0 || shape old != shape new) then s.markRestart c (!bit old 0) else s

/-- The lines of a disabled port are numbered anew in strips (R213). -/
def State.cinRecount (s : State) (n : Nat) : State := s.setCam n { s.cam n with logged := [], evStrips := [], openStrip := none }

/-- A head link's EN has changed (R163, R486). -/
def State.linkWritten (s : State) (l old new : Nat) : State :=
  let hs := (List.range 4).map (4 * l + ·)
  if bit new 0 && !bit old 0 then hs.foldl State.headStart s
  else if bit old 0 && !bit new 0 then hs.foldl State.headStop s
  else s

/-- A cluster's rights mask is written over `old` (R326): when its copy follows is free within 30 ns, and an access of the same ENG cycle is
checked against the mask before (R343). -/
def State.maskWritten (s : State) (c old : Nat) : State :=
  let (v, s) := s.draw
  let before := match s.hif.masks.find? fun p => p.1 == c with
    | some (_, t, o) => if s.now < t then o else old
    | none => old
  { s with hif := { s.hif with masks := (c, s.now + 3 + v.toNat % 118, before % 64) :: s.hif.masks.filter fun p => p.1 != c } }

/-- The effects that a write of some registers has beyond their new value. -/
def State.afterWrite (s : State) (base : Nat) (is : List Nat) (old new : Nat) : State :=
  match base, is with
  | 0x00100000, _ => (if bit new 4 && !bit old 4 then { s with wtu := { s.wtu with travel := [] } } else s).compareTravel
  | 0x00100034, _ => { s with wtu := { s.wtu with clampAt := s.now } }
  | 0x00100500, r :: _ => if old = new then s else s.driveRepeater r
  | 0x00100038, _ => s.compareTravel
  | 0x0010002C, _ => s.showSource
  | 0x00100200, n :: _ => s.encWritten n old new
  | 0x00101008, g :: _ | 0x00101010, g :: _ => if old = new then s else s.renumber g
  | 0x00101018, g :: _ => s.setGen g { s.gen g with leadAt := s.now }
  | 0x00102008, i :: _ => s.retarget i
  | 0x00501000, l :: _ => s.linkWritten l old new
  | 0x00600040, g :: _ => s.clkWritten g old new
  | 0x00600100, c :: _ => s.chWritten c old new
  | 0x00700000, n :: _ => if bits old 12 8 = bits new 12 8 then s else s.cinRecount n
  | 0x00700018, n :: _ | 0x00700020, n :: _ => if old = new then s else s.cinRecount n
  | 0x00C0B000, t :: _ => if bit old 0 && !bit new 0 then s.timerStop t else s
  | 0x01400100, c :: _ => s.maskWritten c old
  | 0x0144000C, f :: v :: _ => if bit new 0 then s else s.msixFlush f v
  | 0x01410004, _ | 0x01410010, _ => if old = new then s else s.gpioDrive
  | 0x01488000, _ => if bit new 3 && !bit old 3 then { s with net := { s.net with syncAt := s.now } } else s
  | 0x01488020, _ | 0x01488028, _ => { s with net := { s.net with masterWritten := true } }
  | 0x01500108, c :: _ => (s.unwrap c).pmuFromNow c
  | 0x01501000, _ => if bit new 0 && !bit old 0 then s.bwStart else s
  | 0x01502000, c :: _ => if bit new 0 then s else s.setSampler c {}
  | _, _ => s

/-- A write of `v` reaches a register: true where its block takes it. Fields with rows of their own keep what they hold. -/
def State.plainWrite (s : State) (who : Requester) (r : RegDesc) (is : List Nat) (off v : Nat) : Bool × State :=
  let f := wholeReg off r.wide
  let old := s.get f
  match s.landing who r is off old (r.written old (s.was f) v) v with
  | .drop s => (false, s)
  | .take new s => (true, (s.put f new).afterWrite r.base is old new)

/-! ### Reads -/

/-- The slots that the enabled heads need (R156). -/
def State.storeNeed (s : State) : Nat :=
  (((List.range 8).filter fun n => s.pipeState n != rpDisabled).flatMap fun n =>
    let b := s.activeBank n
    (List.range 4).flatMap fun f =>
      ((s.rowHeads n b f).filter fun p => s.headEn p.1).map fun _ => (s.rowDelay n b f + s.period n b f) / s.period n b f + 2).sum

/-- What DFQ_RD_STAT shows a requester: whether it is inside a packet, and the crops still to take. -/
def State.dfqRdStat (s : State) (r : Nat) : Nat :=
  match s.dfq.stored.find? fun p => p.begun == some r with
  | some p => 1 + p.recs.length * 2
  | none => 0

/-- The nonce that SEC_NONCE shows: in the HIF cycle of a GO, the one that the command uses (R525). -/
def State.nonceShown (s : State) : Nat :=
  if s.sec.goAt.any fun t => Domain.hif.cycleOf t == Domain.hif.cycleOf s.now then s.sec.nonces - 1 else s.sec.nonces

/-- What a register holds where it shows live state, or the requester's own copy; none where the register file holds it. -/
def State.liveValue (s : State) (who : Requester) (base : Nat) (is : List Nat) : Option Nat :=
  match base, is with
  | 0x00000040, i :: _ => some (Config.nonceWord s.nonceShown i).toNat
  | 0x00000080, i :: _ => some (wordOf s.ownerSet i)
  | 0x00100010, _ => some s.wco
  | 0x00100018, _ => some (s.tempoCopy .hif)
  | 0x00309008, _ => some (s.tempoCopy .pix / 2 ^ 20 % 2 ^ 16)
  | 0x00309118, i :: _ => if s.nt.initAt.isSome && s.rmwWaits i then some ntInitial else none
  | 0x00500020, _ => some s.storeNeed
  | 0x00A0001C, _ =>
    if s.fabState = fbVerifying || s.fabState = fbApplying then
      some ((Config.undefWord (2 ^ 121 + s.now)).toNat % (s.fab.len + 1))
    else none
  | 0x00C00004, _ =>
    let c := s.commitStat (reqCode who)
    some (b2n s.evf.check.isSome + b2n c.done * 2 + b2n c.rejected * 4 + 2 ^ 16 * c.channel)
  | 0x00C00008, _ => some (s.commitStat (reqCode who)).code
  | 0x00900100, i :: _ => some ((s.latchOf (s.dfqReq who)).getD i 0).toNat
  | 0x00900140, _ => some (s.dfqRdStat (s.dfqReq who))
  | 0x00900244, _ =>
    let p := s.pushOf (s.dfqReq who)
    some (p.expect + b2n p.refused * 16)
  | 0x00C10000, t :: _ => some (setBits (s.word (0x00C10000 + 4 * t)) 17 17 (b2n (s.taskBusy t)))
  | 0x00E08010, _ => some s.devmemTop
  | 0x01488008, _ => some (ptpParts s.ptpNow).1
  | 0x01488010, _ => some (s.latched who 0x01488010).toNat
  | 0x01488040, i :: _ => some (s.tsqWord who i)
  | 0x01488088, _ => some (ptpParts (s.mapLatch who).ptp).1
  | 0x01488090, _ => some (ptpParts (s.mapLatch who).ptp).2
  | 0x01488098, _ => some (s.mapLatch who).tempo
  | 0x014880A0, _ => some (s.mapLatch who).rate
  | _, _ => none

/-- A field that shows which bank is in use follows BANK_SEL while the unit is DISABLED (R113, R120, R268, R270). -/
def State.showBank (s : State) (f : Fld) (bank : Nat) : State :=
  if s.get f = bank then s else (s.put f bank).putPast f bank

/-- What a read brings up to date first: the bank in use, the updates of the nozzle table that it waits for (R136), the cycles at the clamp (R50), counts whose value the model does not follow
(R520, R335), and PTP time's nanoseconds, latched with its seconds (R496). -/
def State.beforeRead (s : State) (who : Requester) (base : Nat) (is : List Nat) : State :=
  match base, is with
  | 0x00100050, _ => s.settleClamp
  | 0x00100418, m :: _ => s.ssiStamp m
  | 0x00300004, n :: _ => s.showBank (F.RP_STAT_ACTIVE_BANK n) (s.activeBank n)
  | 0x00400004, _ => s.showBank F.RRU_STAT_ACTIVE_BANK s.rruBank
  | 0x00800004, _ => s.showBank F.IPL_STAT_ACTIVE_BANK s.iplBank
  | 0x00309118, i :: _ => s.rmwReach i
  | 0x00B04008, c :: _ =>
    let (v, s) := s.draw
    s.put (F.ENG_CL_BANK_CONFLICTS c) v.toNat
  | 0x01500108, c :: _ => s.pmuShow c
  | 0x01488008, _ => s.latchHigh who 0x01488010 (ptpParts s.ptpNow).2
  | _, _ => s

/-- Registers that a read brings up to date, so that what they hold then is what stands before the read; and the results of a bandwidth
window, of which a read in the cycle of a window's end returns the window just ended (R525). -/
def broughtUp (base : Nat) : Bool := base == 0x00100050 || base == 0x00100418 || base == 0x00B04008 || base == 0x01500108
  || base == 0x00309118 || base == 0x01501100 || base == 0x01501108 || base == 0x01501400 || base == 0x01501408

/-- The counters that hold the highest level since their last read start again from the level there is (R156, R292). -/
def State.peakLevel (s : State) (base : Nat) : Option Nat :=
  match base with
  | 0x00500028 => some (s.get F.FTU_STORE_USED)
  | 0x00900024 => some (s.get F.DFQ_STAT_FILL)
  | _ => none

/-- A read clears what a read clears in a register (R8). -/
def State.readClear (s : State) (r : RegDesc) (f : Fld) (was : Nat) : State :=
  if r.fields.any fun d => d.acc == .rc then
    let left := (s.peakLevel r.base).getD (r.afterRead (s.get f) was)
    let none := r.mapFields (fun d o => if d.acc = .rc then 0 else o) (s.was f)
    (s.put f left).putPast f none
  else s

/-- A read of one word of a register by a requester (R6, R8): the value returned, and what the read does. -/
def State.plainRead (s : State) (who : Requester) (r : RegDesc) (is : List Nat) (off : Nat) (high : Bool) : Nat × State :=
  if high then ((s.latched who off).toNat, s)
  else
    let s := s.beforeRead who r.base is
    let f := wholeReg off r.wide
    let live := s.liveValue who r.base is
    let old := live.getD (s.get f)
    let was := if live.isSome || broughtUp r.base then old else s.was f
    let s := s.readClear r f was
    let v := r.readWord off old was false
    (v, if r.wide then s.latchHigh who off (r.readWord (off + 4) old was true) else s)

/-! ### Error log rings (R544, R545) -/

/-- Where the error log rings lie. -/
def logRings : List Nat :=
  [siteSec.ring, (siteWtu 0).ring, siteCmp.ring, siteRru.ring, siteFtu.ring, siteDgu.ring, siteHb.ring, siteIpl.ring, siteDfq.ring,
    siteFab.ring, siteEng.ring, siteEvf.ring, siteDma.ring, (siteMem 0).ring, siteFvl.ring, (siteNet 0).ring, (sitePmu 0).ring,
    siteCal.ring, siteTwn.ring, siteHif.ring] ++ (List.range 8).map (fun n => (siteRp n).ring) ++
    (List.range 16).map fun n => (siteCin n).ring

/-- The log ring that an offset belongs to, with the offset in it. -/
def logRingAt (off : Nat) : Option (Nat × Nat) :=
  let ring := off / 128 * 128
  if logRings.contains ring then some (ring, off % 128) else none

/-- The sixteen words of an entry (R545). -/
def LogEntry.words (e : LogEntry) : List Word :=
  [e.code, e.number, e.tempo.setWidth 32, (e.tempo >>> 32).setWidth 32] ++ e.details

/-- A requester's latch of a ring's slot. -/
def logKey (who : Requester) (ring : Nat) : Nat := 2 ^ 26 * reqCode who + ring

/-- A slot of a log ring as it stands before what this cycle writes into it (R551). -/
def State.logSlot (s : State) (ring slot : Nat) : LogEntry :=
  let e := Sparse.get (fun _ => {}) s.logs (ring + slot)
  if e.cycle = some ((domainOf ring).cycleOf s.now) then Sparse.get (fun _ => {}) s.past.logs (ring + slot) else e

/-- A read of LOG_ENTRY word 0: the selected slot is latched for its requester. -/
def State.logTake (s : State) (who : Requester) (ring : Nat) : Nat × State :=
  let e := s.logSlot ring (s.word (ring + 8) % 256)
  (e.code.toNat, { s with logLatch := Sparse.set (fun _ => {}) s.logLatch (logKey who ring) e })

/-- A read of a log ring's register at offset `o`. -/
def State.logRead (s : State) (who : Requester) (ring o : Nat) : Nat × State :=
  if o = 0x40 then s.logTake who ring
  else if 0x40 < o then
    (((Sparse.get (fun _ => ({} : LogEntry)) s.logLatch (logKey who ring)).words.getD ((o - 0x40) / 4) 0).toNat, s)
  else if o = 0xC then
    let f := F.LOG_LOST ring
    let was := s.was f
    (was, (s.put f ((s.get f + 2 ^ 32 - was) % 2 ^ 32)).putPast f 0)
  else if o = 0x8 || o = 0x10 then
    let w := if o = 0x8 then 8 else 1
    (s.word (ring + o) % 2 ^ w + 2 ^ w * ((Config.reservedBits (ring + o)).toNat / 2 ^ w), s)
  else if o = 0 then (s.was (F.LOG_WR ring), s)
  else if o = 4 then (s.word (ring + o), s)
  else (0, s)

/-- How many entries written in this cycle overwrite an unread one, with LOG_RD at `rd` (R544). -/
def State.logLosses (s : State) (ring rd : Nat) : Nat :=
  let before := s.was (F.LOG_WR ring)
  let n := (s.get (F.LOG_WR ring) + 2 ^ 32 - before) % 2 ^ 32
  ((List.range n).filter fun i => decide (256 ≤ (before + i + 2 ^ 32 - rd) % 2 ^ 32)).length

/-- LOG_RD is written: the overwrites of this cycle are judged against the new value (R551). OVERWRITE falls where none of them was of an
unread entry; an older one that is not cleared goes with it (DESIGN CHOICE, assumption 118). -/
def State.logRdWrite (s : State) (ring v : Nat) : State :=
  let old := s.logLosses ring (s.get (F.LOG_RD ring))
  let new := s.logLosses ring v
  let s := s.put (F.LOG_RD ring) v
  if old = new then s
  else
    let s := s.put (F.LOG_LOST ring) ((s.get (F.LOG_LOST ring) + 2 ^ 32 + new - old) % 2 ^ 32)
    if new = 0 then s.put (F.LOG_OVERWRITE ring) 0 else if old = 0 then s.flag (F.LOG_OVERWRITE ring) else s

/-- A write of a log ring's register: LOG_RD, LOG_SEL, and LOG_STAT's bit cleared. -/
def State.logWrite (s : State) (ring o v : Nat) : State :=
  if o = 4 then s.logRdWrite ring v
  else if o = 8 then s.setWord (ring + 8) (v % 256)
  else if o = 0x10 && bit v 0 && s.was (F.LOG_OVERWRITE ring) = 1 then s.put (F.LOG_OVERWRITE ring) 0
  else s

end Sys2Proof.Machine
end

