-- ==== Sys2Proof/Machine/Bus.lean ====
section
/-! DEFINITION. BAR0 as a whole: what one 32-bit write or read of a requester does at an offset (00 R4–R10, 01 R21–R25), the
fields with command rows of their own included. -/

namespace Sys2Proof.Machine

/-! ### Fields with rows of their own

One function per block: the register by its first offset and instance numbers, what it held (`old`), and the word or 64-bit
value written (`v`). Two such fields of one write act in the order of their bits unless a function says otherwise. -/

/-- A bit that the write raises or lowers. -/
def edge (old v i : Nat) (up down : State → State) (s : State) : State :=
  if bit v i && !bit old i then up s else if bit old i && !bit v i then down s else s

/-- The EN of a unit that stays DISABLED where it refuses an enable, and keeps EN as it was written: each write of 1 asks for the
enable (R112, R220, R262, R476), and a fall disables. -/
def enabler (old v i : Nat) (up down : State → State) (s : State) : State :=
  if bit v i then up s else if bit old i then down s else s

/-- A bit that acts when it is written 1. -/
def pulse (v i : Nat) (act : State → State) (s : State) : State := if bit v i then act s else s

def State.ownSec (s : State) (base : Nat) (v : Nat) : State :=
  match base with
  | 0x00001100 => pulse v 0 (fun s => s.secGo (cmdCode s.staged)) s
  | 0x0000031C => pulse v 0 State.bootGo s
  | _ => s

/-- WTU: WCO_LOAD acts before the source is switched. -/
def State.ownWtu (s : State) (base : Nat) (is : List Nat) (old v : Nat) : State :=
  match base, is with
  | 0x00100000, _ => (pulse v 5 State.wcoLoad s).setSource (bits v 1 0)
  | 0x00100100, k :: _ => pulse v 0 (fun s => s.capture k) s
  | 0x00100408, m :: _ => pulse v 0 (fun s => s.ssiRequest m) s
  | 0x00101000, g :: _ =>
    let s := edge old v 0 (fun s => s.genEnable g) (fun s => s.genDisable g) s
    if bit old 0 && bit v 0 then pulse v 1 (fun s => s.genRestart g) s else s
  | 0x00102000, i :: _ => pulse v 0 (fun s => s.slotArm i) s
  | _, _ => s

def State.ownCmp (s : State) (base : Nat) (is : List Nat) (old v : Nat) : State :=
  match base, is with
  | 0x00200108, r :: _ =>
    pulse v 9 (fun s => s.ringResume r) (edge old v 8 (fun s => s.ringEnable r) id s)
  | 0x00200110, r :: _ => s.setProd r v
  | 0x00200118, r :: _ => s.setCons r v
  | 0x0020040C, p :: _ => edge old v 31 (fun s => s.planeEnable p) id s
  | 0x0020080C, _ => s.put F.CMP_DQ_PROD v
  | _, _ => s

def State.ownRp (s : State) (base : Nat) (is : List Nat) (old v : Nat) : State :=
  match base, is with
  | 0x00300000, n :: _ =>
    let s := enabler old v 0 (fun s => s.pipeEnable n) (fun s => s.pipeDisable n) s
    pulse v 2 (fun s => s.put (F.RP_MIN_SLACK n) 0xFFFFFFFF) s
  | 0x00308008, _ => (s.tsStore (s.get F.RP_TS_ADDR) v).tsAdvance
  | 0x00309000, _ => pulse v 0 State.ntInit s
  | 0x00309110, i :: _ => s.ntRmw i v
  | 0x00400000, _ => enabler old v 0 State.rruEnable State.rruDisable s
  | _, _ => s

/-- FTU: whether FLG's edges are back when software resumes, and whether a pad that did not fall is still high when software clears
its flag, are the pads' affair, and free here. -/
def State.ownFtu (s : State) (base : Nat) (is : List Nat) (old v : Nat) : State :=
  match base, is with
  | 0x0050E000, _ => edge old v 0 (fun s => s.setPolicy true) (fun s => s.setPolicy false) s
  | 0x00500000, _ => pulse v 1 (fun s =>
      let (w, s) := s.draw
      s.flgResume (w.toNat % 2 == 1)) s
  | 0x00502000, x :: _ => edge old v 0 (fun s => s.headEnable x)
      (fun s => (s.put (F.FTU_HEAD_CFG_EN x) 0).headStop x) s
  | 0x00502010, x :: _ => pulse v 3 (fun s =>
      if (s.head x).stuck then
        let (w, s) := s.draw
        s.clearFall x (w.toNat % 2 == 1)
      else s.clearFall x false) s
  | _, _ => s

def State.ownDgu (s : State) (base : Nat) (is : List Nat) (old v : Nat) : State :=
  match base, is with
  | 0x00600800, i :: _ => pulse v 1 (fun s => s.scanDrop i) (edge old v 0 (fun s => s.scanArm i) id s)
  | 0x00608000, i :: _ => edge old v 0 (fun s => s.hbEnable i) id s
  | _, _ => s

/-- CIN, IPL and DFQ. -/
def State.ownCamera (s : State) (who : Requester) (base : Nat) (is : List Nat) (old v : Nat) : State :=
  match base, is with
  | 0x00700000, n :: _ => pulse v 1 (fun s => s.expCommit n) (enabler old v 0 (fun s => s.cinEnable n) (fun s => s.cinDisable n) s)
  | 0x00800000, _ => enabler old v 0 State.iplEnable State.iplDisable s
  | 0x00800108, i :: _ => edge old v 8 (fun s => s.writerEnable i) id s
  | 0x00801008, _ => s.tblAccess who (some (BitVec.ofNat 32 v))
  | 0x00900000, _ => pulse v 2 State.flushQueue (pulse v 1 (fun s => s.dropRest (s.dfqReq who)) s)
  | 0x00900240, _ => pulse v 0 (fun s => s.pushCommit (s.dfqReq who)) s
  | _, _ => s

/-- FAB: `abort` says what an ABORT does. -/
def State.ownFab (s : State) (abort : State → State) (base v : Nat) : State :=
  match base with
  | 0x00A00000 => pulse v 5 State.fabRearm (pulse v 2 State.fabArm (pulse v 1 abort (pulse v 0 State.fabGo s)))
  | 0x00A00020 => s.spliceWcoWrite v
  | _ => s

/-- ENG and EVF. -/
def State.ownEngine (s : State) (who : Requester) (base : Nat) (is : List Nat) (v : Nat) : State :=
  match base, is with
  | 0x00B00040, w :: _ => s.engEach State.engStart who (O.ENG_START w) w v
  | 0x00B00060, w :: _ => s.engEach State.engStop who (O.ENG_STOP w) w v
  | 0x00B00080, w :: _ => s.engEach State.engOff who (O.ENG_OFF w) w v
  | 0x00C00000, _ => pulse v 0 (fun s => s.commitStart who) s
  | 0x00C01000, n :: _ => s.pendingWrite who n 0 v
  | 0x00C01004, n :: i :: _ => s.pendingWrite who n (i + 1) v
  | _, _ => s

/-- DMA: STOP wins over RESUME and SKIP (R386); of a write of both RESUME and SKIP, RESUME acts (DESIGN CHOICE, assumption 114); what host memory returned to a MOVE cut off is free. -/
def State.ownDma (s : State) (base : Nat) (is : List Nat) (v : Nat) : State :=
  match base, is with
  | 0x00D01000, c :: _ =>
    if bit v 0 then
      let n := match (s.dmaChan c).move with
        | some m => if s.fromHost c m then m.len else 0
        | none => 0
      let (host, s) := s.freeBytes n
      s.dmaStop c host
    else pulse v 2 (fun s => s.dmaSkip c) (pulse v 1 (fun s => s.dmaResume c) s)
  | 0x00D01008, c :: _ => s.doorbellTrigger c
  | _, _ => s

/-- MEM, FVL and HIF. -/
def State.ownLinks (s : State) (base : Nat) (is : List Nat) (v : Nat) : State :=
  match base, is with
  | 0x00E08000, _ => pulse v 3 (fun s => s.put F.MEM_STAT_SWAP_PEND 1) (pulse v 0 State.memOpen s)
  | 0x00E00004, n :: _ => pulse v 1 (fun s => s.fenceNow n) (pulse v 0 (fun s => s.retrain n) s)
  | 0x00F00100, _ => pulse v 0 (fun s => s.mailboxGo (bit v 1)) s
  | 0x01410008, _ => s.gpioSet v
  | 0x0141000C, _ => s.gpioClr v
  | 0x01411004, _ => pulse v 0 State.i2cGo s
  | _, _ => s

/-- NET, PMU, CAL and TWN. -/
def State.ownRest (s : State) (who : Requester) (base : Nat) (is : List Nat) (old v : Nat) : State :=
  match base, is with
  | 0x0148110C, n :: q :: _ => s.put (F.NET_P_TX_PROD n q) v
  | 0x01488004, _ => pulse v 0 State.holdoverClear s
  | 0x01488014, _ => s.ptpRate v
  | 0x01488018, _ => s.ptpStep v
  | 0x01488084, _ => pulse v 1 (fun s => s.mapSnap who) s
  | 0x01500000, _ => pulse v 1 State.pmuClear (s.pmuFreeze (bit v 0))
  | 0x01600000, _ => pulse v 0 State.calStart s
  | 0x01700000, _ =>
    let s := enabler old v 0 (fun s => (s.put F.TWN_CTRL_EN 1).pairStart) State.twnOff s
    pulse v 6 State.castlePlan s
  | _, _ => s

/-- The effects of a write's fields that have rows of their own. -/
def State.ownEffects (s : State) (abort : State → State) (who : Requester) (base : Nat) (is : List Nat) (old v : Nat) : State :=
  match base / 0x100000 with
  | 0 => s.ownSec base v
  | 1 => s.ownWtu base is old v
  | 2 => s.ownCmp base is old v
  | 3 => s.ownRp base is old v
  | 4 => s.ownRp base is old v
  | 5 => s.ownFtu base is old v
  | 6 => s.ownDgu base is old v
  | 7 => s.ownCamera who base is old v
  | 8 => s.ownCamera who base is old v
  | 9 => s.ownCamera who base is old v
  | 10 => s.ownFab abort base v
  | 11 => s.ownEngine who base is v
  | 12 => s.ownEngine who base is v
  | 13 => s.ownDma base is v
  | 14 => s.ownLinks base is v
  | 15 => s.ownLinks base is v
  | 20 => if base < 0x01480000 then s.ownLinks base is v else s.ownRest who base is old v
  | _ => s.ownRest who base is old v

/-! ### One access -/

/-- A register takes a write of its whole value: its block's rules decide, and then the fields with rows of their own act. -/
def State.regWrite (s : State) (abort : State → State) (who : Requester) (r : RegDesc) (is : List Nat) (off v : Nat) : State :=
  let old := s.get (wholeReg off r.wide)
  match s.plainWrite who r is off v with
  | (true, s) => s.ownEffects abort who r.base is old v
  | (false, s) => s

/-- Whether an offset lies in the nozzle table window (R25), and the entry it belongs to. -/
def inWindow (off : Nat) : Bool := 0x01000000 ≤ off && off < 0x01400000
def entryOf (off : Nat) : Nat := (off - 0x01000000) / 8

/-- A 32-bit write of BAR0 that the rights allow. -/
def State.busStore (s : State) (abort : State → State) (who : Requester) (off : Nat) (v : Word) : State :=
  if inWindow off then s.ntWindow who (entryOf off) (if off % 8 = 0 then .low v else .high v)
  else match logRingAt off with
    | some (ring, o) => s.logWrite ring o v.toNat
    | none => match findReg off with
      | none => s
      | some (r, is, high) =>
        if r.wide && !high then s.putLow who off (some v)
        else if r.wide then (s.consumeLow who (off - 4)).regWrite abort who r is (off - 4) (s.joined who (off - 4) v)
        else s.regWrite abort who r is off v.toNat

/-- The data of a read that has a row of its own, which answers it to its requester. -/
def readBack (act : State → State) (s : State) : Nat × State :=
  let t := act { s with out := [] }
  match t.out.getLast? with
  | some (.readData _ _ v) => (v, { t with out := s.out ++ t.out.dropLast })
  | _ => (0, { t with out := s.out ++ t.out })

/-- A 32-bit read of BAR0 that the rights allow. -/
def State.busLoad (s : State) (who : Requester) (off : Nat) : Nat × State :=
  if inWindow off then readBack (fun s => s.ntWindowRead who (entryOf off) (if off % 8 = 0 then .low else .high)) s
  else match logRingAt off with
    | some (ring, o) => s.logRead who ring o
    | none => match findReg off with
      | none => (0, s)
      | some (r, is, high) =>
        if off = O.RP_TS_DATA then readBack (fun s => s.tsRead who) s
        else if off = O.NET_PTP_TSQ 0 then readBack (fun s => s.tsqTake who) s
        else if off = O.DFQ_RD 0 then readBack (fun s => s.readTake who) s
        else if off = O.IPL_TBL_DATA then readBack (fun s => s.tblAccess who none) s
        else s.plainRead who r is (if high then off - 4 else off) high

/-- A 32-bit read of BAR0 (R21): the data, none where the rights refuse it, and what it does. -/
def State.busRead (s : State) (who : Requester) (off : Nat) : Option Nat × State :=
  if s.allowed who off false then
    if s.unitHeld off then (some 0, s)
    else
      let (v, s) := s.busLoad who off
      (some v, s)
  else (none, s.refuse who off)

/-- A 32-bit write of BAR0 (R21): false where the rights refuse it. -/
def State.busWriteWith (s : State) (abort : State → State) (who : Requester) (off : Nat) (v : Word) : Bool × State :=
  if s.allowed who off true then (true, if s.unitHeld off then s else s.busStore abort who off v)
  else (false, s.refuse who off)

/-- A command that reads one word of BAR0, or the addressed bytes of one, with the side effects of the whole word (R5). -/
def busReadCmd (dt : Nat) (who : Requester) (a : ReadAt) (s : State) : Res :=
  let s := s.wait dt
  if s.held then .next s
  else if s.inReset who then .next (s.emit (.unsupported who a.addr))
  else
    let (v, s) := s.busRead who a.off
    .next (s.emit (.readData who a.addr (a.part.of (v.getD 0))))

def execRcRead (dt : Nat) (who : Requester) (a : ReadAt) (s : State) : Res := busReadCmd dt who a s

def execLowWordRead (dt : Nat) (who : Requester) (a : ReadAt) (s : State) : Res := busReadCmd dt who a s

/-- A read of word 0 of a ring's LOG_ENTRY (R545). -/
def execLogEntryRead (dt : Nat) (who : Requester) (ring : Fin 44) (s : State) : Res :=
  busReadCmd dt who ⟨BitVec.ofNat 24 ((logRings.getD ring 0 + 0x40) / 4), .word⟩ s

/-- A write of 8 or 16 bits is discarded and logged by the HIF (R5). -/
def execSubwordWrite (dt : Nat) (who : Requester) (s : State) : Res :=
  let s := s.wait dt
  if s.held || s.inReset who then .next s
  else .next (s.logErr siteHif 0x01 0x001)

end Sys2Proof.Machine
end

