-- ==== Sys2Proof/Machine/FabLoad.lean ====
section
/-! DEFINITION. Fabric images (11 R293–R305, R314–R316): the records, the verify pass, the apply pass, and the commit queue. -/

namespace Sys2Proof.Machine

/-! ### Records (R293–R301) -/

/-- Whether bytes `o` up to `e` are 0. -/
def zeroAt (b : List Byte) (o e : Nat) : Bool := ((b.take e).drop o).all (· == 0)

/-- RCRC holds. -/
def rcrcOk (b : List Byte) : Bool := crc32 (b.take (b.length - 4)) == fieldAt b (b.length - 4) 4

/-- One write that a record asks for. -/
inductive FabAct
  /-- A BAR0 word, with its PHASE (R296). -/
  | word (off : Nat) (v : Word) (phase : Nat)
  /-- A threshold store cell (R297). -/
  | cell (i : Nat) (v : Nat)
  /-- An entry of an IPL table. -/
  | tbl (sel : Nat) (i : Nat) (v : Nat)
  /-- A nozzle table entry under a mask. -/
  | entry (i : Nat) (mask : DWord) (v : DWord)
  /-- An entry of the inactive slot table. -/
  | slot (i : Nat) (v : Nat)
  /-- A channel's route (R298): CFG and the four task words. -/
  | route (n : Nat) (words : List Nat)
  /-- Data for device memory (R299). -/
  | program (dest : Nat) (data : List Byte)
  /-- SPLICE_WCO (R300). -/
  | splice (wco : Nat)

/-- The entries of a REG_WRITE record. -/
def regActs (b : List Byte) : List FabAct :=
  (List.range (fieldAt b 8 4)).map fun i =>
    let o := 12 + 16 * i
    .word (fieldAt b o 4) (BitVec.ofNat 32 (fieldAt b (o + 4) 4)) (fieldAt b (o + 8) 1)

/-- The size of an entry of a TABLE_LOAD target. -/
def targetSize (t : Nat) : Nat := if t = 1 || t = 3 then 8 else 4

/-- The entries of a TABLE_LOAD record. -/
def tableActs (b : List Byte) : List FabAct :=
  let t := fieldAt b 8 2
  (List.range (fieldAt b 16 4)).map fun i =>
    let k := fieldAt b 12 4 + i
    let v := fieldAt b (32 + targetSize t * i) (targetSize t)
    match t with
    | 0 => .word (fieldAt b 12 4 + 4 * i) (BitVec.ofNat 32 v) 0xFF
    | 1 => .cell k v
    | 2 => .tbl (fieldAt b 10 1) k v
    | 3 => .entry k (BitVec.ofNat 64 (fieldAt b 24 8)) (BitVec.ofNat 64 v)
    | _ => .slot k v

/-- The task numbers of a ROUTE entry at `o`; an unused place names no task (R350). -/
def routeTask (b : List Byte) (o j : Nat) : Nat := if j < fieldAt b (o + 6) 1 then fieldAt b (o + 8 + 2 * j) 2 else 0xFFF

/-- The entries of a ROUTE record, as the words of pending entries. -/
def routeActs (b : List Byte) : List FabAct :=
  (List.range (fieldAt b 8 4)).map fun i =>
    let o := 12 + 24 * i
    let cfg := fieldAt b (o + 2) 2 + 2 ^ 12 * fieldAt b (o + 4) 1 + 2 ^ 15 * (fieldAt b (o + 5) 1 % 2) + 2 ^ 16 * fieldAt b (o + 6) 1
    .route (fieldAt b o 2) (cfg :: (List.range 4).map fun w => routeTask b o (2 * w) + 2 ^ 16 * routeTask b o (2 * w + 1))

/-- What a record writes, in the order of its entries (R305). -/
def recActs (b : List Byte) : List FabAct :=
  match recType b with
  | 2 => regActs b
  | 3 => tableActs b
  | 4 => routeActs b
  | 5 => [.program (fieldAt b 8 8) ((b.drop 24).take (fieldAt b 16 4))]
  | 6 => [.splice (fieldAt b 8 8)]
  | _ => []

/-! ### Checks of one record (R304) -/

/-- Whether a map assigns an offset: a register, a log ring's register (R545), or an entry of the nozzle table. -/
def assigned (off : Nat) : Bool :=
  inWindow off || (findReg off).isSome || match logRingAt off with
    | some (_, o) => decide (o < 0x14) || decide (0x40 ≤ o)
    | none => false

/-- The bytes a record's payload takes, from byte 0 to the padding. -/
def recUsed (b : List Byte) : Nat :=
  match recType b with
  | 1 => 44
  | 2 => 12 + 16 * fieldAt b 8 4
  | 3 => 32 + targetSize (fieldAt b 8 2) * fieldAt b 16 4
  | 4 => 12 + 24 * fieldAt b 8 4
  | 5 => 24 + fieldAt b 16 4
  | 6 => 28
  | _ => 116

/-- Whether LEN holds the payload, and a type of fixed length has it. -/
def recSizeOk (b : List Byte) : Bool :=
  let l := recLen b
  decide (recUsed b + 4 ≤ l) && match recType b with
    | 1 => l == 48
    | 6 => l == 32
    | 7 => l == 120
    | _ => true

/-- The number of entries of a TABLE_LOAD target. -/
def targetEntries (t sel : Nat) : Nat :=
  match t with
  | 1 => 262144
  | 2 => tblSize sel
  | 3 => 524288
  | _ => 128

/-- The field ranges of a TABLE_LOAD record (R297). -/
def tableOk (b : List Byte) : Bool :=
  let t := fieldAt b 8 2
  let sel := fieldAt b 10 1
  let first := fieldAt b 12 4
  let n := fieldAt b 16 4
  decide (t ≤ 4) && decide (1 ≤ n) && (if t = 2 then decide (sel < 8) else sel == 0)
    && (t == 3 || fieldAt b 24 8 == 0)
    && if t = 0 then first % 4 == 0 && (List.range n).all fun i => assigned (first + 4 * i)
       else decide (first + n ≤ targetEntries t sel)

/-- The field ranges of a ROUTE entry at `o` (R298). -/
def routeOk (b : List Byte) (o : Nat) : Bool :=
  let n := fieldAt b (o + 6) 1
  decide (fieldAt b o 2 < 512) && decide (fieldAt b (o + 2) 2 < 2048) && decide (fieldAt b (o + 4) 1 ≤ 6) && decide (n ≤ 8)
    && (List.range 8).all fun j =>
      let t := fieldAt b (o + 8 + 2 * j) 2
      if j < n then decide (t < 2048) else t == 0xFFFF

/-- The field ranges of a REG_WRITE entry at `o` (R296). -/
def regOk (b : List Byte) (o : Nat) : Bool :=
  let p := fieldAt b (o + 8) 1
  fieldAt b o 4 % 4 == 0 && assigned (fieldAt b o 4) && (decide (p ≤ 9) || p == 0xFF)

/-- The BAR0 offset of the first entry whose field ranges fail, for the log (R320); 0 where no entry's do. -/
def badOffset (b : List Byte) : Nat :=
  match recType b with
  | 2 => (((List.range (fieldAt b 8 4)).map fun i => 12 + 16 * i).find? fun o => !regOk b o).elim 0 fun o => fieldAt b o 4
  | 3 =>
    if fieldAt b 8 2 = 0 then
      (((List.range (fieldAt b 16 4)).map fun i => fieldAt b 12 4 + 4 * i).find? fun o => !(o % 4 == 0 && assigned o)).getD 0
    else 0
  | _ => 0

/-- The field ranges of a record's payload. -/
def State.recRangesOk (s : State) (b : List Byte) : Bool :=
  match recType b with
  | 1 => fieldAt b 8 4 == 0x4D49464C && fieldAt b 12 2 == 1 && decide (fieldAt b 14 1 ≤ 2)
      && (fieldAt b 15 1 % 2 == 0 || fieldAt b 14 1 == 1)
  | 2 => (List.range (fieldAt b 8 4)).all fun i => regOk b (12 + 16 * i)
  | 3 => tableOk b
  | 4 => (List.range (fieldAt b 8 4)).all fun i => routeOk b (12 + 24 * i)
  | 5 => fieldAt b 8 8 % 64 == 0 && decide (1 ≤ fieldAt b 16 4) && decide (fieldAt b 20 1 ≤ 2)
      && decide (fieldAt b 8 8 + fieldAt b 16 4 ≤ s.devmemTop)
  | 6 => decide (fieldAt b 16 2 < 1024)
  | _ => decide (fieldAt b 8 1 < 4)

/-- The owner of a channel of the EVF or DMA, or of a timer, whose registers an offset belongs to (R22, R358). -/
def State.channelOwner (s : State) (off : Nat) : Option Nat :=
  if 0x00C01000 ≤ off && off < 0x00C05000 then some (s.get (F.EVF_CH_CFG_OWNER ((off - 0x00C01000) / 0x20)))
  else if 0x00C05000 ≤ off && off < 0x00C09000 then some (s.get (F.EVF_CH_ACT_CFG_OWNER ((off - 0x00C05000) / 0x20)))
  else if 0x00C09000 ≤ off && off < 0x00C0B000 then some (s.get (F.EVF_CH_ACT_CFG_OWNER ((off - 0x00C09000) / 0x10)))
  else if 0x00C0B000 ≤ off && off < 0x00C0B200 then some (s.get (F.EVF_TMR_CFG_OWNER ((off - 0x00C0B000) / 0x10)))
  else if 0x00D01000 ≤ off && off < 0x00D02000 then some (s.dmaOwner ((off - 0x00D01000) / 0x80))
  else none

/-- Whether an owner is included in the image rights (R298, R304): a function's bit, or for the secure management domain an
opening image. -/
def ownerIn (rights : Nat) (opening : Bool) (o : Nat) : Bool := if o = 6 then opening else decide (o < 6) && bit rights o

/-- Whether the image rights let an image write an offset (R304); SEC_DOMAIN is a secure register once secure boot is on (R510). -/
def State.imageMay (s : State) (rights : Nat) (opening : Bool) (off : Nat) : Bool :=
  if off = O.SEC_DOMAIN && s.on F.SEC_FUSE_SECURE_BOOT then false
  else match s.channelOwner off with
    | some o => ownerIn rights opening o
    | none => (List.range 6).any fun f => bit rights f && s.owns f off

/-- Whether one write of a record is within the image rights: of targets 1 to 4, the owner of the target's registers. -/
def State.actMay (s : State) (rights : Nat) (opening : Bool) : FabAct → Bool
  | .word off _ _ => s.imageMay rights opening off
  | .cell _ _ => bit rights 1
  | .tbl _ _ _ => bit rights 2
  | .entry _ _ _ => bit rights 1
  | .slot _ _ => bit rights 0
  | .route _ ws => ownerIn rights opening (bits (ws.headD 0) 14 12) && (opening || !bit (ws.headD 0) 15)
  | .program _ _ => true
  | .splice _ => true

/-- The BAR0 offset that a write names, for the log (R320). -/
def FabAct.off : FabAct → Nat
  | .word off _ _ => off
  | _ => 0

/-- A failed check: class, cause, full position and BAR0 offset. -/
structure FabBad where
  cls : Nat
  cause : Nat
  pos : Nat
  off : Nat := 0

/-- The checks of one record whose bytes up to LEN are `b` (R304): RCRC, TYPE, INDEX, LEN within the `left` bytes of the image, then
field ranges and rights. -/
def State.recordBad (s : State) (rights : Nat) (opening : Bool) (pos left : Nat) (b : List Byte) : Option FabBad :=
  if !rcrcOk b then some ⟨2, 0x010, pos, 0⟩
  else if recType b < 1 || 7 < recType b || fieldAt b 2 2 ≠ pos % 65536 || !lenOk (recLen b) left || !recSizeOk b then
    some ⟨2, 0x011, pos, 0⟩
  else if !s.recRangesOk b then some ⟨2, 0x011, pos, badOffset b⟩
  else match (recActs b).find? fun a => !s.actMay rights opening a with
    | some a => some ⟨5, 0x030, pos, a.off⟩
    | none => none

/-- Whether LEN gives RCRC a place: after the head, in a record of at most 2^24 bytes. Where it does not, LEN fails in RCRC's place
(DEDUCED, assumption 46). -/
def lenPlaces (l : Nat) : Bool := decide (12 ≤ l) && decide (l ≤ 2 ^ 24)

/-- The image rights (R304): of all six functions for an opening image, KIND 0, and otherwise HIF_FAB_RIGHTS. -/
def State.imageRights (s : State) (kind : Nat) : Nat := if kind = 0 then 0x3F else s.get F.HIF_FAB_RIGHTS

/-- One pass's reading of records from offset `at_` and position `pos` on: each record is checked as it is read, and FAB_POS stands at
the bytes checked. A record that runs past the image is read to the RCRC its LEN places, since RCRC is checked first. -/
def State.readRecords (s : State) (kind : Option Nat) (at_ pos : Nat) : Nat → List (List Byte) × Option FabBad × State
  | 0 => ([], none, s)
  | fuel + 1 =>
    let left := s.fab.len - at_
    let s := s.put F.FAB_POS at_
    if left = 0 then ([], none, s)
    else
      let l := recLen (s.peek (s.fab.base + at_) 8)
      let (b, s) := s.memRead 13 (s.fab.base + at_) (if lenPlaces l then l else 8)
      match b with
      | none => ([], some ⟨2, if l ≤ left then 0x012 else 0x011, pos, 0⟩, s)
      | some b =>
        if !lenPlaces l then ([], some ⟨2, 0x011, pos, 0⟩, s)
        else
          let kind' := match kind with
            | some k => k
            | none => if recType b = 1 then fieldAt b 14 1 else 2
          match s.recordBad (s.imageRights kind') (kind' = 0) pos left b with
          | some bad => ([], some bad, s)
          | none =>
            let (bs, bad, s) := s.readRecords (some kind') (at_ + l) (pos + 1) fuel
            (b :: bs, bad, s)

/-! ### Checks of the whole image (R302) -/

/-- The reserved bytes of a record are 0, its padding with them. -/
def reservedOk (b : List Byte) : Bool :=
  let z := zeroAt b
  let pad := z (recUsed b) (b.length - 4)
  z 1 2 && pad && match recType b with
    | 1 => fieldAt b 15 1 < 2 && z 28 32 && z 40 44
    | 2 => (List.range (fieldAt b 8 4)).all fun i => z (12 + 16 * i + 9) (12 + 16 * i + 16)
    | 3 => z 11 12 && z 20 24
    | 4 => (List.range (fieldAt b 8 4)).all fun i =>
        fieldAt b (12 + 24 * i + 5) 1 < 2 && z (12 + 24 * i + 7) (12 + 24 * i + 8)
    | 5 => z 21 24
    | 6 => z 18 28
    | _ => z 9 16 && z 112 116

/-- Two ranges overlap. -/
def overlap (a n b m : Nat) : Bool := decide (a < b + m) && decide (b < a + n)

/-- The MASK of an image, from its SPLICE_POINT. -/
def imageMask (rs : List (List Byte)) : Nat :=
  match rs.find? fun b => recType b == 6 with
  | some b => fieldAt b 16 2
  | none => 0

/-- Whether a record is a ROUTE record or a TABLE_LOAD of target 4, which serve station 9. -/
def servesGlobal (b : List Byte) : Bool := recType b == 4 || (recType b == 3 && fieldAt b 8 2 == 4)

/-- Whether a record meets the rules on PHASE, station 9 and PROGRAM ranges (R302). -/
def recFits (kind mask base len : Nat) (b : List Byte) : Bool :=
  (kind != 1 || !servesGlobal b || bit mask 9) && (recActs b).all fun a => match a with
    | .word _ _ p => p == 0xFF || (kind == 1 && bit mask p)
    | .program d data => !overlap d data.length base len
    | _ => true

/-- R302 over the records of an image: the full position of the first record that breaks a rule; a rule about the whole image
fails at the HEADER. -/
def imageBad (rs : List (List Byte)) (base len : Nat) : Option Nat :=
  let h := rs.headD []
  let kind := fieldAt h 14 1
  let splices := (rs.filter fun b => recType b == 6).length
  let at_ := fun (p : Nat → List Byte → Bool) => (rs.zipIdx.find? fun x => !p x.2 x.1).map (·.2)
  [at_ fun i b => (recType b == 1) == (i == 0),
    if fieldAt h 24 4 = rs.length && fieldAt h 32 8 = len then none else some 0,
    at_ fun i b => recType b != 7 || i + 1 == rs.length,
    if splices = (if kind = 1 then 1 else 0) then none else some 0,
    at_ fun _ b => recFits kind (imageMask rs) base len b,
    at_ fun _ b => reservedOk b].findSome? id

/-! ### Failing and the verify pass (R304) -/

/-- A load fails (R304, R305): FAILED, the position, the log entry and event 6; the boot ROM learns of its image's failure. -/
def State.fabFail (s : State) (b : FabBad) : State :=
  let s := (s.flag F.FAB_STAT_FAILED_SEEN).put F.FAB_ERR_INDEX b.pos
  let s := ((s.setFabState fbFailed).logErr siteFab b.cls b.cause [b.pos, b.off]).fabEvent 6
  if s.boot.loading then s.bootImageFailed (errCode 0x0A b.cls 0 b.cause) else s

/-- The bytes that a signature covers: all before the SIGNATURE record. -/
def signedBytes (rs : List (List Byte)) : List Byte := (rs.filter fun b => recType b != 7).flatten

/-- The signature rule (R301, R304, R508). -/
def State.signatureBad (s : State) (rs : List (List Byte)) : Option FabBad :=
  match rs.getLast? with
  | some b =>
    if recType b = 7 then
      if s.sigValid (fieldAt b 8 1) (signedBytes rs) ((b.drop 16).take 48) ((b.drop 64).take 48) then none
      else some ⟨5, 0x032, rs.length - 1, 0⟩
    else if s.on F.SEC_FUSE_SECURE_BOOT then some ⟨5, 0x031, rs.length - 1, 0⟩
    else none
  | none => none

/-- The digest of an image, as FAB_DIGEST shows it. -/
def State.putDigest (s : State) (d : List Byte) : State :=
  (List.range 12).foldl (fun (s : State) i => s.put (F.FAB_DIGEST i) (wordOf d i)) s

/-- The verify pass ends with an image that passed: the apply pass begins (R304, R316). -/
def State.verified (s : State) (rs : List (List Byte)) : State :=
  let h := rs.headD []
  let kind := fieldAt h 14 1
  let s := (s.putDigest (sha384 (signedBytes rs))).put F.FAB_IMAGE_ID (fieldAt h 16 4)
  let s := ((s.put F.FAB_JOB_ID (fieldAt h 20 4)).put F.FAB_MASK (imageMask rs)).put F.FAB_POS 0
  let s := { s with fab := { s.fab with
    kind := kind, opening := kind = 0, rights := BitVec.ofNat 6 (s.imageRights kind), copyBanks := bit (fieldAt h 15 1) 0 } }
  (s.setFabState fbApplying).fabEvent 0

/-- The end of the verify pass (R304). -/
def State.verifyEnd (s : State) : State :=
  let (rs, bad, s) := s.readRecords none 0 0 (s.fab.len / 16 + 1)
  match bad with
  | some b => s.fabFail b
  | none => match imageBad rs s.fab.base s.fab.len with
    | some i => s.fabFail ⟨2, 0x011, i, 0⟩
    | none => match s.signatureBad rs with
      | some b => s.fabFail b
      | none => s.verified rs

def execVerifyPassEnd (dt : Nat) (s : State) : Res :=
  evCmd dt (fun s => s.fabState == fbVerifying) State.verifyEnd s

/-! ### The apply pass (R305) -/

/-- A register, if a map assigns the word, holds an undefined value in the fields that software can write. -/
def State.freeReg (s : State) (seed off : Nat) : State :=
  match findReg off with
  | some (r, _, false) =>
    let f := wholeReg off r.wide
    s.put f (r.written (s.get f) (s.get f) (Config.undefWord (seed + off)).toNat)
  | _ => s

/-- `n` words of registers from `base` on hold undefined values. -/
def State.freeWords (s : State) (seed base n : Nat) : State :=
  (List.range n).foldl (fun (s : State) i => s.freeReg seed (base + 4 * i)) s

/-- An IPL table holds undefined values. -/
def State.freeTbl (s : State) (seed sel : Nat) : State :=
  (List.range (tblSize sel)).foldl (fun (s : State) i =>
    let v := tblValue sel i (Config.undefWord (seed + 2 ^ 24 + tblKey sel i)).toNat
    { s with ipl := { s.ipl with tbl := Sparse.set tblDefault s.ipl.tbl (tblKey sel i) { bits := BitVec.ofNat 64 v } } }) s

/-- The shadow state after an apply pass that did not end well (R305, R316): undefined, until a new image is loaded, in the inactive banks,
the pending route set, the inactive copy of the slot table and the commit queue. What the queue holds then reaches no station. A
pipe's bank that the RRU renders from takes no writes (R243) and stays. -/
def State.shadowUndef (s : State) : State :=
  let (v, s) := s.draw
  let seed := 2 ^ 120 + 2 ^ 32 * v.toNat
  let s := (List.range 8).foldl (fun (s : State) n =>
    let b := shadow (s.activeBank n)
    if s.rruNames n b then s else s.freeWords seed (0x00301000 + 0x10000 * n + 0x800 * b) 512) s
  let r := shadow s.rruBank
  let i := shadow s.iplBank
  let s := (s.freeWords seed (0x00401000 + 0x400 * r) 256).freeWords seed (0x00404000 + 0x1000 * r) 1024
  let s := ((s.freeWords seed (0x00800800 + 0x20 * i) 8).freeTbl seed (3 + i)).freeTbl seed (5 + i)
  let s := (s.freeWords seed (pendingBase 0) 4096).freeWords seed (if s.on F.MEM_STAT_ACTIVE_COPY then 0x00E09000 else 0x00E09200) 128
  let (q, s) := s.draw
  { s with fab := { s.fab with queue := List.replicate (q.toNat % 1025) ⟨10, 0, 0⟩ } }.showQueued

/-- A write of the FAB to BAR0; an ABORT among its own writes ends the pass. -/
def State.fabWrite (s : State) (off : Nat) (v : Word) : State :=
  (s.busWriteWith (fun s => s.fabAbort State.shadowUndef) .fab off v).2

/-- The words of one bank copied to another. -/
def State.copyWords (s : State) (src dst n : Nat) : State :=
  (List.range n).foldl (fun (s : State) i => s.setWord (dst + 4 * i) (s.word (src + 4 * i))) s

/-- One IPL table copied to another. -/
def State.copyTbl (s : State) (a b : Nat) : State :=
  (List.range (tblSize a)).foldl (fun (s : State) i =>
    { s with ipl := { s.ipl with tbl := Sparse.set tblDefault s.ipl.tbl (tblKey b i) (s.tblCell a i) } }) s

/-- COPY_BANKS (R305): the active bank of each station of MASK is copied into its inactive one. A pipe's bank that the RRU renders from
keeps the old job (R243, R312): the copy's writes are discarded as any other, and logged once. -/
def State.copyStation (s : State) (st : Nat) : State :=
  if st < 8 then
    let base := 0x00301000 + 0x10000 * st
    let a := s.activeBank st
    if s.rruNames st (shadow a) then (s.flag (F.RP_STAT_WR_ACTIVE st)).logErr (siteRp st) 0x01 0x002
    else s.copyWords (base + 0x800 * a) (base + 0x800 * shadow a) 512
  else if st = 8 then
    let r := s.rruBank
    let i := s.iplBank
    let s := s.copyWords (0x00401000 + 0x400 * r) (0x00401000 + 0x400 * shadow r) 256
    let s := s.copyWords (0x00404000 + 0x1000 * r) (0x00404000 + 0x1000 * shadow r) 1024
    let s := s.copyWords (0x00800800 + 0x20 * i) (0x00800800 + 0x20 * shadow i) 8
    (s.copyTbl (3 + i) (3 + shadow i)).copyTbl (5 + i) (5 + shadow i)
  else s

/-- The stations of MASK. -/
def State.maskStations (s : State) : List Nat := (List.range 10).filter fun st => bit (s.get F.FAB_MASK) st

def State.copyBanks (s : State) : State :=
  if s.fab.kind = 1 && s.fab.copyBanks then s.maskStations.foldl State.copyStation s else s

/-- A route of an image goes into the pending set as words written by the FAB (R298, R350). -/
def State.applyRoute (s : State) (n : Nat) (ws : List Nat) : State :=
  if s.evfSecure n && !s.fab.opening then s.refuse .fab (pendingBase n)
  else ws.zipIdx.foldl (fun (s : State) w => s.pendingWrite .fab n w.2 w.1) s

/-- An entry of the inactive copy of the slot table (R297, R409). -/
def State.applySlot (s : State) (i v : Nat) : State :=
  let b := !s.on F.MEM_STAT_ACTIVE_COPY
  let off := (if b then 0x00E09200 else 0x00E09000) + 4 * i
  match s.slotLanding b off (v % 64) with
  | .drop s => s
  | .take v s => s.setWord off v

/-- A SPLICE_POINT (R300, R308): all ones leaves FAB_SPLICE_WCO to the host. -/
def State.applySplice (s : State) (wco : Nat) : State :=
  if wco = 2 ^ 64 - 1 then s else (s.put F.FAB_SPLICE_WCO wco).put F.FAB_STAT_SPLICE_VALID 1

/-- One write of a record; false where the commit queue is full. -/
def State.applyAct (s : State) : FabAct → Bool × State
  | .word off v p =>
    if 9 < p then (true, s.fabWrite off v)
    else if s.fab.queue.length < 1024 then
      let q : QueuedWrite := { station := p, off := off, value := v }
      (true, { s with fab := { s.fab with queue := s.fab.queue ++ [q] } }.showQueued)
    else (false, s)
  | .cell i v => (true, s.tsStore i v)
  | .tbl sel i v => (true, s.tblWrite sel i v)
  | .entry i m v => (true, s.ntSubmit i (.masked m v))
  | .slot i v => (true, s.applySlot i v)
  | .route n ws => (true, s.applyRoute n ws)
  | .program d data => (true, (s.memWrite 13 d data).2)
  | .splice w => (true, s.applySplice w)

/-- Up to `n` writes; what is left of `n`, and the BAR0 offset of a write that found the commit queue full. A write that ends the load
ends the pass. -/
def State.applyActs (s : State) : List FabAct → Nat → Nat × Option Nat × State
  | [], n => (n, none, s)
  | _ :: _, 0 => (0, none, s)
  | a :: as, n + 1 =>
    if s.fabState ≠ fbApplying then (0, none, s)
    else match s.applyAct a with
      | (true, s) => s.applyActs as n
      | (false, s) => (n, some a.off, s)

/-- How the apply pass ends: with all of its writes made or cut off after the first `n`, or at a bad record. FAB_POS stands at the bytes
of the records applied. -/
def State.applyRecords (s : State) (at_ pos n : Nat) : Nat → Option FabBad × State
  | 0 => (none, s)
  | fuel + 1 =>
    let left := s.fab.len - at_
    let s := s.put F.FAB_POS at_
    if left = 0 || n = 0 || s.fabState ≠ fbApplying then (none, s)
    else
      let l := recLen (s.peek (s.fab.base + at_) 8)
      if !lenOk l left then (some ⟨2, 0x010, pos, 0⟩, s)
      else
        let (b, s) := s.memRead 13 (s.fab.base + at_) l
        match b with
        | none => (some ⟨2, 0x012, pos, 0⟩, s)
        | some b =>
          if !rcrcOk b then (some ⟨2, 0x010, pos, 0⟩, s)
          else match s.applyActs (recActs b) n with
            | (n, none, s) => s.applyRecords (at_ + l) (pos + 1) n fuel
            | (_, some off, s) => (some ⟨6, 0x040, pos, off⟩, s)

/-- The pass over all records, or over the first `n` writes. -/
def State.applyImage (s : State) (n : Nat) : Option FabBad × State :=
  s.copyBanks.applyRecords 0 0 n (s.fab.len / 16 + 1)

/-- The apply pass is complete (R305, R308, R314, R315): LOADED, or for an opening or immediate image the route commit and the
slot table swap, and IDLE. -/
def State.applied (s : State) : State :=
  let s := (s.put F.FAB_POS s.fab.len).fabEvent 1
  let s := { s with boot := { s.boot with loading := false, applied := s.boot.applied || s.boot.loading } }
  if s.fab.kind = 1 then (s.setFabState fbLoaded).autoArm
  else ((s.commitEnd (reqCode .fab) s.dirtyChannels).put F.MEM_STAT_SWAP_PEND 1).setFabState fbIdle

/-- The end of the apply pass (R305): no image holds more writes than bytes. A write of the image may have aborted the load. -/
def State.applyEnd (s : State) : State :=
  let (bad, s) := s.applyImage s.fab.len
  match bad with
  | some b => s.shadowUndef.fabFail b
  | none => if s.fabState = fbApplying then s.applied else s

def execApplyPassEnd (dt : Nat) (s : State) : Res :=
  evCmd dt (fun s => s.fabState == fbApplying) State.applyEnd s

/-! ### ABORT (R316) -/

/-- Some first part of the apply pass, how much being free: an ABORT cuts it off, and the shadow state is undefined. -/
def State.applyPart (s : State) : State :=
  let (v, s) := s.draw
  let s := (s.applyImage (v.toNat % (s.fab.len + 1))).2
  if s.fabState = fbApplying then s.shadowUndef else s

def State.abort (s : State) : State := s.fabAbort State.applyPart

def execFabAbort (dt : Nat) (who : Requester) (s : State) : Res := regCmd dt who O.FAB_CTRL State.abort s

/-! ### The commit queue (R307) -/

/-- The oldest released write lands. -/
def State.landQueued (s : State) : State :=
  match s.fab.ready with
  | [] => s
  | q :: rest => ({ s with fab := { s.fab with ready := rest } }.showQueued).fabWrite q.off q.value

def execCommitQueueWrite (dt : Nat) (s : State) : Res :=
  evCmd dt (fun s => s.fab.ready != []) State.landQueued s

/-! ### BAR0 for the other requesters -/

/-- A 32-bit write of BAR0 by a requester. -/
def State.busWrite (s : State) (who : Requester) (off : Nat) (v : Word) : Bool × State := s.busWriteWith State.abort who off v

/-- A command that writes one word of BAR0. -/
def busWriteCmd (dt : Nat) (who : Requester) (word : BitVec 24) (v : Word) (s : State) : Res :=
  let s := s.wait dt
  if s.held || s.inReset who then .next s else .next (s.busWrite who (4 * word.toNat) v).2

def execRegisterWrite (dt : Nat) (who : Requester) (word : BitVec 24) (v : Word) (s : State) : Res := busWriteCmd dt who word v s

def execLowWordWrite (dt : Nat) (who : Requester) (word : BitVec 24) (v : Word) (s : State) : Res := busWriteCmd dt who word v s

def execHighWordWrite (dt : Nat) (who : Requester) (word : BitVec 24) (v : Word) (s : State) : Res := busWriteCmd dt who word v s

end Sys2Proof.Machine
end

