-- ==== Sys2Proof/Machine/Reset.lean ====
section
/-! DEFINITION. Resets (17 R458, R459; 18 R518; 19 R532, R533): Function Level Resets, the PCIe fundamental reset, the thermal
trip and the device reset. -/

namespace Sys2Proof.Machine

/-! ### Function Level Resets (R454, R458, R459) -/

/-- Whether an offset lies in a range. -/
def within (lo hi off : Nat) : Bool := lo ≤ off && off < hi

/-- The registers of the HIF, the MSI-X table of PF0 and the register groups of other blocks that a reset of PF0 returns to reset
(R458, R507, and the opening text of 16). -/
def flrHif (off : Nat) : Bool :=
  off == 0x01400008 || off == 0x0140000C || off == 0x01400200 || off == 0x01400204 || within 0x01400F00 0x01401000 off
    || within 0x01440000 0x01441000 off || within 0x01500000 0x01600000 off || within 0x00F00100 0x00F00218 off
    || within 0x00001000 0x000010D0 off

/-- Whether a register returns to reset with function `f` (R458): its blocks' registers and error log rings (R546). The live
states that go on, INIT_DONE of the nozzle table and of the engines' memories and the state of head and camera links, are put back by
the caller. -/
def flrResets (s : State) (f off : Nat) : Bool :=
  match f with
  | 0 => flrHif off
  | 1 => within 0x00200000 0x00380000 off || within 0x00500000 0x00600040 off || within 0x00600800 0x00608000 off
      || within 0x00A00000 0x00B00000 off
  | 2 => within 0x00400000 0x00500000 off || within 0x00608000 0x00610000 off || within 0x00700000 0x00710000 off
      || (within 0x00800000 0x00A00000 off && off != 0x0090000C && off != 0x00900034)
  | 3 => within 0x00B00000 0x00B01000 off
      || (within 0x00B01000 0x00B04000 off && !s.secureEngine ((off - 0x00B01000) / 0x40))
      || (within 0x00B04000 0x00B05000 off && !s.secureEngine (16 * ((off - 0x00B04000) / 0x10)))
  | 4 => within 0x01480000 0x01488000 off || off == 0x01488030
  | _ => off == 0x01700008 || within 0x01700044 0x01700054 off || within 0x01700F00 0x01701000 off

/-- The registers and log rings of a function's blocks return to reset, and the requesters' latches of the rings with them. -/
def State.flrRegs (s : State) (f : Nat) : State :=
  let which := flrResets s f
  { s with
    regs := s.regs.filter fun p => !which p.1
    logs := s.logs.filter fun p => !which p.1
    logLatch := s.logLatch.filter fun p => !which (p.1 % 2 ^ 26) }

/-- A head under a reset of PF1 (R163): a strobe in progress completes, and the fence of a flag fall stays. -/
def State.flrHead (s : State) (x : Nat) : Head :=
  let h := s.head x
  let fenced := s.on (F.FTU_HEAD_STAT_FLAG_FALL x)
  { firing := if h.highSince.isSome then h.firing else none, highSince := h.highSince, lastS := h.lastS,
    stuck := fenced && h.stuck, enLow := fenced }

/-- PF1 (R114, R123, R163, R192, R193, R316). -/
def State.flrPrint (s : State) : State :=
  let t := s.unlock
  let t := { t with
    cmp := {}, rp := [], ftu := {}, fab := {},
    nt := { t.nt with waiting := t.nt.waiting.filter fun w => match w.op with | .verdict .. => false | _ => true },
    dgu := { t.dgu with scans := [], drops := [], ready := [], fullSeen := false, evals := [] }
    boot := { t.boot with loading := false } }
  let t := t.flrRegs 1
  let t := (List.range 16).foldl (fun (t : State) c =>
    (t.setCic c { t.cic c with windows := [] }).put (F.DGU_CH_WIN_PEND c) 0) t
  let t := (List.range 32).foldl (fun (t : State) l => t.put (F.FTU_LINK_STAT_UP l) (s.get (F.FTU_LINK_STAT_UP l))) t
  let t := (List.range 128).foldl (fun (t : State) x =>
    let t := t.setHead x (s.flrHead x)
    if s.on (F.FTU_HEAD_STAT_FLAG_FALL x) then (t.setHeadState x hdFenced).put (F.FTU_HEAD_STAT_FLAG_FALL x) 1
    else if (s.head x).highSince.isSome then t.setHeadState x hdFiring
    else t) t
  t.put F.RP_NT_STAT_INIT_DONE (s.get F.RP_NT_STAT_INIT_DONE)

/-- PF2 (R220, R262, R285): the packets that producers hold are served later (R278). -/
def State.flrInspect (s : State) : State :=
  let lost := storedRecords s.dfq.stored
  let t := { s with
    cin := [], ipl := { tbl := s.ipl.tbl }, rru := {}, dgu := { s.dgu with hb := [] },
    dfq := { losses := s.dfq.losses, offers := s.dfq.offers } }
  let t := (t.flrRegs 2).bump F.DFQ_FLR_LOST lost
  (List.range 16).foldl (fun (t : State) n => t.put (F.CIN_PORT_STAT_LINK_UP n) (s.get (F.CIN_PORT_STAT_LINK_UP n))) t

/-- PF3 (R342): write-backs already started may have landed, and lines may have been evicted before (R328). -/
def State.flrEngines (s : State) : State :=
  let mine := (List.range 192).filter fun e => !s.secureEngine e
  let t := mine.foldl (fun (t : State) e =>
    ((t.settleEngine e).engKill e).setEngine e {}) s
  let t := t.flrRegs 3
  let t := t.put F.ENG_STAT (s.get F.ENG_STAT)
  (List.range 6).foldl (fun (t : State) w =>
    let keep := fun (n : Nat) => (List.range 32).foldl (fun (a : Nat) i =>
      if bit n i && s.secureEngine (32 * w + i) then a + 2 ^ i else a) 0
    (t.put (F.ENG_RUNNING w) (keep (s.get (F.ENG_RUNNING w)))).put (F.ENG_FAULTED w) (keep (s.get (F.ENG_FAULTED w)))) t

/-- PF4. -/
def State.flrNet (s : State) : State :=
  { (s.flrRegs 4).put F.NET_PTP_STAT_TSQ_FILL 0 with
    netError := false, net := { s.net with port := [], tsq := [], tsqLatch := [] } }

/-- PF5 (R477). -/
def State.flrTwin (s : State) : State :=
  let t := s.flrRegs 5
  ((t.put F.TWN_STAT_HB_LINK_LOST 0).put F.TWN_STAT_HB_ETH_LOST 0).put F.TWN_STAT_WCO_MISMATCH 0

/-- The blocks of a function return to reset. -/
def State.flrBlocks (s : State) (f : Nat) : State :=
  match f with
  | 0 => { s.flrRegs 0 with pmu := {}, fvl := { s.fvl with mbox := none, lostLogged := false } }
  | 1 => s.flrPrint
  | 2 => s.flrInspect
  | 3 => s.flrEngines
  | 4 => s.flrNet
  | _ => s.flrTwin

/-- The EVF's part (R459): the pending entries of the function's channels, its timers and its host interrupt tasks. -/
def State.flrEvents (s : State) (f : Nat) : State :=
  let s := (List.range 512).foldl (fun (s : State) n =>
    if s.get (F.EVF_CH_CFG_OWNER n) = f then
      let s := s.setWord (O.EVF_CH_CFG n) (s.word (O.EVF_CH_CFG n) &&& 0xF000)
      (List.range 4).foldl (fun (s : State) i =>
        s.setWord (O.EVF_CH_CFG n + 4 + 4 * i) (regReset (O.EVF_CH_CFG n + 4 + 4 * i)).toNat) s
    else s) s
  let s := (List.range 32).foldl (fun (s : State) t =>
    if s.get (F.EVF_TMR_CFG_OWNER t) = f then (s.put (F.EVF_TMR_CFG_EN t) 0).timerStop t else s) s
  (List.range 32).foldl (fun (s : State) v => s.setWord (0x00C10000 + 4 * (1856 + 32 * f + v)) 0) s

/-- The DMA's part (R385): the function's channels stop and return to reset, but for OWNER. -/
def State.flrDma (s : State) (f : Nat) : State :=
  (List.range 32).foldl (fun (s : State) c =>
    if s.dmaOwner c = f then
      let n := match (s.dmaChan c).move with
        | some m => if s.fromHost c m then m.len else 0
        | none => 0
      let (host, s) := s.freeBytes n
      let s := if s.dmaState c = dmIdle then s else (s.dmaStop c host).dmaStopped c
      { s.setDma c {} with regs := s.regs.filter fun p => !within (0x00D01000 + c * 0x80) (0x00D01080 + c * 0x80) p.1 }
    else s) s

/-- How many interrupts of a function are outstanding: held pending, or fired with the write still to go out. -/
def State.heldInterrupts (s : State) (f : Nat) : Nat :=
  ((List.range 32).filter fun v => s.msixPending f v).length + (s.hif.msix.filter fun m => m.f == f).length

/-- A Function Level Reset begins: outstanding interrupts are discarded and counted (R33), and every vector is masked. -/
def State.flrStart (s : State) (f : Nat) : State :=
  let held := s.heldInterrupts f
  let s := (s.flrDma f).flrEvents f
  let s := if f = 2 then s else s.dfqLeave f
  let s := (s.flrBlocks f).bump (F.HIF_PF_DISC_INT f) held
  let s := (List.range 32).foldl (fun (s : State) v => s.put (F.MSIX_CTRL f v) 1) (s.put (F.MSIX_PBA f) 0)
  let one := BitVec.ofNat 6 (2 ^ f)
  { s with hif := { s.hif with
    bme := s.hif.bme &&& ~~~one, flr := s.hif.flr ||| one, msix := s.hif.msix.filter fun m => m.f != f } }

def execFunctionLevelReset (dt : Nat) (f : Fin 6) (s : State) : Res :=
  evCmd dt (fun s => !s.inFlr f) (fun s => s.flrStart f) s

/-- The reset is complete (R458, R493). -/
def State.flrEnd (s : State) (f : Nat) : State :=
  let s := { s with hif := { s.hif with flr := s.hif.flr &&& ~~~BitVec.ofNat 6 (2 ^ f) } }
  (s.bump (F.HIF_PF_FLR_COUNT f)).hifEvent (2 + f)

def execFlrComplete (dt : Nat) (f : Fin 6) (s : State) : Res :=
  evCmd dt (fun s => s.inFlr f) (fun s => s.flrEnd f) s

/-! ### The PCIe fundamental reset (R533) -/

/-- The link goes down, and the configuration space returns to reset: sizes, Bus Master Enable
and masks. A write that had not gone out is held. -/
def State.perst (s : State) : State :=
  let s := if s.on F.HIF_LINK_UP then ((s.put F.HIF_LINK_UP 0).hifEvent 0).logErr siteHif 0x04 0x040 [] else s
  let s := (List.range 6).foldl (fun (s : State) f =>
    (List.range 32).foldl (fun (s : State) v => s.put (F.MSIX_CTRL f v) 1) s) s
  let s := s.hif.msix.foldl (fun (s : State) m => s.setPending m.f m.v) { s with hif := { s.hif with msix := [] } }
  { s with hif := { s.hif with bme := 0, bar2Log2 := [] } }

def execPciePerst (dt : Nat) (s : State) : Res := evCmd dt (fun _ => true) State.perst s

/-! ### The device reset (R518, R532, R533) -/

/-- The registers that show fuses. -/
def isFuse (off : Nat) : Bool := off == 0x00000018 || within 0x00000100 0x00000200 off

/-- A fuse write that a reset cuts: what the fuses then read as is that of a slot unchanged, written, or with failing check bits
(R502, R551). -/
def State.cutFuses (s : State) : State :=
  match s.sec.cmd with
  | none => s
  | some (b, n) =>
    if writesFuses b && (s.cmdCause b n true).isNone then
      let (v, s) := s.draw
      match v.toNat % 4 with
      | 0 => s
      | 1 => s.cmdEnd b n { supply := true, readBack := true, bootCheck := true }
      | 2 => s.cmdEnd b n { supply := true, readBack := false, bootCheck := true }
      | _ => s.cmdEnd b n { supply := true, readBack := false, bootCheck := false }
    else s

/-- The strobes that are driven fall (R147, R533). -/
def State.idleStrobes (s : State) : State :=
  (List.range 128).foldl (fun (s : State) x =>
    if (s.head x).highSince.isSome then s.emit (.strobe x false s.now) else s) s

/-- What the pins drive ends: GPIO balls are inputs again (R463), modulator clocks, range outputs and repeaters are low (R55, R175, R176) and forwarded
clocks stop (R428). -/
def State.releasePins (s : State) : State :=
  let s := if s.get F.GPIO_OE = 0 then s else s.emit (.gpio 0 0)
  let s := (List.range 4).foldl (fun (s : State) g => if s.on (F.DGU_CLK_EN g) then s.emit (.sdClock g none) else s) s
  let s := (List.range 4).foldl (fun (s : State) r => if s.on (F.WTU_REP_CFG_EN r) then s.emit (.repeater r false false false) else s) s
  let s := (List.range 16).foldl (fun (s : State) c => if s.on (F.DGU_CH_CFG_GAIN_SEL c) then s.emit (.sdGain c false) else s) s
  (List.range 53).foldl (fun (s : State) p => if s.fvState p = fvDown then s else s.fvDriveClock p false) s

/-- A device reset begins: every block is in its reset state and held there. What is fused stays, and what the device has shown
and the commands that wait are no state of it. -/
def State.enterReset (s : State) : State :=
  let t := s.idleStrobes.releasePins.cutFuses
  State.settled { State.reset with
    regs := t.regs.filter fun p => isFuse p.1
    out := t.out
    draws := t.draws
    pending := s.pending
    mem := { resets := s.mem.resets + 1 }
    sec := { nonces := s.sec.nonces + 1 }
    boot := { pwrGood := s.boot.pwrGood, tripped := s.boot.tripped, step := 0 } }

def execSysRstNAssert (dt : Nat) (s : State) : Res := .next (s.wait dt).enterReset

/-- PWR_GOOD falls: the power-on reset holds the device. -/
def State.powerFall (s : State) : State :=
  let s := s.enterReset
  { s with boot := { s.boot with pwrGood := false } }

def execPwrGoodFall (dt : Nat) (s : State) : Res := .next (s.wait dt).powerFall

/-- The power-on reset ends 100 µs after PWR_GOOD is high. A trip lasts until power was removed, which releases THERM_TRIP_N
(R518, R556). -/
def State.powerUp (s : State) (powerLost : Bool) : State :=
  if s.boot.pwrGood then s
  else
    let s := { s with boot := { s.boot with pwrGood := true } }
    if powerLost && s.boot.tripped then { s with boot := { s.boot with tripped := false } }.emit (.thermTrip false)
    else s

def execPowerOnResetEnd (dt : Nat) (powerLost : Bool) (s : State) : Res := .next ((s.wait dt).powerUp powerLost)

/-- A sensor reaches 120 °C (R518). -/
def State.trip (s : State) : State :=
  if s.boot.tripped then s
  else
    let s := s.enterReset
    { s with boot := { s.boot with tripped := true } }.emit (.thermTrip true)

def execThermalTrip (dt : Nat) (s : State) : Res := .next (s.wait dt).trip

/-- The device reset ends where neither PWR_GOOD nor a trip holds it: BOOT_SEL is sampled, Tempo starts from 0 (R35, R36), and step
1 of the boot sequence begins. -/
def State.leaveReset (s : State) (bootSel : Bool) : State :=
  if s.held && s.boot.pwrGood && !s.boot.tripped then
    State.settled { s.put F.SEC_BOOT_STAT_HOST (b2n bootSel) with tempo := 0, boot := { s.boot with step := 1 } }
  else s

def execDeviceResetEnd (dt : Nat) (bootSel : Bool) (s : State) : Res := .next ((s.wait dt).leaveReset bootSel)

end Sys2Proof.Machine
end

