-- ==== Sys2Proof/Machine/Boot.lean ====
section
/-! DEFINITION. The boot sequence (19 R534–R539) and the management UART (19 R540, R541). -/

namespace Sys2Proof.Machine

/-! ### The boot steps (R534, R535) -/

/-- A step of the boot sequence begins, with the stage it shows. -/
def State.bootAt (s : State) (step : Nat) : State :=
  { s.put F.SEC_BOOT_STAT_STAGE (step - 1) with boot := { s.boot with step := step } }

/-- Step 2 can end once the nozzle table and the engines' memories are initialised, where their units do not fail. -/
def State.checksDone (s : State) (failed : BitVec 32) : Bool :=
  (failed.getLsbD 4 || s.on F.RP_NT_STAT_INIT_DONE) && (failed.getLsbD 11 || s.on F.ENG_STAT)

/-- Step 2 ends (R534, R542): the units that failed their built-in check stay in reset and are reported. -/
def State.unitsChecked (s : State) (failed : BitVec 32) : State :=
  let bad := failed &&& 0x001FFFFE
  let ok := 0x001FFFFE - bad.toNat
  let s := { s.setWord O.SEC_BOOT_UNITS ok with boot := { s.boot with failedUnits := bad } }
  if bad = 0 then s else s.logErr siteSec 0x06 0x033 [s.get F.SEC_BOOT_STAT_STAGE, ok]

/-- Step 4 can end when training and, with ECC on, zeroing have ended. -/
def State.memoryUp (s : State) : Bool :=
  s.on F.MEM_STAT_INIT_DONE && (s.mem.zeroed || !s.on F.MEM_CTRL_ECC_EN)

/-- Step 4 ends with MEM_CTRL.OPEN; a map that refuses it leaves memory closed. -/
def State.memoryOpened (s : State) : State :=
  let s := s.memOpen
  if s.on F.MEM_CTRL_OPEN then
    let s := s.bootAt 5
    if s.on F.SEC_BOOT_STAT_HOST then s else { s with boot := { s.boot with flashAt := some s.now } }
  else s.bootFail 0x06 0x032 (s.get F.SEC_BOOT_STAT_CH_READY)

/-- Step 6. -/
def State.bootDone (s : State) : State :=
  let s := (s.put F.SEC_BOOT_TEMPO (s.now / 8 * 8)).setService.secEvent 2
  { s with boot := { s.boot with step := 7 } }

/-- The boot step under way ends, where its work is done. -/
def State.bootNext (s : State) (failed : BitVec 32) : State :=
  match s.boot.step with
  | 1 => s.bootAt 2
  | 2 => if s.checksDone failed then ((s.unitsChecked failed).bootAt 3).calStart else s
  | 3 =>
    if s.calState = caIdle then
      (List.range 16).foldl (fun (s : State) n => s.setMcState n mcTraining) (s.bootAt 4)
    else s
  | 4 => if s.memoryUp then s.memoryOpened else s
  | 5 => if s.boot.applied then s.bootAt 6 else s
  | 6 => s.bootDone
  | _ => s

def execBootStepEnd (dt : Nat) (failed : BitVec 32) (s : State) : Res :=
  evCmd dt (fun _ => true) (fun s => s.bootNext failed) s

/-! ### Opening images from flash (R536–R538) -/

/-- A field of the flash directory. -/
def dirField (dir : List Byte) (o n : Nat) : Nat := ofBytes ((dir.drop o).take n)

/-- The checks of the flash directory (R536, R548). -/
def dirOk (dir : List Byte) : Bool :=
  dir.length == 64 && dirField dir 0 4 == 0x4D554C42 && dirField dir 4 2 == 1
    && ((dir.drop 9).take 7).all (· == 0) && ((dir.drop 32).take 28).all (· == 0)
    && dirField dir 60 4 == crc32 (dir.take 60)

/-- The copy being read, as its offset and length: A from the directory, or B as it was noted. -/
def State.copyAt (s : State) (dir : List Byte) : Nat × Nat :=
  match s.on F.SEC_BOOT_STAT_COPY, s.boot.copyB with
  | true, some b => b
  | _, _ => (dirField dir 16 4, dirField dir 20 4)

/-- A directory byte of which 0 and 1 have a meaning: what any other value acts as is free (DESIGN CHOICE, assumption 110). -/
def dirBit (v : Nat) : Bool := if v ≤ 1 then v == 1 else bit (Config.undefWord (2 ^ 123 + v)).toNat 0

/-- The divider in use (R537): CLK_DIV, or the smallest that keeps the highest clock of the mode, 50 MHz in 1-1-1 and 100 MHz in 1-4-4. -/
def spiDivider (quad : Bool) (div : Nat) : Nat := max div (if quad then 2 else 4)

/-- The read of a copy, `len` bytes from flash offset `addr`, with the directory's MODE, CLK_DIV and ADDR4 (R537). -/
def spiImage (mode div addr4 addr len : Nat) : Out :=
  let quad := dirBit mode
  let wide := dirBit addr4
  .spi (if quad then (if wide then 0xEC else 0xEB) else (if wide then 0x0C else 0x0B)) (if wide then 4 else 3) addr quad
    (if quad then 6 else 8) (spiDivider quad div) len

/-- The directory is read at the start of copy A, with command 0x03 at 12.5 MHz over one line (R537): where it is good, copy B is noted and
how the flash is read. -/
def State.readDirectory (s : State) (dir : List Byte) : Bool × State :=
  if s.on F.SEC_BOOT_STAT_COPY then (true, s)
  else
    let s := s.emit (.spi 0x03 (if dirBit (dirField dir 8 1) then 4 else 3) 0 false 0 16 64)
    if dirOk dir then
      let b := dirField dir 28 4
      (true, { s with boot := { s.boot with
        copyB := if b = 0 then none else some (dirField dir 24 4, b)
        spi := (dirField dir 6 1, dirField dir 7 1, dirField dir 8 1) } })
    else (false, s)

/-- The flash is read for the copy in turn (R537). -/
def State.readCopy (s : State) (dir : List Byte) : State :=
  let (mode, div, addr4) := s.boot.spi
  s.emit (spiImage mode div addr4 (s.copyAt dir).1 (s.copyAt dir).2)

/-- Whether a flash read is under way. -/
def State.readingFlash (s : State) : Bool := s.boot.step == 5 && s.boot.flashAt.isSome

/-- The bytes of an image arrive in device memory at address 0, and the FAB starts on them. A number of bytes that is not the copy's is no
end of its read. -/
def State.imageRead (s : State) (dir image : List Byte) : State :=
  match s.readDirectory dir with
  | (false, s) => s.bootFail 0x02 0x012 0
  | (true, s') =>
    if image.length = (s'.copyAt dir).2 then
      let s := { s'.readCopy dir with boot := { s'.boot with flashAt := none } }
      (s.memWrite 15 0 image).2.bootLoad 0 image.length
    else s

def execFlashImageReadEnd (dt : Nat) (dir image : Bytes) (s : State) : Res :=
  evCmd dt State.readingFlash (fun s => s.imageRead dir image) s

/-- Whether the flash read has lasted 10 s. -/
def State.flashLate (s : State) : Bool :=
  s.boot.step == 5 && match s.boot.flashAt with
    | some t => decide (t + 40000000000 ≤ s.now)
    | none => false

/-- The flash read of a copy times out: the copy has failed, with no FAB code. -/
def State.flashTimeout (s : State) (dir : List Byte) : State :=
  match s.readDirectory dir with
  | (false, s) => s.bootFail 0x02 0x012 0
  | (true, s) => { s.readCopy dir with boot := { s.boot with flashAt := none } }.bootImageFailed 0

def execFlashReadTimeout (dt : Nat) (dir : Bytes) (s : State) : Res :=
  evCmd dt State.flashLate (fun s => s.flashTimeout dir) s

/-! ### The management UART (R540, R541) -/

/-- The answer to a request. -/
def uartAnswer (status data : Nat) : List Byte :=
  let b := toBytes 1 0x5A ++ toBytes 1 status ++ toBytes 4 data
  b ++ toBytes 4 (crc32 b)

/-- A complete request is carried out and answered; `r` is its bytes, CRC included. -/
def State.uartServe (s : State) (r : List Byte) : State :=
  let n := r.length - 4
  let op := dirField r 1 1
  let off := dirField r 2 4 / 4 * 4
  if dirField r n 4 ≠ crc32 (r.take n) then s.emit (.uart (uartAnswer 2 0))
  else if op = 1 then
    match s.busRead .uart off with
    | (some v, s) => s.emit (.uart (uartAnswer 0 v))
    | (none, s) => s.emit (.uart (uartAnswer 1 0))
  else if op = 2 then
    match s.busWrite .uart off (BitVec.ofNat 32 (dirField r 6 4)) with
    | (true, s) => s.emit (.uart (uartAnswer 0 0))
    | (false, s) => s.emit (.uart (uartAnswer 1 0))
  else s.emit (.uart (uartAnswer 3 0))

/-- The bytes received are taken request by request: bytes before 0xA5 belong to none, and a rest that is no whole request
stays. -/
def State.uartRun (s : State) : Nat → State
  | 0 => s
  | fuel + 1 =>
    let b := s.boot.uart.dropWhile (· != 0xA5)
    let s := { s with boot := { s.boot with uart := b } }
    let n := if dirField b 1 1 = 2 then 14 else 10
    if b.length < n then s
    else ({ s with boot := { s.boot with uart := b.drop n } }.uartServe (b.take n)).uartRun fuel

/-- 10 ms in Tempo units. -/
def uartGap : Nat := 40000000

/-- Whether a partial request waits since more than 10 ms. -/
def State.uartStale (s : State) : Bool := s.boot.uart != [] && decide (s.boot.uartAt + uartGap < s.now)

/-- The partial request is discarded. -/
def State.uartDrop (s : State) : State := { s with boot := { s.boot with uart := [] } }

/-- Bytes arrive on MGMT_UART_RXD. -/
def State.uartIn (s : State) (bytes : List Byte) : State :=
  let s := if s.uartStale then s.uartDrop else s
  let all := s.boot.uart ++ bytes
  { s with boot := { s.boot with uart := all, uartAt := s.now } }.uartRun (all.length + 1)

def execUartRequest (dt : Nat) (bytes : Bytes) (s : State) : Res :=
  evCmd dt (fun s => 2 ≤ s.boot.step) (fun s => s.uartIn bytes) s

def execUartGapTimeout (dt : Nat) (s : State) : Res := evCmd dt State.uartStale State.uartDrop s

end Sys2Proof.Machine
end

