-- ==== Sys2Proof/Machine/Deliver.lean ====
section
/-! DEFINITION. Delivery by the event fabric (13 R355–R357): channels, the repeat guard, and the firing of tasks. -/

namespace Sys2Proof.Machine

/-- Whether a trigger of a task joins one of the same cycle: a doorbell of the channel in this PIX cycle, be it a register write (R386). -/
def State.taskMerges (s : State) (t : Nat) : Bool :=
  match consumerOf t with
  | .dma c 0 => s.rungNow c
  | _ => false

/-- A task receives an event presented in TMP cycle `cyc` (R356): the second one of a cycle is merged, and one that finds its
consumer busy is absorbed. -/
def State.taskEvent (s : State) (cyc t : Nat) : State :=
  if Sparse.get (fun _ => none) s.evf.fired t = some cyc || s.taskMerges t then s.coalesce t
  else
    let s := { s with evf := { s.evf with fired := Sparse.set (fun _ => none) s.evf.fired t (some cyc) } }
    if s.taskBusy t then (s.taskAbsorbed t).absorb t
    else s.taskTrigger t

/-- The cycle of the event that a channel delivered last. -/
def State.guardOf (s : State) (n : Nat) : Option Nat := Sparse.get (fun _ => none) s.evf.guards n

/-- Whether a channel's repeat guard drops an event of source `src` presented in cycle `cyc` (R357). -/
def State.guardDrops (s : State) (n src cyc : Nat) : Bool :=
  derivedSource src && match s.guardOf n with
    | some t => decide (t + 1 ≤ cyc) && decide (cyc ≤ t + 8)
    | none => false

/-- The guard drops an event: flag, counts, an entry until LOOP is cleared, and event 33. -/
def State.loopDrop (s : State) (n src : Nat) : State :=
  let s := if s.on (F.EVF_CH_LOOP n) then s else s.logErr siteEvf 0x03 0x020 [n, src]
  (((s.flag (F.EVF_CH_LOOP n)).bump (F.EVF_CH_LOOP_DROPS n)).bump F.EVF_LOOP_DROPS).raise (768 + 33)

/-- A channel with tasks `ts` delivers an event, or its guard drops it (R355, R357). -/
def State.channelEvent (s : State) (n src cyc : Nat) (ts : List Nat) : State :=
  if s.guardDrops n src cyc then s.loopDrop n src
  else
    let s := { s with evf := { s.evf with guards := Sparse.set (fun _ => none) s.evf.guards n (some cyc) } }
    ts.foldl (fun (s : State) t => s.taskEvent cyc t) (s.bump (F.EVF_CH_DELIVERED n))

/-- The state with the active set as it stood in cycle `cyc`, before the commits since (R351). -/
def State.asOf (s : State) (cyc : Nat) : State :=
  (s.evf.before.filter fun p => cyc ≤ p.1).foldr (fun p (s : State) => s.setWord p.2.1 p.2.2) s

/-- The channels whose active route names a source, with their tasks. -/
def State.channelsOf (s : State) (src : Nat) : List (Nat × List Nat) :=
  (s.usedChannels.map fun n => (n, s.activeRoute n)).filterMap fun p =>
    if p.2.source = src && p.2.count != 0 then some (p.1, p.2.tasks) else none

/-- The event presented first is delivered (R355). -/
def State.deliverNext (s : State) : State :=
  match s.presented with
  | [] => s
  | (src, t) :: rest =>
    let cyc := t / 8
    let chans := (s.asOf cyc).channelsOf src
    let s := { s with presented := rest, evf := { s.evf with before := if rest = [] then [] else s.evf.before } }
    chans.foldl (fun (s : State) p => s.channelEvent p.1 src cyc p.2) s

def execEvfEventDelivery (dt : Nat) (s : State) : Res := evCmd dt (fun s => s.presented != []) State.deliverNext s

end Sys2Proof.Machine
end

