-- ==== Sys2Proof/Machine/EngMem.lean ====
section
/-! DEFINITION. The memory instructions of the Cregar engines (12 R324–R332, R335, R336): loads, stores, atomics and vector
accesses. -/

namespace Sys2Proof.Machine

/-! ### Device memory through the data cache (R328, R332) -/

/-- The 64 bytes of a block as memory returns them to an engine; its own write-backs of the block land first (R327). -/
def State.fillBlock (s : State) (e b : Nat) : Option (List Byte) × State :=
  ((s.landAll e (· == b)).settle (64 * b) 64 (some e)).memGet (engPort e) (64 * b) 64

/-- What an access finds in the data cache: a line, with whether it had to be brought in, or a block `b` whose dirty bytes are lost. -/
inductive Found
  | line (l : DLine) (miss : Bool)
  | lost (b : Nat) (l : DLine)

/-- Room for block `b` (R328): 64 sets of eight lines, the set by the block's number (DESIGN CHOICE, assumption 108). A full set evicts
a line that is free; the block and line where its dirty bytes are lost. -/
def State.makeRoom (s : State) (e b : Nat) : Option (Nat × DLine) × State :=
  let set := (s.engine e).dc.filter fun p => p.1 % 64 == b % 64
  if set.length < 8 then (none, s)
  else
    let (v, s) := s.draw
    match set[v.toNat % set.length]? with
    | some p => if p.2.lost then (some p, s) else (none, (s.dropLine e p.1).startBack e p.1 p.2)
    | none => (none, s)

/-- The line of block `b`, brought in on a miss. A clean line with an error is discarded and fetched again; where memory
returned poison, the line's clean bytes are not good. -/
def State.findLine (s : State) (e b : Nat) : Found × State :=
  let fetch := fun (s : State) =>
    match s.makeRoom e b with
    | (some p, s) => (Found.lost p.1 p.2, s)
    | (none, s) =>
      match s.fillBlock e b with
      | (some bs, s) => (Found.line { bytes := bs } true, s)
      | (none, s) => (Found.line { bytes := List.replicate 64 0, clean := false } true, s)
  match s.dline e b with
  | none => fetch s
  | some l =>
    match l.mark with
    | .good => (.line l false, s)
    | .corrected => (.line { l with mark := .good } false, s.bump (F.ENGINE_ECC_CORR e))
    | _ => if l.dirty = 0 then fetch (s.dropLine e b) else (.lost b l, s)

/-- Whether `n` bytes of a line from offset `o` are good: its clean bytes are, or all of them have been stored. -/
def DLine.goodAt (l : DLine) (o n : Nat) : Bool := l.clean || (List.range n).all fun i => l.dirty.getLsbD (o + i)

/-- A line whose clean bytes are fetched again. -/
def DLine.refill (l : DLine) (bs : List Byte) : DLine :=
  { l with clean := true, bytes := (List.range 64).map fun i => if l.dirty.getLsbD i then l.bytes.getD i 0 else bs.getD i 0 }

/-- A line stored into from offset `o` under enables. -/
def DLine.store (l : DLine) (o : Nat) (data : List (Option Byte)) : DLine :=
  let at_ := fun (i : Nat) => if o ≤ i then (data.getD (i - o) none) else none
  { l with
    bytes := (List.range 64).map fun i => (at_ i).getD (l.bytes.getD i 0)
    dirty := (List.range 64).foldl (fun (d : DWord) i => if (at_ i).isSome then d ||| BitVec.ofNat 64 (2 ^ i) else d) l.dirty }

/-- How an access ends: with bytes (none for a store) and whether it missed, or with a fault. -/
inductive Got
  | ok (bs : List Byte) (miss : Bool)
  | fault (cause : Nat) (addr : DWord)

/-- A dirty line with an error goes back as poison, and the engine takes LINE_LOST (R332). -/
def State.loseLine (s : State) (e b : Nat) (l : DLine) : Got × State :=
  (.fault 0x011 (BitVec.ofNat 64 (64 * b)), (s.dropLine e b).startBack e b l)

/-- A load of `n` bytes of device memory. -/
def State.devLoad (s : State) (e a n : Nat) : Got × State :=
  let b := a / 64
  match s.findLine e b with
  | (.lost b l, s) => s.loseLine e b l
  | (.line l miss, s) =>
    let answer := fun (s : State) (l : DLine) => (Got.ok ((l.bytes.drop (a % 64)).take n) miss, s.putLine e b l)
    if l.goodAt (a % 64) n then answer s l
    else if miss then (.fault 0x010 (BitVec.ofNat 64 a), s)
    else match s.fillBlock e b with
      | (some bs, s) => answer s (l.refill bs)
      | (none, s) => (.fault 0x010 (BitVec.ofNat 64 a), s)

/-- A store to device memory under enables: the line is allocated, and its bytes become dirty. -/
def State.devStore (s : State) (e a : Nat) (data : List (Option Byte)) : Got × State :=
  let b := a / 64
  match s.findLine e b with
  | (.lost b l, s) => s.loseLine e b l
  | (.line l miss, s) => (.ok [] miss, s.putLine e b (l.store (a % 64) data))

/-! ### BAR0 (R325, R326) -/

/-- Whether the rights mask refuses an engine a register: the access is refused as any other is, and the engine takes its fault
(R23, R326, R519). -/
def State.maskRefuses (s : State) (e : Fin 192) (off : Nat) (write : Bool) : Bool :=
  !s.granted (.eng e) off write || (!s.secureEngine e && 0x01500000 ≤ off && off < 0x01600000)

/-- A load of 1, 2, 4 or 8 bytes of BAR0: eight only in the nozzle table window (R25). -/
def State.barLoad (s : State) (e : Fin 192) (a : DWord) (off n : Nat) : Got × State :=
  if n = 8 && !inWindow off then (.fault 0x004 a, s)
  else if s.maskRefuses e off false then (.fault 0x040 a, s.refuse (.eng e) off)
  else if n = 8 then
    if s.unitHeld off then (.ok (toBytes 8 0) false, s)
    else
      let (v, s) := s.ntRead (entryOf off)
      (.ok (toBytes 8 v) false, s)
  else
    let (v, s) := s.busRead (.eng e) (off / 4 * 4)
    (.ok (((toBytes 4 (v.getD 0)).drop (off % 4)).take n) false, s)

/-- A store of 1, 2, 4 or 8 bytes to BAR0; one of 1 or 2 is discarded and logged by the HIF (R5). -/
def State.barStore (s : State) (e : Fin 192) (a : DWord) (off n v : Nat) : Got × State :=
  if n = 8 && !inWindow off then (.fault 0x004 a, s)
  else if s.maskRefuses e off true then (.fault 0x040 a, s.refuse (.eng e) off)
  else if n < 4 then (.ok [] false, s.logErr siteHif 0x01 0x001)
  else if n = 8 then
    (.ok [] false, if s.unitHeld off then s else s.ntWindow (.eng e) (entryOf off) (.full (BitVec.ofNat 64 v)))
  else (.ok [] false, (s.busWrite (.eng e) off (BitVec.ofNat 32 v)).2)

/-! ### Scalar accesses (R325, R335) -/

/-- The address of an I-form access (R333). -/
def State.addrI (s : State) (e w : Nat) : DWord := s.sreg e (insA w) + immS 16 (insImm16 w)

/-- A load or an atomic from local or cluster memory. -/
def State.ememLoad (s : State) (e : Nat) (r : Region) (a : DWord) (n : Nat) : Got × State :=
  match s.ememRead e r n with
  | (some bs, s) => (.ok bs false, s)
  | (none, s) => (.fault 0x010 a, s)

/-- The faults of an aligned access that come before it is made: a misaligned address, no region, or a secure memory (R325,
R339, R512). -/
def State.accessFault (s : State) (e : Nat) (a : DWord) (n : Nat) : Option Nat :=
  let r := s.region e a.toNat
  if a.toNat % n ≠ 0 then some 0x003
  else if r = .none then some 0x004
  else if s.engKeptOut e r then some 0x040
  else none

/-- A load of `n` bytes at an address. -/
def State.engLoad (s : State) (e : Fin 192) (a : DWord) (n : Nat) : Got × State :=
  match s.accessFault e a n with
  | some cause => (.fault cause a, s)
  | none => match s.region e a.toNat with
    | .dev => s.devLoad e a.toNat n
    | .bar off => s.barLoad e a off n
    | r => s.ememLoad e r a n

/-- A store of the low `n` bytes of a value at an address. -/
def State.engStore (s : State) (e : Fin 192) (a : DWord) (n v : Nat) : Got × State :=
  match s.accessFault e a n with
  | some cause => (.fault cause a, s)
  | none => match s.region e a.toNat with
    | .dev => s.devStore e a.toNat ((toBytes n v).map some)
    | .bar off => s.barStore e a off n v
    | r => (.ok [] false, s.ememWrite r ((toBytes n v).map some))

/-- What a record says of an access's address (R522). -/
def State.dataOf (s : State) (e : Nat) (a : DWord) : Option (DWord × Nat) := some (a, (s.region e a.toNat).code)

/-- A load: s[d] = m[address], zero-extended. -/
def loadBody (e : Fin 192) (n w : Nat) (s : State) : EngRes :=
  let a := s.addrI e w
  match s.engLoad e a n with
  | (.ok bs miss, t) => .done (t.setS e (insD w) (BitVec.ofNat 64 (ofBytes bs))) (s.dataOf e a) miss
  | (.fault cause addr, t) => .fault t cause addr

/-- A store: m[address] = the low bytes of s[d]. -/
def storeBody (e : Fin 192) (n w : Nat) (s : State) : EngRes :=
  let a := s.addrI e w
  match s.engStore e a n (s.sreg e (insD w)).toNat with
  | (.ok _ miss, t) => .done t (s.dataOf e a) miss
  | (.fault cause addr, t) => .fault t cause addr

def execEngLdb (dt : Nat) (e : Fin 192) (s : State) : Res := engCmd dt e .ldb (loadBody e 1) s
def execEngLdh (dt : Nat) (e : Fin 192) (s : State) : Res := engCmd dt e .ldh (loadBody e 2) s
def execEngLdw (dt : Nat) (e : Fin 192) (s : State) : Res := engCmd dt e .ldw (loadBody e 4) s
def execEngLdd (dt : Nat) (e : Fin 192) (s : State) : Res := engCmd dt e .ldd (loadBody e 8) s
def execEngStb (dt : Nat) (e : Fin 192) (s : State) : Res := engCmd dt e .stb (storeBody e 1) s
def execEngSth (dt : Nat) (e : Fin 192) (s : State) : Res := engCmd dt e .sth (storeBody e 2) s
def execEngStw (dt : Nat) (e : Fin 192) (s : State) : Res := engCmd dt e .stw (storeBody e 4) s
def execEngStd (dt : Nat) (e : Fin 192) (s : State) : Res := engCmd dt e .std (storeBody e 8) s

/-! ### Atomics (R325, R335) -/

/-- Whether a region takes atomics. -/
def Region.atomic : Region → Bool
  | .loc _ _ _ => true
  | .clu _ _ => true
  | _ => false

/-- An atomic on the 8 bytes at s[a]: the new value is made from the old one, none where nothing is stored. -/
def atomicBody (e : Fin 192) (f : Nat → DWord → State → Option DWord) (w : Nat) (s : State) : EngRes :=
  let a := s.sreg e (insA w)
  let r := s.region e a.toNat
  if a.toNat % 8 ≠ 0 then .fault s 0x003 a
  else if !r.atomic then .fault s 0x004 a
  else if s.engKeptOut e r then .fault s 0x040 a
  else match s.ememRead e r 8 with
    | (none, t) => .fault t 0x010 a
    | (some bs, t) =>
      let old := BitVec.ofNat 64 (ofBytes bs)
      let t := match f w old s with
        | some v => t.ememWrite r ((toBytes 8 v.toNat).map some)
        | none => t
      .done (t.setS e (insD w) old) (s.dataOf e a) false

def execEngAmoadd (dt : Nat) (e : Fin 192) (s : State) : Res :=
  engCmd dt e .amoadd (atomicBody e fun w t s => some (t + s.sreg e (insB w))) s

def execEngCas (dt : Nat) (e : Fin 192) (s : State) : Res :=
  engCmd dt e .cas (atomicBody e fun w t s => if t = s.sreg e (insD w) then some (s.sreg e (insB w)) else none) s

/-! ### Vector accesses (R325, R335, R336) -/

/-- The address of a VM-form access (R333). -/
def State.addrVm (s : State) (e w : Nat) : DWord := s.sreg e (insA w) + 64 * immS 13 (insImm13 w)

/-- The faults of a vector access that come before it is made: BAR0 takes none. -/
def State.vectorFault (s : State) (e : Nat) (a : DWord) : Option Nat :=
  match s.accessFault e a 64, s.region e a.toNat with
  | some cause, _ => some cause
  | none, .bar _ => some 0x004
  | none, _ => none

/-- VLD: the active bytes of vd are those of memory. -/
def vldBody (e : Fin 192) (w : Nat) (s : State) : EngRes :=
  let a := s.addrVm e w
  match s.vectorFault e a with
  | some cause => .fault s cause a
  | none =>
    let got := match s.region e a.toNat with
      | .dev => s.devLoad e a.toNat 64
      | r => s.ememLoad e r a 64
    match got with
    | (.fault cause addr, t) => .fault t cause addr
    | (.ok bs miss, t) =>
      .done (t.setV e (insD w) (mergeElems 0 (s.preg e (insPm w)) (s.vreg e (insD w)) fun i => (bs.getD i 0).toNat))
        (s.dataOf e a) miss

/-- The active bytes of a vector. -/
def activeBytes (p : DWord) (v : VWord) : List (Option Byte) :=
  (List.range 64).map fun i => if p.getLsbD i then some (BitVec.ofNat 8 (elem 0 v i)) else none

/-- VST: the active bytes of vd are stored. -/
def vstBody (e : Fin 192) (w : Nat) (s : State) : EngRes :=
  let a := s.addrVm e w
  let data := activeBytes (s.preg e (insPm w)) (s.vreg e (insD w))
  match s.vectorFault e a with
  | some cause => .fault s cause a
  | none =>
    let got := match s.region e a.toNat with
      | .dev => s.devStore e a.toNat data
      | r => (.ok [] false, s.ememWrite r data)
    match got with
    | (.fault cause addr, t) => .fault t cause addr
    | (.ok _ miss, t) => .done t (s.dataOf e a) miss

def execEngVld (dt : Nat) (e : Fin 192) (s : State) : Res := engCmd dt e .vld (vldBody e) s
def execEngVst (dt : Nat) (e : Fin 192) (s : State) : Res := engCmd dt e .vst (vstBody e) s

end Sys2Proof.Machine
end

