-- ==== Sys2Proof/Machine/Publish.lean ====
section
/-! DEFINITION. The end of a DMA SIGNAL (14 R371): the publish write and the event. -/

namespace Sys2Proof.Machine

/-- The 64-bit PTR of a ring is written to PUB_ADDR, low word first; false where the rights refuse it. -/
def State.publishPtr (s : State) (c : Fin 32) (r : Nat) : Bool × State :=
  let off := s.get (F.DMA_CH_PUB_ADDR c)
  let p := s.dmaRingPtr c r
  match s.busWrite (.dma c) off (BitVec.ofNat 32 p) with
  | (false, s) => (false, s)
  | (true, s) => s.busWrite (.dma c) (off + 4) (BitVec.ofNat 32 (p / 2 ^ 32))

/-- The earlier writes are acknowledged: PUB, then EV; a refused publish halts the channel with no event. -/
def State.dmaPublish (s : State) (c : Fin 32) (ev pub : Bool) (r : Nat) : State :=
  let (ok, s) := if pub then s.publishPtr c r else (true, s)
  if ok then
    let s := if ev then s.dmaEvent c else s
    (s.setDma c { s.dmaChan c with signal := none }).dmaNext c 1
  else s.dmaHalt c 0x05 0x050 (s.dmaPc c)

def execSignalPublish (dt : Nat) (c : Fin 32) (s : State) : Res :=
  evCmd dt (fun s => s.dmaState c == dmRunning && (s.dmaChan c).signal.isSome) (fun s =>
    match (s.dmaChan c).signal with
    | some (ev, pub, r) => s.dmaPublish c ev pub r
    | none => s) s

end Sys2Proof.Machine
end

