-- ==== Sys2Proof/Machine/Dispatch.lean ====
section
/-! DEFINITION. The dispatch: one arm per command, each a direct call of its meaning. -/

namespace Sys2Proof.Machine

def exec (i : Instr) (s : State) : Host.Outcome State Fault Refusal :=
  match i with
  | .registerWrite dt who word v => Sys2Proof.Machine.execRegisterWrite dt who word v s
  | .subwordWrite dt who => Sys2Proof.Machine.execSubwordWrite dt who s
  | .rcRead dt who a => Sys2Proof.Machine.execRcRead dt who a s
  | .lowWordRead dt who a => Sys2Proof.Machine.execLowWordRead dt who a s
  | .lowWordWrite dt who word v => Sys2Proof.Machine.execLowWordWrite dt who word v s
  | .highWordWrite dt who word v => Sys2Proof.Machine.execHighWordWrite dt who word v s
  | .logEntryRead dt who ring => Sys2Proof.Machine.execLogEntryRead dt who ring s
  | .msixVectorUnmask dt who f v => Sys2Proof.Machine.execMsixVectorUnmask dt who f v s
  | .busMasterEnableSet dt f => Sys2Proof.Machine.execBusMasterEnableSet dt f s
  | .functionLevelReset dt f => Sys2Proof.Machine.execFunctionLevelReset dt f s
  | .flrComplete dt f => Sys2Proof.Machine.execFlrComplete dt f s
  | .encoderInputEdge dt n line => Sys2Proof.Machine.execEncoderInputEdge dt n line s
  | .encoderTransitionAccepted dt n => Sys2Proof.Machine.execEncoderTransitionAccepted dt n s
  | .standstillTimeout dt n => Sys2Proof.Machine.execStandstillTimeout dt n s
  | .stuckLine dt n lineB => Sys2Proof.Machine.execStuckLine dt n lineB s
  | .levelTimeout dt n lineB => Sys2Proof.Machine.execLevelTimeout dt n lineB s
  | .wcoLoad dt who => Sys2Proof.Machine.execWcoLoad dt who s
  | .wcoSourceWrite dt who src => Sys2Proof.Machine.execWcoSourceWrite dt who src s
  | .snapshotCapture dt trig k => Sys2Proof.Machine.execSnapshotCapture dt trig k s
  | .ssiRequest dt trig m => Sys2Proof.Machine.execSsiRequest dt trig m s
  | .ssiTransferDone dt m frame => Sys2Proof.Machine.execSsiTransferDone dt m frame s
  | .lineLaunch dt g => Sys2Proof.Machine.execLineLaunch dt g s
  | .lineCommit dt g => Sys2Proof.Machine.execLineCommit dt g s
  | .generatorEnable dt who g => Sys2Proof.Machine.execGeneratorEnable dt who g s
  | .generatorDisable dt who g => Sys2Proof.Machine.execGeneratorDisable dt who g s
  | .generatorRestart dt who g => Sys2Proof.Machine.execGeneratorRestart dt who g s
  | .slotArm dt who slot => Sys2Proof.Machine.execSlotArm dt who slot s
  | .slotFire dt slot => Sys2Proof.Machine.execSlotFire dt slot s
  | .cmpRingEnable dt who r => Sys2Proof.Machine.execCmpRingEnable dt who r s
  | .ringProdWrite dt who r hi => Sys2Proof.Machine.execRingProdWrite dt who r hi s
  | .ringResume dt who r => Sys2Proof.Machine.execRingResume dt who r s
  | .ringConsWrite dt who r hi => Sys2Proof.Machine.execRingConsWrite dt who r hi s
  | .recordDispatch dt => Sys2Proof.Machine.execRecordDispatch dt s
  | .inflateStreamEnd dt lane => Sys2Proof.Machine.execInflateStreamEnd dt lane s
  | .planeEnable dt who p => Sys2Proof.Machine.execPlaneEnable dt who p s
  | .dqProdWrite dt who v => Sys2Proof.Machine.execDqProdWrite dt who v s
  | .descriptorDispatch dt => Sys2Proof.Machine.execDescriptorDispatch dt s
  | .deflateComplete dt lane => Sys2Proof.Machine.execDeflateComplete dt lane s
  | .lineRenderStart dt n => Sys2Proof.Machine.execLineRenderStart dt n s
  | .lineRenderEnd dt n => Sys2Proof.Machine.execLineRenderEnd dt n s
  | .snapshotRetire dt n => Sys2Proof.Machine.execSnapshotRetire dt n s
  | .pipeEnable dt who n => Sys2Proof.Machine.execPipeEnable dt who n s
  | .pipeDisable dt who n => Sys2Proof.Machine.execPipeDisable dt who n s
  | .thresholdStoreWrite dt who hi => Sys2Proof.Machine.execThresholdStoreWrite dt who hi s
  | .thresholdStoreRead dt who => Sys2Proof.Machine.execThresholdStoreRead dt who s
  | .slackRst dt who n => Sys2Proof.Machine.execSlackRst dt who n s
  | .ntInit dt who => Sys2Proof.Machine.execNtInit dt who s
  | .ntInitDone dt => Sys2Proof.Machine.execNtInitDone dt s
  | .ntWindowWrite dt who idx w => Sys2Proof.Machine.execNtWindowWrite dt who idx w s
  | .ntWindowRead dt who idx w => Sys2Proof.Machine.execNtWindowRead dt who idx w s
  | .ntRmwUpdate dt who k hi => Sys2Proof.Machine.execNtRmwUpdate dt who k hi s
  | .updatePortApply dt => Sys2Proof.Machine.execUpdatePortApply dt s
  | .scrubVisit dt => Sys2Proof.Machine.execScrubVisit dt s
  | .overspeedRecord dt bar => Sys2Proof.Machine.execOverspeedRecord dt bar s
  | .inhibitEnd dt => Sys2Proof.Machine.execInhibitEnd dt s
  | .overspeedPolicyWrite dt who inhibit => Sys2Proof.Machine.execOverspeedPolicyWrite dt who inhibit s
  | .packedDataArrival dt x => Sys2Proof.Machine.execPackedDataArrival dt x s
  | .headLineSend dt x => Sys2Proof.Machine.execHeadLineSend dt x s
  | .latchAckReceive dt x status line => Sys2Proof.Machine.execLatchAckReceive dt x status line s
  | .strobeDecision dt x => Sys2Proof.Machine.execStrobeDecision dt x s
  | .strobeStart dt x => Sys2Proof.Machine.execStrobeStart dt x s
  | .strobeEnd dt x => Sys2Proof.Machine.execStrobeEnd dt x s
  | .ackTimeout dt x => Sys2Proof.Machine.execAckTimeout dt x s
  | .flagFall dt x stuck => Sys2Proof.Machine.execFlagFall dt x stuck s
  | .flgStopped dt => Sys2Proof.Machine.execFlgStopped dt s
  | .flgResume dt who edges => Sys2Proof.Machine.execFlgResume dt who edges s
  | .flagFallClear dt who x high => Sys2Proof.Machine.execFlagFallClear dt who x high s
  | .headEnable dt who x => Sys2Proof.Machine.execHeadEnable dt who x s
  | .headDisable dt why x => Sys2Proof.Machine.execHeadDisable dt why x s
  | .cicOutput dt c bits => Sys2Proof.Machine.execCicOutput dt c bits s
  | .channelRestart dt c => Sys2Proof.Machine.execChannelRestart dt c s
  | .scanArm dt who slot => Sys2Proof.Machine.execScanArm dt who slot s
  | .scanAbort dt who slot => Sys2Proof.Machine.execScanAbort dt who slot s
  | .resultRecordWrite dt => Sys2Proof.Machine.execResultRecordWrite dt s
  | .hbChainEnable dt who k => Sys2Proof.Machine.execHbChainEnable dt who k s
  | .cinPortEnable dt who n => Sys2Proof.Machine.execCinPortEnable dt who n s
  | .cinPortDisable dt who n => Sys2Proof.Machine.execCinPortDisable dt who n s
  | .cameraPacketReceive dt n pkt => Sys2Proof.Machine.execCameraPacketReceive dt n pkt s
  | .expCommit dt who n => Sys2Proof.Machine.execExpCommit dt who n s
  | .telemetrySilent dt n => Sys2Proof.Machine.execTelemetrySilent dt n s
  | .iplEnable dt who => Sys2Proof.Machine.execIplEnable dt who s
  | .iplDisable dt who => Sys2Proof.Machine.execIplDisable dt who s
  | .rruEnable dt who => Sys2Proof.Machine.execRruEnable dt who s
  | .rruDisable dt who => Sys2Proof.Machine.execRruDisable dt who s
  | .stitchedLineForm dt => Sys2Proof.Machine.execStitchedLineForm dt s
  | .referenceLineStart dt => Sys2Proof.Machine.execReferenceLineStart dt s
  | .referenceLineComplete dt => Sys2Proof.Machine.execReferenceLineComplete dt s
  | .iplTableAccess dt who data => Sys2Proof.Machine.execIplTableAccess dt who data s
  | .dfqAdmit dt => Sys2Proof.Machine.execDfqAdmit dt s
  | .dfqRecordTake dt who => Sys2Proof.Machine.execDfqRecordTake dt who s
  | .dropRest dt who => Sys2Proof.Machine.execDropRest dt who s
  | .flush dt who => Sys2Proof.Machine.execFlush dt who s
  | .pushCommit dt who => Sys2Proof.Machine.execPushCommit dt who s
  | .drainPacketWrite dt => Sys2Proof.Machine.execDrainPacketWrite dt s
  | .fabGo dt who => Sys2Proof.Machine.execFabGo dt who s
  | .verifyPassEnd dt => Sys2Proof.Machine.execVerifyPassEnd dt s
  | .applyPassEnd dt => Sys2Proof.Machine.execApplyPassEnd dt s
  | .fabAbort dt who => Sys2Proof.Machine.execFabAbort dt who s
  | .fabArm dt who => Sys2Proof.Machine.execFabArm dt who s
  | .armCheckEnd dt => Sys2Proof.Machine.execArmCheckEnd dt s
  | .spliceWcoWrite dt who hi => Sys2Proof.Machine.execSpliceWcoWrite dt who hi s
  | .stationSwitch dt st => Sys2Proof.Machine.execStationSwitch dt st s
  | .commitQueueWrite dt => Sys2Proof.Machine.execCommitQueueWrite dt s
  | .fabRearm dt who => Sys2Proof.Machine.execFabRearm dt who s
  | .twinSpliceDecision dt => Sys2Proof.Machine.execTwinSpliceDecision dt s
  | .twinSpliceMessage dt msg tagOk => Sys2Proof.Machine.execTwinSpliceMessage dt msg tagOk s
  | .engAdd dt e => Sys2Proof.Machine.execEngAdd dt e s
  | .engSub dt e => Sys2Proof.Machine.execEngSub dt e s
  | .engAnd dt e => Sys2Proof.Machine.execEngAnd dt e s
  | .engOr dt e => Sys2Proof.Machine.execEngOr dt e s
  | .engXor dt e => Sys2Proof.Machine.execEngXor dt e s
  | .engSll dt e => Sys2Proof.Machine.execEngSll dt e s
  | .engSrl dt e => Sys2Proof.Machine.execEngSrl dt e s
  | .engSra dt e => Sys2Proof.Machine.execEngSra dt e s
  | .engSlt dt e => Sys2Proof.Machine.execEngSlt dt e s
  | .engSltu dt e => Sys2Proof.Machine.execEngSltu dt e s
  | .engMin dt e => Sys2Proof.Machine.execEngMin dt e s
  | .engMax dt e => Sys2Proof.Machine.execEngMax dt e s
  | .engPopc dt e => Sys2Proof.Machine.execEngPopc dt e s
  | .engMul dt e => Sys2Proof.Machine.execEngMul dt e s
  | .engDiv dt e => Sys2Proof.Machine.execEngDiv dt e s
  | .engDivu dt e => Sys2Proof.Machine.execEngDivu dt e s
  | .engRem dt e => Sys2Proof.Machine.execEngRem dt e s
  | .engRemu dt e => Sys2Proof.Machine.execEngRemu dt e s
  | .engAddi dt e => Sys2Proof.Machine.execEngAddi dt e s
  | .engAndi dt e => Sys2Proof.Machine.execEngAndi dt e s
  | .engOri dt e => Sys2Proof.Machine.execEngOri dt e s
  | .engSlli dt e => Sys2Proof.Machine.execEngSlli dt e s
  | .engSrli dt e => Sys2Proof.Machine.execEngSrli dt e s
  | .engSrai dt e => Sys2Proof.Machine.execEngSrai dt e s
  | .engIns16 dt e => Sys2Proof.Machine.execEngIns16 dt e s
  | .engExt dt e => Sys2Proof.Machine.execEngExt dt e s
  | .engLdb dt e => Sys2Proof.Machine.execEngLdb dt e s
  | .engLdh dt e => Sys2Proof.Machine.execEngLdh dt e s
  | .engLdw dt e => Sys2Proof.Machine.execEngLdw dt e s
  | .engLdd dt e => Sys2Proof.Machine.execEngLdd dt e s
  | .engStb dt e => Sys2Proof.Machine.execEngStb dt e s
  | .engSth dt e => Sys2Proof.Machine.execEngSth dt e s
  | .engStw dt e => Sys2Proof.Machine.execEngStw dt e s
  | .engStd dt e => Sys2Proof.Machine.execEngStd dt e s
  | .engAmoadd dt e => Sys2Proof.Machine.execEngAmoadd dt e s
  | .engCas dt e => Sys2Proof.Machine.execEngCas dt e s
  | .engBeq dt e => Sys2Proof.Machine.execEngBeq dt e s
  | .engBne dt e => Sys2Proof.Machine.execEngBne dt e s
  | .engBlt dt e => Sys2Proof.Machine.execEngBlt dt e s
  | .engBge dt e => Sys2Proof.Machine.execEngBge dt e s
  | .engBltu dt e => Sys2Proof.Machine.execEngBltu dt e s
  | .engBgeu dt e => Sys2Proof.Machine.execEngBgeu dt e s
  | .engJ dt e => Sys2Proof.Machine.execEngJ dt e s
  | .engJal dt e => Sys2Proof.Machine.execEngJal dt e s
  | .engJalr dt e => Sys2Proof.Machine.execEngJalr dt e s
  | .engFence dt e => Sys2Proof.Machine.execEngFence dt e s
  | .engIsync dt e => Sys2Proof.Machine.execEngIsync dt e s
  | .engWait dt e => Sys2Proof.Machine.execEngWait dt e s
  | .engWaitEnd dt e => Sys2Proof.Machine.execEngWaitEnd dt e s
  | .engSignal dt e => Sys2Proof.Machine.execEngSignal dt e s
  | .engRdsys dt e => Sys2Proof.Machine.execEngRdsys dt e s
  | .engHalt dt e => Sys2Proof.Machine.execEngHalt dt e s
  | .engDcClean dt e => Sys2Proof.Machine.execEngDcClean dt e s
  | .engDcInv dt e => Sys2Proof.Machine.execEngDcInv dt e s
  | .engDcCinv dt e => Sys2Proof.Machine.execEngDcCinv dt e s
  | .engDcCleanall dt e => Sys2Proof.Machine.execEngDcCleanall dt e s
  | .engIcInvall dt e => Sys2Proof.Machine.execEngIcInvall dt e s
  | .engVadd dt e => Sys2Proof.Machine.execEngVadd dt e s
  | .engVsub dt e => Sys2Proof.Machine.execEngVsub dt e s
  | .engVmul dt e => Sys2Proof.Machine.execEngVmul dt e s
  | .engVmin dt e => Sys2Proof.Machine.execEngVmin dt e s
  | .engVmax dt e => Sys2Proof.Machine.execEngVmax dt e s
  | .engVand dt e => Sys2Proof.Machine.execEngVand dt e s
  | .engVor dt e => Sys2Proof.Machine.execEngVor dt e s
  | .engVshl dt e => Sys2Proof.Machine.execEngVshl dt e s
  | .engVshr dt e => Sys2Proof.Machine.execEngVshr dt e s
  | .engVabsd dt e => Sys2Proof.Machine.execEngVabsd dt e s
  | .engVcmpeq dt e => Sys2Proof.Machine.execEngVcmpeq dt e s
  | .engVcmplt dt e => Sys2Proof.Machine.execEngVcmplt dt e s
  | .engVsel dt e => Sys2Proof.Machine.execEngVsel dt e s
  | .engVredadd dt e => Sys2Proof.Machine.execEngVredadd dt e s
  | .engVbcast dt e => Sys2Proof.Machine.execEngVbcast dt e s
  | .engVextr dt e => Sys2Proof.Machine.execEngVextr dt e s
  | .engPand dt e => Sys2Proof.Machine.execEngPand dt e s
  | .engPnot dt e => Sys2Proof.Machine.execEngPnot dt e s
  | .engVld dt e => Sys2Proof.Machine.execEngVld dt e s
  | .engVst dt e => Sys2Proof.Machine.execEngVst dt e s
  | .engIllegal dt e => Sys2Proof.Machine.execEngIllegal dt e s
  | .engStart dt who w v => Sys2Proof.Machine.execEngStart dt who w v s
  | .engStop dt who w v => Sys2Proof.Machine.execEngStop dt who w v s
  | .stopComplete dt e => Sys2Proof.Machine.execStopComplete dt e s
  | .engOff dt who w v => Sys2Proof.Machine.execEngOff dt who w v s
  | .offComplete dt e => Sys2Proof.Machine.execOffComplete dt e s
  | .engInitDone dt => Sys2Proof.Machine.execEngInitDone dt s
  | .evfEventDelivery dt => Sys2Proof.Machine.execEvfEventDelivery dt s
  | .evfTimerExpire dt t => Sys2Proof.Machine.execEvfTimerExpire dt t s
  | .evfPendingWrite dt who n word value => Sys2Proof.Machine.execEvfPendingWrite dt who n word value s
  | .evfCommit dt who => Sys2Proof.Machine.execEvfCommit dt who s
  | .commitCheckEnd dt => Sys2Proof.Machine.execCommitCheckEnd dt s
  | .dmaDoorbell dt trig c => Sys2Proof.Machine.execDmaDoorbell dt trig c s
  | .dmaMove dt c f => Sys2Proof.Machine.execDmaMove dt c f s
  | .dmaMoveComplete dt c host => Sys2Proof.Machine.execDmaMoveComplete dt c host s
  | .dmaLoop dt c f => Sys2Proof.Machine.execDmaLoop dt c f s
  | .dmaWait dt c f => Sys2Proof.Machine.execDmaWait dt c f s
  | .dmaWaitEnd dt c => Sys2Proof.Machine.execDmaWaitEnd dt c s
  | .dmaSignal dt c f => Sys2Proof.Machine.execDmaSignal dt c f s
  | .signalPublish dt c => Sys2Proof.Machine.execSignalPublish dt c s
  | .dmaJump dt c f => Sys2Proof.Machine.execDmaJump dt c f s
  | .dmaEnd dt c f => Sys2Proof.Machine.execDmaEnd dt c f s
  | .dmaIllegal dt c f => Sys2Proof.Machine.execDmaIllegal dt c f s
  | .dmaBusError dt c blk kind host => Sys2Proof.Machine.execDmaBusError dt c blk kind host s
  | .dmaStop dt who c host => Sys2Proof.Machine.execDmaStop dt who c host s
  | .dmaResume dt who c => Sys2Proof.Machine.execDmaResume dt who c s
  | .dmaSkip dt who c => Sys2Proof.Machine.execDmaSkip dt who c s
  | .dmaStopComplete dt c => Sys2Proof.Machine.execDmaStopComplete dt c s
  | .memOpen dt who => Sys2Proof.Machine.execMemOpen dt who s
  | .slotSwap dt who => Sys2Proof.Machine.execSlotSwap dt who s
  | .slotTableSwap dt => Sys2Proof.Machine.execSlotTableSwap dt s
  | .arbitrationSlot dt n inp => Sys2Proof.Machine.execArbitrationSlot dt n inp s
  | .grantFlagFall dt n => Sys2Proof.Machine.execGrantFlagFall dt n s
  | .memoryRead dt port blk q => Sys2Proof.Machine.execMemoryRead dt port blk q s
  | .memoryWrite dt port blk data poison q => Sys2Proof.Machine.execMemoryWrite dt port blk data poison q s
  | .rowClose dt n bank => Sys2Proof.Machine.execRowClose dt n bank s
  | .refresh dt n bank => Sys2Proof.Machine.execRefresh dt n bank s
  | .refreshWindowEnd dt n => Sys2Proof.Machine.execRefreshWindowEnd dt n s
  | .selfRefreshEntry dt n => Sys2Proof.Machine.execSelfRefreshEntry dt n s
  | .trackingWindow dt n drift => Sys2Proof.Machine.execTrackingWindow dt n drift s
  | .retrain dt who n => Sys2Proof.Machine.execRetrain dt who n s
  | .retrainStep dt n found => Sys2Proof.Machine.execRetrainStep dt n found s
  | .channelFence dt who n => Sys2Proof.Machine.execChannelFence dt who n s
  | .bootTrainingEnd dt found => Sys2Proof.Machine.execBootTrainingEnd dt found s
  | .memoryZeroingEnd dt => Sys2Proof.Machine.execMemoryZeroingEnd dt s
  | .fvlPortEnable dt who p v => Sys2Proof.Machine.execFvlPortEnable dt who p v s
  | .fvlPortDisable dt who p v => Sys2Proof.Machine.execFvlPortDisable dt who p v s
  | .fvlClockDone dt p => Sys2Proof.Machine.execFvlClockDone dt p s
  | .ts1Receive dt p lane head os => Sys2Proof.Machine.execTs1Receive dt p lane head os s
  | .ts2Receive dt p os => Sys2Proof.Machine.execTs2Receive dt p os s
  | .fvlTrainTimeout dt p => Sys2Proof.Machine.execFvlTrainTimeout dt p s
  | .fvlConfigTimeout dt p => Sys2Proof.Machine.execFvlConfigTimeout dt p s
  | .fvlRateRoundTimeout dt p => Sys2Proof.Machine.execFvlRateRoundTimeout dt p s
  | .fvlRetrain dt who p => Sys2Proof.Machine.execFvlRetrain dt who p s
  | .fvlRetrainTimeout dt p => Sys2Proof.Machine.execFvlRetrainTimeout dt p s
  | .fvlUpshift dt who p => Sys2Proof.Machine.execFvlUpshift dt who p s
  | .fvlSleepEntry dt p => Sys2Proof.Machine.execFvlSleepEntry dt p s
  | .fvlWake dt p => Sys2Proof.Machine.execFvlWake dt p s
  | .dataFrameReceive dt p frame => Sys2Proof.Machine.execDataFrameReceive dt p frame s
  | .ackReceive dt p seq => Sys2Proof.Machine.execAckReceive dt p seq s
  | .nakReceive dt p seq => Sys2Proof.Machine.execNakReceive dt p seq s
  | .creditReceive dt p cls freed => Sys2Proof.Machine.execCreditReceive dt p cls freed s
  | .ackDue dt p => Sys2Proof.Machine.execAckDue dt p s
  | .creditReturn dt p cls => Sys2Proof.Machine.execCreditReturn dt p cls s
  | .replayTimeout dt p => Sys2Proof.Machine.execReplayTimeout dt p s
  | .postedWriteReceive dt p addr vals => Sys2Proof.Machine.execPostedWriteReceive dt p addr vals s
  | .readReceive dt p src tag => Sys2Proof.Machine.execReadReceive dt p src tag s
  | .completionReceive dt p tag status vals => Sys2Proof.Machine.execCompletionReceive dt p tag status vals s
  | .eventReceive dt p src code => Sys2Proof.Machine.execEventReceive dt p src code s
  | .timeExchange dt p => Sys2Proof.Machine.execTimeExchange dt p s
  | .timePongReceive dt p tag turnaround => Sys2Proof.Machine.execTimePongReceive dt p tag turnaround s
  | .pongTimeout dt p => Sys2Proof.Machine.execPongTimeout dt p s
  | .mailboxGo dt who v => Sys2Proof.Machine.execMailboxGo dt who v s
  | .mailboxTimeout dt => Sys2Proof.Machine.execMailboxTimeout dt s
  | .pcieLinkUp dt rate width => Sys2Proof.Machine.execPcieLinkUp dt rate width s
  | .pcieLinkDown dt => Sys2Proof.Machine.execPcieLinkDown dt s
  | .pciePerst dt => Sys2Proof.Machine.execPciePerst dt s
  | .bar2Read dt f off len => Sys2Proof.Machine.execBar2Read dt f off len s
  | .bar2Write dt f off bytes => Sys2Proof.Machine.execBar2Write dt f off bytes s
  | .gpioEdge dt k level => Sys2Proof.Machine.execGpioEdge dt k level s
  | .gpioOutSet dt who v => Sys2Proof.Machine.execGpioOutSet dt who v s
  | .gpioOutClr dt who v => Sys2Proof.Machine.execGpioOutClr dt who v s
  | .i2cGo dt who => Sys2Proof.Machine.execI2cGo dt who s
  | .i2cTransferEnd dt outcome rdata => Sys2Proof.Machine.execI2cTransferEnd dt outcome rdata s
  | .i2cStretchTimeout dt rdata => Sys2Proof.Machine.execI2cStretchTimeout dt rdata s
  | .ethLinkChange dt n up anDone => Sys2Proof.Machine.execEthLinkChange dt n up anDone s
  | .ethFrameReceive dt n fcsOk bytes => Sys2Proof.Machine.execEthFrameReceive dt n fcsOk bytes s
  | .txProdWrite dt who n q v => Sys2Proof.Machine.execTxProdWrite dt who n q v s
  | .frameTransmit dt n q host => Sys2Proof.Machine.execFrameTransmit dt n q host s
  | .tsqTake dt who => Sys2Proof.Machine.execTsqTake dt who s
  | .ptpStep dt who hi => Sys2Proof.Machine.execPtpStep dt who hi s
  | .ptpRateWrite dt who v => Sys2Proof.Machine.execPtpRateWrite dt who v s
  | .syncLossTimeout dt => Sys2Proof.Machine.execSyncLossTimeout dt s
  | .holdoverClear dt who => Sys2Proof.Machine.execHoldoverClear dt who s
  | .mapPair dt => Sys2Proof.Machine.execMapPair dt s
  | .mapSnap dt who => Sys2Proof.Machine.execMapSnap dt who s
  | .twnEnable dt who => Sys2Proof.Machine.execTwnEnable dt who s
  | .twnDisable dt who => Sys2Proof.Machine.execTwnDisable dt who s
  | .pairingEnd dt r => Sys2Proof.Machine.execPairingEnd dt r s
  | .heartbeatSend dt eth => Sys2Proof.Machine.execHeartbeatSend dt eth s
  | .heartbeatReceive dt eth tagOk hb => Sys2Proof.Machine.execHeartbeatReceive dt eth tagOk hb s
  | .heartbeatPathLost dt eth => Sys2Proof.Machine.execHeartbeatPathLost dt eth s
  | .partnerLost dt => Sys2Proof.Machine.execPartnerLost dt s
  | .castlingClaimsDone dt => Sys2Proof.Machine.execCastlingClaimsDone dt s
  | .signatureSend dt => Sys2Proof.Machine.execSignatureSend dt s
  | .signatureReceive dt entries => Sys2Proof.Machine.execSignatureReceive dt entries s
  | .signatureWaitTimeout dt => Sys2Proof.Machine.execSignatureWaitTimeout dt s
  | .ntUpdateReceive dt entries => Sys2Proof.Machine.execNtUpdateReceive dt entries s
  | .ringDataReceive dt r bytes => Sys2Proof.Machine.execRingDataReceive dt r bytes s
  | .defectMessageReceive dt words => Sys2Proof.Machine.execDefectMessageReceive dt words s
  | .castle dt who => Sys2Proof.Machine.execCastle dt who s
  | .castleMessageReceive dt msg tagOk => Sys2Proof.Machine.execCastleMessageReceive dt msg tagOk s
  | .castleAckTimeout dt => Sys2Proof.Machine.execCastleAckTimeout dt s
  | .secEnrol dt who => Sys2Proof.Machine.execSecEnrol dt who s
  | .secRevoke dt who => Sys2Proof.Machine.execSecRevoke dt who s
  | .secSecureBoot dt who => Sys2Proof.Machine.execSecSecureBoot dt who s
  | .secSetDomain dt who => Sys2Proof.Machine.execSecSetDomain dt who s
  | .secAttest dt who => Sys2Proof.Machine.execSecAttest dt who s
  | .secCommandEnd dt fuses => Sys2Proof.Machine.execSecCommandEnd dt fuses s
  | .domainLock dt who v => Sys2Proof.Machine.execDomainLock dt who v s
  | .sensorConversion dt temps => Sys2Proof.Machine.execSensorConversion dt temps s
  | .calRun dt who => Sys2Proof.Machine.execCalRun dt who s
  | .calPhaseEnd dt r => Sys2Proof.Machine.execCalPhaseEnd dt r s
  | .thermalTrip dt => Sys2Proof.Machine.execThermalTrip dt s
  | .pmuFreeze dt who on => Sys2Proof.Machine.execPmuFreeze dt who on s
  | .pmuClear dt who => Sys2Proof.Machine.execPmuClear dt who s
  | .bandwidthWindowEnd dt => Sys2Proof.Machine.execBandwidthWindowEnd dt s
  | .pwrGoodFall dt => Sys2Proof.Machine.execPwrGoodFall dt s
  | .powerOnResetEnd dt powerLost => Sys2Proof.Machine.execPowerOnResetEnd dt powerLost s
  | .sysRstNAssert dt => Sys2Proof.Machine.execSysRstNAssert dt s
  | .deviceResetEnd dt bootSel => Sys2Proof.Machine.execDeviceResetEnd dt bootSel s
  | .bootStepEnd dt failed => Sys2Proof.Machine.execBootStepEnd dt failed s
  | .flashImageReadEnd dt dir image => Sys2Proof.Machine.execFlashImageReadEnd dt dir image s
  | .bootGo dt who => Sys2Proof.Machine.execBootGo dt who s
  | .uartRequest dt bytes => Sys2Proof.Machine.execUartRequest dt bytes s
  | .uartGapTimeout dt => Sys2Proof.Machine.execUartGapTimeout dt s
  | .fvlDownHoldoffEnd dt p => Sys2Proof.Machine.execFvlDownHoldoffEnd dt p s
  | .rateChangePauseEnd dt p => Sys2Proof.Machine.execRateChangePauseEnd dt p s
  | .syncHeaderError dt p lane => Sys2Proof.Machine.execSyncHeaderError dt p lane s
  | .alignReceive dt p inRow => Sys2Proof.Machine.execAlignReceive dt p inRow s
  | .sdsReceive dt p => Sys2Proof.Machine.execSdsReceive dt p s
  | .eiosReceive dt p => Sys2Proof.Machine.execEiosReceive dt p s
  | .wakeReceive dt p relocks => Sys2Proof.Machine.execWakeReceive dt p relocks s
  | .fencedTrainingEnd dt n found => Sys2Proof.Machine.execFencedTrainingEnd dt n found s
  | .flashReadTimeout dt dir => Sys2Proof.Machine.execFlashReadTimeout dt dir s
  | .pmuCounterWrap dt c => Sys2Proof.Machine.execPmuCounterWrap dt c s
  | .dramHighTemperature dt n hot => Sys2Proof.Machine.execDramHighTemperature dt n hot s

end Sys2Proof.Machine
end

