-- ==== Sys2Proof/Safety.lean ====
section
/-! DEFINITION. The notions in which claims are stated: when a command is taken, the canonical form of memory and of the register
file, and the conditions that keep a device in reset. -/

namespace Sys2Proof.Machine

/-- The canonical form of device memory: addresses strictly rising, no entry equal to what an unlisted address reads as, and the
same for the blocks that ECC finds at fault. -/
def Memory.wf (s : State) : Bool := Sparse.wf s.byteDefault s.mem.bytes && Sparse.wf s.flawDefault s.mem.flaws

/-- The canonical form of the register file: no entry holds its reset value. -/
def Registers.wf (s : State) : Bool := Sparse.wf regReset s.regs

/-- A write by `who` to the register at `off` is taken: no reset holds the device or the function, the rights allow the write
(R21), and the unit is not held in reset (R542). -/
def State.TakesWrite (s : State) (who : Requester) (off : Nat) : Prop :=
  s.held = false ∧ s.inReset who = false ∧ s.allowed who off true = true ∧ s.unitHeld off = false

/-- A read by `who` of the register at `off` is taken. -/
def State.TakesRead (s : State) (who : Requester) (off : Nat) : Prop :=
  s.held = false ∧ s.inReset who = false ∧ s.allowed who off false = true ∧ s.unitHeld off = false

/-- Engine `e` issues the instruction `o`, which word `w` at its PC spells; `u` is the state once the word is fetched and the
cache has made its free moves, with no dirty line lost (R328, R332, R334). -/
def State.Runs (s : State) (e : Nat) (o : Op) (w : Nat) (u : State) : Prop :=
  s.held = false ∧ s.issuing e = true
    ∧ ∃ f, s.engFetch e = (.ok w, f) ∧ cregar w = some o ∧ f.cacheMoves e = (none, u)

/-- The result `r` of an instruction that ran in `u`, with the PC at the next instruction and the instruction retired. -/
def State.retired (u : State) (e : Nat) (o : Op) (w : Nat) (r : State) : State :=
  r.engDone e (u.sampleOf e o w none false false) o (u.pc e + 4)

/-- As `retired`, after an access that is in the record and may have missed the cache. -/
def State.retiredAccess (u : State) (e : Nat) (o : Op) (w : Nat) (a : DWord) (miss : Bool) (r : State) : State :=
  (if miss then r.tally 0x0B e 3 else r).engDone e (u.sampleOf e o w (u.dataOf e a) miss false) o (u.pc e + 4)

/-- What a V-form instruction writes to vd (R336): the active elements take `f`, the others stay. -/
def vecResult (f : Nat → Bool → Nat → Nat → Nat) (u : State) (e w : Nat) : VWord :=
  mergeElems (insEsz w) (u.preg e (insPm w)) (u.vreg e (insD w)) fun i =>
    f (insEsz w) (insU w) (elem (insEsz w) (u.vreg e (insA w)) i) (elem (insEsz w) (u.vreg e (insB w)) i)

/-- What a comparison of vectors writes to a predicate register (R336). -/
def predResult (f : Nat → Bool → Nat → Nat → Bool) (u : State) (e w : Nat) : DWord :=
  ofFlags (insEsz w) (u.preg e (insPm w)) fun i =>
    f (insEsz w) (insU w) (elem (insEsz w) (u.vreg e (insA w)) i) (elem (insEsz w) (u.vreg e (insB w)) i)

/-- What VLD writes to vd: the active bytes of those read, the others as they were. -/
def loadedVec (u : State) (e w : Nat) (bs : List Byte) : VWord :=
  mergeElems 0 (u.preg e (insPm w)) (u.vreg e (insD w)) fun i => (bs.getD i 0).toNat

/-- Whether an engine can fetch at a branch target: aligned, and in a region marked for fetch. -/
def State.goodTarget (u : State) (e : Nat) (target : DWord) : Prop :=
  target.toNat % 4 = 0 ∧ u.fetchable e target.toNat = true

/-- Channel `c` takes the instruction with opcode `op` at its PC, its words being `ws`; `u` is the state once they are read
(R366, R367). -/
def State.DmaTakes (s : State) (c op : Nat) (f : Fetches) (ws : List Nat) (u : State) : Prop :=
  s.held = false ∧ s.dmaReady c = true
    ∧ ∃ w more f' f'' v,
      (s.dmaUndecoded c).dmaWord c (s.dmaPc c) f = (some w, f', v)
        ∧ dmaValid w = true ∧ bits w 3 0 = op
        ∧ (v.dmaDecoded c w).dmaWords c (v.dmaPc c + 8) f' (dmaLength w - 1)
          = (some more, f'', u)
        ∧ ws = w :: more

/-- A device that its thermal trip has put into reset (R518). -/
def State.Tripped (s : State) : Prop := s.boot.tripped = true ∧ s.boot.step = 0

/-- The commands that move the device into or out of its resets (R532, R518). -/
def resetCommand : Instr → Bool
  | .thermalTrip _ | .pwrGoodFall _ | .powerOnResetEnd _ _ | .sysRstNAssert _ | .deviceResetEnd _ _ => true
  | _ => false

/-- The memory commands that leave the channel map alone (15). -/
def memoryCommand : Instr → Bool
  | .memoryRead _ _ _ _ | .memoryWrite _ _ _ _ _ _ | .memoryZeroingEnd _ | .fencedTrainingEnd _ _ _ | .arbitrationSlot _ _ _
  | .grantFlagFall _ _ | .rowClose _ _ _ | .refresh _ _ _ | .refreshWindowEnd _ _ | .selfRefreshEntry _ _
  | .trackingWindow _ _ _ | .retrainStep _ _ _ | .slotTableSwap _ | .dramHighTemperature _ _ _ => true
  | _ => false

/-- A register access: the Tempo that passes before it, its requester, its offset, and whether it writes. -/
structure RegAccess where
  dt : Nat
  who : Requester
  off : Nat
  write : Bool
  deriving DecidableEq, Repr

/-- The register access that a command is; none for one that is an event of the device, of a partner or of a task. -/
def accessOf : Instr → Option RegAccess
  | .registerWrite dt who word _ => some ⟨dt, who, 4 * word.toNat, true⟩
  | .rcRead dt who a => some ⟨dt, who, a.off, false⟩
  | .lowWordRead dt who a => some ⟨dt, who, a.off, false⟩
  | .lowWordWrite dt who word _ => some ⟨dt, who, 4 * word.toNat, true⟩
  | .highWordWrite dt who word _ => some ⟨dt, who, 4 * word.toNat, true⟩
  | .logEntryRead dt who ring => some ⟨dt, who, 4 * (BitVec.ofNat 24 ((logRings.getD ring 0 + 0x40) / 4)).toNat, false⟩
  | .msixVectorUnmask dt who f v => some ⟨dt, who, O.MSIX_CTRL f v, true⟩
  | .wcoLoad dt who => some ⟨dt, who, O.WTU_CTRL, true⟩
  | .wcoSourceWrite dt who _ => some ⟨dt, who, O.WTU_CTRL, true⟩
  | .snapshotCapture dt (.reg who) k => some ⟨dt, who, O.WTU_SNAP_CTRL k, true⟩
  | .ssiRequest dt (.reg who) m => some ⟨dt, who, O.WTU_SSI_REQ m, true⟩
  | .generatorEnable dt who g => some ⟨dt, who, O.WTU_LG_CTRL g, true⟩
  | .generatorDisable dt who g => some ⟨dt, who, O.WTU_LG_CTRL g, true⟩
  | .generatorRestart dt who g => some ⟨dt, who, O.WTU_LG_CTRL g, true⟩
  | .slotArm dt who slot => some ⟨dt, who, O.WTU_SLOT_CTRL slot, true⟩
  | .cmpRingEnable dt who r => some ⟨dt, who, O.CMP_RING_CFG r, true⟩
  | .ringProdWrite dt who r _ => some ⟨dt, who, O.CMP_RING_PROD r, true⟩
  | .ringResume dt who r => some ⟨dt, who, O.CMP_RING_CFG r, true⟩
  | .ringConsWrite dt who r _ => some ⟨dt, who, O.CMP_RING_CONS r, true⟩
  | .planeEnable dt who p => some ⟨dt, who, O.CMP_PLANE_GEOM2 p, true⟩
  | .dqProdWrite dt who _ => some ⟨dt, who, O.CMP_DQ_PROD, true⟩
  | .pipeEnable dt who n => some ⟨dt, who, O.RP_CTRL n, true⟩
  | .pipeDisable dt who n => some ⟨dt, who, O.RP_CTRL n, true⟩
  | .thresholdStoreWrite dt who _ => some ⟨dt, who, O.RP_TS_DATA, true⟩
  | .thresholdStoreRead dt who => some ⟨dt, who, O.RP_TS_DATA, false⟩
  | .slackRst dt who n => some ⟨dt, who, O.RP_CTRL n, true⟩
  | .ntInit dt who => some ⟨dt, who, O.RP_NT_CTRL, true⟩
  | .ntWindowWrite dt who idx _ => some ⟨dt, who, ntOff idx, true⟩
  | .ntWindowRead dt who idx _ => some ⟨dt, who, ntOff idx, false⟩
  | .ntRmwUpdate dt who i _ => some ⟨dt, who, O.RP_NT_RMW_DATA i, true⟩
  | .overspeedPolicyWrite dt who _ => some ⟨dt, who, O.FTU_OVS_CTRL, true⟩
  | .flgResume dt who _ => some ⟨dt, who, O.FTU_CTRL, true⟩
  | .flagFallClear dt who x _ => some ⟨dt, who, O.FTU_HEAD_STAT x, true⟩
  | .headEnable dt who x => some ⟨dt, who, O.FTU_HEAD_CFG x, true⟩
  | .headDisable dt (.reg who) x => some ⟨dt, who, O.FTU_HEAD_CFG x, true⟩
  | .scanArm dt who slot => some ⟨dt, who, O.DGU_SCAN_CTRL slot, true⟩
  | .scanAbort dt who slot => some ⟨dt, who, O.DGU_SCAN_CTRL slot, true⟩
  | .hbChainEnable dt who i => some ⟨dt, who, O.DGU_HB_CFG i, true⟩
  | .cinPortEnable dt who n => some ⟨dt, who, O.CIN_PORT_CTRL n, true⟩
  | .cinPortDisable dt who n => some ⟨dt, who, O.CIN_PORT_CTRL n, true⟩
  | .expCommit dt who n => some ⟨dt, who, O.CIN_PORT_CTRL n, true⟩
  | .iplEnable dt who => some ⟨dt, who, O.IPL_CTRL, true⟩
  | .iplDisable dt who => some ⟨dt, who, O.IPL_CTRL, true⟩
  | .rruEnable dt who => some ⟨dt, who, O.RRU_CTRL, true⟩
  | .rruDisable dt who => some ⟨dt, who, O.RRU_CTRL, true⟩
  | .iplTableAccess dt who data => some ⟨dt, who, O.IPL_TBL_DATA, data.isSome⟩
  | .dfqRecordTake dt who => some ⟨dt, who, O.DFQ_RD 0, false⟩
  | .dropRest dt who => some ⟨dt, who, O.DFQ_CTRL, true⟩
  | .flush dt who => some ⟨dt, who, O.DFQ_CTRL, true⟩
  | .pushCommit dt who => some ⟨dt, who, O.DFQ_PUSH_CTRL, true⟩
  | .fabGo dt who => some ⟨dt, who, O.FAB_CTRL, true⟩
  | .fabAbort dt who => some ⟨dt, who, O.FAB_CTRL, true⟩
  | .fabArm dt who => some ⟨dt, who, O.FAB_CTRL, true⟩
  | .spliceWcoWrite dt who _ => some ⟨dt, who, O.FAB_SPLICE_WCO + 4, true⟩
  | .fabRearm dt who => some ⟨dt, who, O.FAB_CTRL, true⟩
  | .engStart dt who w _ => some ⟨dt, who, O.ENG_START w, true⟩
  | .engStop dt who w _ => some ⟨dt, who, O.ENG_STOP w, true⟩
  | .engOff dt who w _ => some ⟨dt, who, O.ENG_OFF w, true⟩
  | .evfPendingWrite dt who n word _ => some ⟨dt, who, (pendingBase n + 4 * word), true⟩
  | .evfCommit dt who => some ⟨dt, who, O.EVF_COMMIT, true⟩
  | .dmaDoorbell dt (.reg who) c => some ⟨dt, who, O.DMA_CH_DOORBELL c, true⟩
  | .dmaStop dt who c _ => some ⟨dt, who, O.DMA_CH_CTRL c, true⟩
  | .dmaResume dt who c => some ⟨dt, who, O.DMA_CH_CTRL c, true⟩
  | .dmaSkip dt who c => some ⟨dt, who, O.DMA_CH_CTRL c, true⟩
  | .memOpen dt who => some ⟨dt, who, O.MEM_CTRL, true⟩
  | .slotSwap dt who => some ⟨dt, who, O.MEM_CTRL, true⟩
  | .retrain dt who n => some ⟨dt, who, O.MC_CTRL n, true⟩
  | .channelFence dt who n => some ⟨dt, who, O.MC_CTRL n, true⟩
  | .fvlPortEnable dt who p _ => some ⟨dt, who, O.FVL_PORT_CFG p, true⟩
  | .fvlPortDisable dt who p _ => some ⟨dt, who, O.FVL_PORT_CFG p, true⟩
  | .fvlRetrain dt who p => some ⟨dt, who, O.FVL_PORT_CFG p, true⟩
  | .fvlUpshift dt who p => some ⟨dt, who, O.FVL_PORT_CFG p, true⟩
  | .mailboxGo dt who _ => some ⟨dt, who, O.FVL_XACT_CTRL, true⟩
  | .gpioOutSet dt who _ => some ⟨dt, who, O.GPIO_OUT_SET, true⟩
  | .gpioOutClr dt who _ => some ⟨dt, who, O.GPIO_OUT_CLR, true⟩
  | .i2cGo dt who => some ⟨dt, who, O.I2C_CTRL, true⟩
  | .txProdWrite dt who n q _ => some ⟨dt, who, O.NET_P_TX_PROD n q, true⟩
  | .tsqTake dt who => some ⟨dt, who, O.NET_PTP_TSQ 0, false⟩
  | .ptpStep dt who _ => some ⟨dt, who, O.NET_PTP_STEP, true⟩
  | .ptpRateWrite dt who _ => some ⟨dt, who, O.NET_PTP_RATE, true⟩
  | .holdoverClear dt who => some ⟨dt, who, O.NET_PTP_STAT, true⟩
  | .mapSnap dt who => some ⟨dt, who, O.NET_PTP_MAP_STAT, true⟩
  | .twnEnable dt who => some ⟨dt, who, O.TWN_CTRL, true⟩
  | .twnDisable dt who => some ⟨dt, who, O.TWN_CTRL, true⟩
  | .castle dt who => some ⟨dt, who, O.TWN_CTRL, true⟩
  | .secEnrol dt who => some ⟨dt, who, O.SEC_CMD_CTRL, true⟩
  | .secRevoke dt who => some ⟨dt, who, O.SEC_CMD_CTRL, true⟩
  | .secSecureBoot dt who => some ⟨dt, who, O.SEC_CMD_CTRL, true⟩
  | .secSetDomain dt who => some ⟨dt, who, O.SEC_CMD_CTRL, true⟩
  | .secAttest dt who => some ⟨dt, who, O.SEC_CMD_CTRL, true⟩
  | .domainLock dt who _ => some ⟨dt, who, O.SEC_DOMAIN, true⟩
  | .calRun dt who => some ⟨dt, who, O.CAL_CTRL, true⟩
  | .pmuFreeze dt who _ => some ⟨dt, who, O.PMU_CTRL, true⟩
  | .pmuClear dt who => some ⟨dt, who, O.PMU_CTRL, true⟩
  | .bootGo dt who => some ⟨dt, who, O.SEC_BOOT_CTRL, true⟩
  | _ => none

/-- The offset that the answer of a read names: that of the addressed bytes where it asks for part of a word (R5). -/
def answeredAt (c : Instr) (a : RegAccess) : Nat :=
  match c with
  | .rcRead _ _ r => r.addr
  | .lowWordRead _ _ r => r.addr
  | _ => a.off

/-- The nozzle that the wiring of R149 gives payload position i of head x. -/
def State.nozzleOf (s : State) (x i : Nat) : Nat :=
  let seg := 2 ^ s.get (F.FTU_HEAD_CFG_SEG_LOG2 x)
  let len := s.nozzles x / seg
  let c := i / seg
  let j := i % seg
  let n := if bit (s.get (F.FTU_HEAD_CFG_DIR x)) j then c else len - 1 - c
  if s.on (F.FTU_HEAD_CFG_SEG_MODE x) then n * seg + j else j * len + n

/-- A run that never stops: from the state, every one of the next `n` steps answers a next state. -/
def runsFor : Nat → State → Bool
  | 0, _ => true
  | n + 1, s =>
    match step s with
    | .next t => runsFor n t
    | _ => false

end Sys2Proof.Machine
end

