-- ==== Sys2Proof/Certificates/Slice0/Obligations.lean ====
section
/-! DEFINITION. The statements for the provers: what the commands do, by the manual's numbered rules, and for every command
where it completes. -/

open Sys2Proof Sys2Proof.Machine

/-- A step takes the command at the front of the queue and runs it with the rest of the queue. -/
def Obligations.StepRunsFrontCommand : Prop :=
  ∀ (c : Instr) (rest : List Instr) (s : State), s.pending = c :: rest → step s = exec c { s with pending := rest }

/-- Every command answers a next state, in every state, and no run stops: the model neither faults nor refuses. -/
def Obligations.EveryCommandAnswersNext : Prop :=
  (∀ (c : Instr) (s : State), ∃ t, exec c s = .next t) ∧ ∀ (n : Nat) (s : State), runsFor n s = true

/-- The machine right after reset: Tempo and WCO are 0, every decoder is in STILL, no generator, pipe, head, camera port, engine
or DMA channel is enabled or running, memory is closed and in reset, the FAB is IDLE, the link states are those of reset, the
cluster rights grant PF3 alone, and every counter of an error log is 0 (R11, R23, R36, R41, R163, R220, R316, R341, R385, R407,
R515). -/
def Obligations.ResetLeavesSpecValues : Prop :=
  State.reset.now = 0
    ∧ (∀ n : Fin 2, State.reset.get (F.WTU_ENC_STAT_STATE n) = 0)
    ∧ (∀ g : Fin 8, State.reset.get (F.WTU_LG_CTRL_EN g) = 0)
    ∧ (∀ n : Fin 8, State.reset.get (F.RP_CTRL_EN n) = 0 ∧ State.reset.get (F.CIN_PORT_CTRL_EN n) = 0)
    ∧ (∀ x : Fin 128, State.reset.get (F.FTU_HEAD_CFG_EN x) = 0 ∧ State.reset.get (F.FTU_HEAD_STAT_STATE x) = 0)
    ∧ (∀ e : Fin 192, State.reset.get (F.ENGINE_STAT_STATE e) = 0)
    ∧ (∀ c : Fin 32, State.reset.get (F.DMA_CH_STAT_STATE c) = 0)
    ∧ (∀ n : Fin 16, State.reset.get (F.MC_STAT_STATE n) = 0)
    ∧ State.reset.get F.MEM_CTRL_OPEN = 0
    ∧ State.reset.get F.FAB_STAT_STATE = 0
    ∧ (∀ p : Fin 53, State.reset.get (F.FVL_PORT_STAT_STATE p) = 0)
    ∧ (∀ c : Fin 12, State.reset.get (F.HIF_CLRIGHTS c) = 0x08)
    ∧ State.reset.get F.TWN_STAT_STATE = 0
    ∧ State.reset.get F.CAL_STAT_STATE = 0
    ∧ State.reset.get F.FTU_OVS_CTRL_POLICY = 0
    ∧ (∀ r : Fin 44, State.reset.get (F.LOG_WR (logRings.getD r 0)) = 0 ∧ State.reset.get (F.LOG_RD (logRings.getD r 0)) = 0)

/-- Memory and the register file are in their canonical forms at reset. -/
def Obligations.ResetMeetsInvariants : Prop :=
  Memory.wf State.reset = true ∧ Registers.wf State.reset = true ∧ State.reset.pending = []

/-- While a reset holds the device, every command but those that move it into or out of its resets only lets time pass (R518,
R532, R533). -/
def Obligations.HeldDeviceOnlyLetsTimePass : Prop :=
  ∀ (c : Instr) (s t : State), s.held = true → resetCommand c = false → exec c s = .next t → ∃ dt, t = s.wait dt

/-- A tripped device stays in reset whatever it is commanded, until power is removed: no step but the power-on reset after a loss
of power leads out of the condition (R518). -/
def Obligations.TrippedDeviceStaysInReset : Prop :=
  ∀ s t : State, s.Tripped → (∀ c ∈ s.pending, ∀ dt, c ≠ .powerOnResetEnd dt true) → step s = .next t →
    t.Tripped ∧ ∀ c ∈ t.pending, ∀ dt, c ≠ .powerOnResetEnd dt true

/-- Rights isolate the functions: a register access that the rights of its requester do not cover is refused, and a refused read
returns 0; a refusal is counted in HIF_REFUSED and logged, and leaves every register outside the HIF and the PMU, and all state
beyond the registers but the log and the presented events, as it was (R21, R22, R23, R24, R350, R457, R519, R541). -/
def Obligations.AccessWithoutRightsIsRefused : Prop :=
  (∀ (c : Instr) (a : RegAccess) (s₀ s : State), accessOf c = some a → s = s₀.wait a.dt → s.held = false → s.inReset a.who = false →
      s.allowed a.who a.off a.write = false →
        exec c s₀ = .next (if a.write then s.refuse a.who a.off else (s.refuse a.who a.off).emit (.readData a.who (answeredAt c a) 0)))
    ∧ ∀ (s : State) (who : Requester) (off : Nat),
      (∀ o, o < 0x01400000 ∨ 0x01600000 ≤ o → (s.refuse who off).word o = s.word o)
        ∧ (s.refuse who off).get F.HIF_REFUSED = (s.get F.HIF_REFUSED + 1) % 2 ^ 32
        ∧ (s.refuse who off).on F.HIF_ERR = true
        ∧ { s.refuse who off with regs := s.regs, logs := s.logs, presented := s.presented, past := s.past } = s

/-- A function in its Function Level Reset reaches no register: its writes have no effect, and its reads are answered as
unsupported requests (R458). That a write has no effect at all is the model's reading of the PCIe base specification. -/
def Obligations.FunctionInResetReachesNoRegister : Prop :=
  ∀ (c : Instr) (a : RegAccess) (f : Fin 6) (s₀ s : State), accessOf c = some a → a.who = .pf f → s = s₀.wait a.dt →
    s.held = false → s.inFlr f = true →
      exec c s₀ = .next (if a.write then s else s.emit (.unsupported a.who (answeredAt c a)))

/-- A source presents at most one event per TMP cycle: once it has, a second raise in the same cycle changes nothing (R30, R355). -/
def Obligations.OneEventPerSourceAndCycle : Prop :=
  ∀ (s : State) (src : Nat), (s.raise src).hasRaised src = true ∧ (s.raise src).raise src = s.raise src

/-- When a block detects an error it sets its error status bit, writes the code into its log ring at the slot LOG_WR names, and
raises its error event, local index 63; of two errors of one cycle the one with the lower cause number stands first (R27, R29,
R544, R545). -/
def Obligations.ErrorSetsStatusLogsAndRaises : Prop :=
  ∀ (s : State) (e : Site) (cls cause : Nat) (details : List Nat),
    e ∈ [siteSec, siteWtu 0, siteWtu 1, siteCmp, siteRru, siteFtu, siteDgu, siteHb, siteIpl, siteDfq, siteFab, siteEng, siteEvf,
      siteDma, siteFvl, siteCal, siteTwn, siteHif] ++ (List.range 8).map siteRp ++ (List.range 8).map siteCin
        ++ (List.range 16).map siteMem →
      (∀ f, e.flag = some f → (s.logErr e cls cause details).on f = true)
        ∧ (s.logErr e cls cause details).get (F.LOG_WR e.ring) = (s.get (F.LOG_WR e.ring) + 1) % 2 ^ 32
        ∧ (let last := Sparse.get (fun _ => {}) s.logs (e.ring + (s.get (F.LOG_WR e.ring) + 255) % 256)
          let t := s.logErr e cls cause details
          let code := BitVec.ofNat 32 (2 ^ 24 * e.block + 2 ^ 16 * cls + 2 ^ 12 * e.inst + cause)
          ((last.cycle ≠ some (e.dom.cycleOf s.now) ∨ last.cause ≤ code.toNat % 2 ^ 12) →
              (Sparse.get (fun _ => {}) t.logs (e.ring + s.get (F.LOG_WR e.ring) % 256)).code = code)
            ∧ (last.cycle = some (e.dom.cycleOf s.now) → last.number = BitVec.ofNat 32 (s.get (F.LOG_WR e.ring) + 2 ^ 32 - 1) →
                code.toNat % 2 ^ 12 < last.cause →
                (Sparse.get (fun _ => {}) t.logs (e.ring + s.get (F.LOG_WR e.ring) % 256)).code = last.code))
        ∧ (s.logErr e cls cause details).hasRaised (64 * e.block + 63) = true

/-- A log ring of 256 entries that holds 256 unread ones overwrites the oldest, and LOG_LOST counts it; with fewer unread ones no
entry is lost (R544). -/
def Obligations.LogOverwritesTheOldest : Prop :=
  ∀ (s : State) (ring cyc code tempo : Nat) (details : List Nat), ring ∈ logRings →
    (s.logPush ring cyc code tempo details).get (F.LOG_LOST ring)
      = (if (s.get (F.LOG_WR ring) + 2 ^ 32 - s.get (F.LOG_RD ring)) % 2 ^ 32 < 256 then s.get (F.LOG_LOST ring)
          else (s.get (F.LOG_LOST ring) + 1) % 2 ^ 32)
    ∧ ((Sparse.get (fun _ => {}) s.logs (ring + (s.get (F.LOG_WR ring) + 255) % 256)).cycle ≠ some cyc →
        ∀ slot, slot ≠ ring + s.get (F.LOG_WR ring) % 256 →
          Sparse.get (fun _ => {}) (s.logPush ring cyc code tempo details).logs slot = Sparse.get (fun _ => {}) s.logs slot)

/-- A high-word write of a 64-bit register takes effect with the low word its own requester wrote last, and with no other
requester's; the low word is then spent (R6, R7). -/
def Obligations.PendingLowWordBelongsToItsRequester : Prop :=
  ∀ (s : State) (who other : Requester) (off off' : Nat) (lo hi : Word), off < 2 ^ 26 → off' < 2 ^ 26 →
    (s.putLow who off (some lo)).joined who off hi = 2 ^ 32 * hi.toNat + lo.toNat
      ∧ ((other, off') ≠ (who, off) → (s.putLow who off (some lo)).joined other off' hi = s.joined other off' hi)
      ∧ (s.consumeLow who off).joined who off hi = 2 ^ 32 * hi.toNat + s.currentLow off

/-- WCO_LOAD takes the load value into the integer part of the accumulator, with the fraction cleared, where the source decoder is in
STILL, and shows it in the latch pair; in any other state WCO is left as it is and cause 0x001 is logged (R47). The latch pair's part is the
model's reading of R50. -/
def Obligations.WcoLoadNeedsStill : Prop :=
  ∀ (dt : Nat) (who : Requester) (s₀ s : State), s = s₀.wait dt → s.TakesWrite who O.WTU_CTRL →
    (s.motion s.src = stStill → ∃ t, exec (.wcoLoad dt who) s₀ = .next t
        ∧ t.wtu.acc = BitVec.ofNat 80 (2 ^ 16 * s.get F.WTU_WCO_LOADVAL)
        ∧ t.get F.WTU_LATCH_WCO = s.get F.WTU_WCO_LOADVAL ∧ t.get F.WTU_LATCH_TEMPO = s.now
        ∧ t.tempo = s.tempo ∧ t.rp = s.rp ∧ t.ftu = s.ftu ∧ t.nt = s.nt ∧ t.mem = s.mem ∧ t.out = s.out)
      ∧ (s.motion s.src ≠ stStill → ∃ t, exec (.wcoLoad dt who) s₀ = .next t
        ∧ t = s.logErr (siteWtu 0) 0x01 0x001 [0] ∧ t.wtu = s.wtu)

/-- An armed slot whose target has come fires: FIRED sets, the Tempo of the TMP edge of the firing is recorded and event 16 + s is
raised; ARM clears, but for a slot to which ARM was written 1 in the cycle of the firing, which stays armed; one that is not due
changes nothing; and ARM written to an armed slot changes nothing but that (R61, R62). -/
def Obligations.LaunchSlotFiresOnce : Prop :=
  ∀ (dt : Nat) (who : Requester) (slot : Fin 32) (s₀ s : State), s = s₀.wait dt → s.held = false →
    (s.slotDue slot = true → ∀ x tgt, s.slotEdge slot = some (x, tgt) → x ≤ s.now → s.now < 2 ^ 64 →
      ∃ t, exec (.slotFire dt slot) s₀ = .next t
        ∧ t.on (F.WTU_SLOT_CTRL_FIRED slot) = true
        ∧ t.get (F.WTU_SLOT_FIRE_TEMPO slot) = x ∧ t.hasRaised (144 + slot) = true
        ∧ t.get (F.WTU_SLOT_TARGET slot) = s.get (F.WTU_SLOT_TARGET slot)
        ∧ (s.rearmed slot x = false → t.on (F.WTU_SLOT_CTRL_ARM slot) = false ∧ t.slotDue slot = false ∧ t.wtu = s.wtu)
        ∧ (s.rearmed slot x = true → t.on (F.WTU_SLOT_CTRL_ARM slot) = true ∧ t.slotDue slot = false)
        ∧ (∀ o, o < 0x00100000 ∨ (0x00200000 ≤ o ∧ o < 0x01500000) ∨ 0x01600000 ≤ o → t.word o = s.word o)
        ∧ t.rp = s.rp ∧ t.ftu = s.ftu ∧ t.mem = s.mem ∧ t.eng = s.eng ∧ t.out = s.out)
      ∧ (s.slotDue slot = false → exec (.slotFire dt slot) s₀ = .next s)
      ∧ (s.TakesWrite who (O.WTU_SLOT_CTRL slot) → s.on (F.WTU_SLOT_CTRL_ARM slot) = true →
          exec (.slotArm dt who slot) s₀ = .next (s.setLaunchSlot slot { s.launchSlot slot with armWrite := s.now })
            ∧ (s.now ≠ 0 → ∀ x, x / 8 ≠ s.cycle → (s.setLaunchSlot slot { s.launchSlot slot with armWrite := s.now }).rearmed slot x = false))

/-- An update register set of the nozzle table applies (entry AND NOT MASK) OR (DATA AND MASK) to the entry INDEX names, and shows
the entry as it stood before in RESULT; every other entry stays; an INDEX of 524,288 or more discards the update, leaves RESULT as it
is and sets RMW_RANGE (R125). The write reaches the update port in its own PIX cycle and is applied by the port's next use, in a later one
(R124). The update is stated where the update port is free and the entry carries no uncorrectable error. -/
def Obligations.NozzleTableMaskedUpdate : Prop :=
  ∀ (dt : Nat) (who : Requester) (i : Fin 4) (hi : Word) (s₀ s : State), s = s₀.wait dt → s.TakesWrite who (O.RP_NT_RMW_DATA i) →
    (s.nt.waiting = [] → s.nt.initAt = none → s.get (F.RP_NT_RMW_INDEX i) < 524288 →
    ((s.ntCell (s.get (F.RP_NT_RMW_INDEX i))).mark = .good ∨ (s.ntCell (s.get (F.RP_NT_RMW_INDEX i))).mark = .corrected) →
      ∃ t, exec (.ntRmwUpdate dt who i hi) s₀ = .next t
        ∧ (∀ j, t.ntCell j = s.ntCell j) ∧ t.get (F.RP_NT_RMW_RESULT i) = s.get (F.RP_NT_RMW_RESULT i)
        ∧ t.rp = s.rp ∧ t.wtu = s.wtu ∧ t.ftu = s.ftu ∧ t.mem = s.mem ∧ t.eng = s.eng ∧ t.out = s.out
        ∧ ∀ (dt' : Nat) (u : State), u = t.wait dt' → s.now / 4 < u.now / 4 →
          ∃ v, exec (.updatePortApply dt') t = .next v
            ∧ (v.ntCell (s.get (F.RP_NT_RMW_INDEX i))).bits
              = ((s.ntCell (s.get (F.RP_NT_RMW_INDEX i))).bits &&& ~~~BitVec.ofNat 64 (s.get (F.RP_NT_RMW_MASK i)))
                ||| (BitVec.ofNat 64 (s.joined who (O.RP_NT_RMW_DATA i) hi) &&& BitVec.ofNat 64 (s.get (F.RP_NT_RMW_MASK i)))
            ∧ (v.ntCell (s.get (F.RP_NT_RMW_INDEX i))).mark = .good
            ∧ v.get (F.RP_NT_RMW_RESULT i) = (s.ntCell (s.get (F.RP_NT_RMW_INDEX i))).bits.toNat
            ∧ (∀ j, j ≠ s.get (F.RP_NT_RMW_INDEX i) → v.ntCell j = s.ntCell j)
            ∧ v.nt.waiting = []
            ∧ v.wtu = u.wtu ∧ v.ftu = u.ftu ∧ v.mem = u.mem ∧ v.eng = u.eng)
    ∧ (524288 ≤ s.get (F.RP_NT_RMW_INDEX i) →
      ∃ t, exec (.ntRmwUpdate dt who i hi) s₀ = .next t
        ∧ t.nt = s.nt ∧ t.get (F.RP_NT_RMW_RESULT i) = s.get (F.RP_NT_RMW_RESULT i) ∧ t.on F.RP_NT_STAT_RMW_RANGE = true)

/-- The dose of payload position i occupies bits 3i to 3i + 2 of a head's payload, and payload bit b is bit b mod 64 of data word
b / 64 of what the head is sent, which is NW = 3 × NOZZLES / 64 words (R150). The packing is that of any list of dots that names
no nozzle twice; a head has 1, 2 or 4 segments (R149). -/
def Obligations.PayloadHoldsEachDose : Prop :=
  ∀ (s : State) (x k : Nat) (dots : List (Nat × Nat)), (dots.map (·.1)).Nodup → s.get (F.FTU_HEAD_CFG_SEG_LOG2 x) ≤ 2 →
    (∀ d ∈ dots, d.2 < 8 → headOf d.1 = x → d.1 % 4096 < s.nozzles x →
        bits (s.packHead x dots) (3 * s.payloadPos x (d.1 % 4096) + 2) (3 * s.payloadPos x (d.1 % 4096)) = d.2)
      ∧ s.payloadWords x = 3 * s.nozzles x / 64
      ∧ ((fragments (x % 4) k (s.payloadWords x) (s.packHead x dots)).flatMap (·.drop 1)).length = s.payloadWords x
      ∧ ∀ b, b < 64 * s.payloadWords x →
          (((fragments (x % 4) k (s.payloadWords x) (s.packHead x dots)).flatMap (·.drop 1)).getD (b / 64) 0).getLsbD (b % 64)
            = (s.packHead x dots).testBit b

/-- The nozzle that R149 computes for payload position i is packed at position i, in every segment layout and direction. -/
def Obligations.PayloadPositionsFollowTheWiring : Prop :=
  ∀ (s : State) (x i : Nat), s.get (F.FTU_HEAD_CFG_SEG_LOG2 x) ≤ 2 → i < s.nozzles x →
    s.nozzleOf x i < s.nozzles x ∧ s.payloadPos x (s.nozzleOf x i) = i

/-- A write of 1 to DROP_REST discards what is left of the writing requester's packet, adds it to DFQ_DROPPED, and leaves the
requester outside any packet, with every other packet as it was; for a requester inside no packet it has no effect (R282). -/
def Obligations.DropRestDiscardsThePacket : Prop :=
  ∀ (dt : Nat) (who : Requester) (s₀ s : State), s = s₀.wait dt → s.TakesWrite who O.DFQ_CTRL →
    (∀ p, s.dfq.stored.find? (fun q => q.begun == some (s.dfqReq who)) = some p →
        ∃ t, exec (.dropRest dt who) s₀ = .next t
          ∧ t.get F.DFQ_DROPPED = (s.get F.DFQ_DROPPED + p.recs.length) % 2 ^ 32
          ∧ t.dfq.stored = s.dfq.stored.filter (fun q => q.begun != some (s.dfqReq who))
          ∧ t.dfq.stored.find? (fun q => q.begun == some (s.dfqReq who)) = none
          ∧ t.dfq.latches = s.dfq.latches ∧ t.dfq.offers = s.dfq.offers ∧ t.dfq.push = s.dfq.push
          ∧ (∀ o, o < 0x00900000 ∨ (0x00A00000 ≤ o ∧ o < 0x01500000) ∨ 0x01600000 ≤ o → t.word o = s.word o)
          ∧ t.mem = s.mem ∧ t.eng = s.eng ∧ t.out = s.out)
      ∧ (s.dfq.stored.find? (fun q => q.begun == some (s.dfqReq who)) = none → exec (.dropRest dt who) s₀ = .next s)

/-- GO in IDLE starts a load from FAB_LOAD_BASE of FAB_LOAD_LEN bytes when BASE is a multiple of 64 and LEN a multiple of 8 from
48 to 2^30; with any other it is refused with cause 0x001 and the FAB stays IDLE; in any other state GO is ignored (R303). -/
def Obligations.FabGoStartsALoad : Prop :=
  ∀ (dt : Nat) (who : Requester) (s₀ s : State), s = s₀.wait dt → s.TakesWrite who O.FAB_CTRL →
    (s.fabState = fbIdle → s.get F.FAB_LOAD_BASE % 64 = 0 →
        s.get F.FAB_LOAD_LEN % 8 = 0 ∧ 48 ≤ s.get F.FAB_LOAD_LEN ∧ s.get F.FAB_LOAD_LEN ≤ 2 ^ 30 →
        ∃ t, exec (.fabGo dt who) s₀ = .next t ∧ t.fabState = fbVerifying
          ∧ t.fab.base = s.get F.FAB_LOAD_BASE ∧ t.fab.len = s.get F.FAB_LOAD_LEN
          ∧ (∀ o, o < 0x00A00000 ∨ (0x00B00000 ≤ o ∧ o < 0x01500000) ∨ 0x01600000 ≤ o → t.word o = s.word o)
          ∧ t.mem = s.mem ∧ t.evf = s.evf ∧ t.boot = s.boot ∧ t.out = s.out)
      ∧ (s.fabState = fbIdle → ¬ (s.get F.FAB_LOAD_BASE % 64 = 0
          ∧ s.get F.FAB_LOAD_LEN % 8 = 0 ∧ 48 ≤ s.get F.FAB_LOAD_LEN ∧ s.get F.FAB_LOAD_LEN ≤ 2 ^ 30) →
        ∃ t, exec (.fabGo dt who) s₀ = .next t ∧ t = s.logErr siteFab 0x01 0x001 [] ∧ t.fabState = fbIdle ∧ t.fab = s.fab)
      ∧ (s.fabState ≠ fbIdle → exec (.fabGo dt who) s₀ = .next s)

/-- s0 reads as 0 and p0 as all ones in every state, and a write to either is discarded (R323). -/
def Obligations.HardWiredEngineRegisters : Prop :=
  ∀ (s : State) (e r : Nat) (v p : DWord),
    s.sreg e 0 = 0 ∧ s.preg e 0 = BitVec.allOnes 64 ∧ s.setS e 0 v = s ∧ s.setP e 0 p = s
      ∧ (r ≠ 0 → (s.setS e r v).sreg e r = v ∧ (s.setP e r p).preg e r = p)
      ∧ (∀ q, q ≠ r → (s.setS e r v).sreg e q = s.sreg e q ∧ (s.setP e r p).preg e q = s.preg e q)

/-- A scalar register instruction that runs completes, moves the PC on by 4, and writes no register but its own destination: every
other scalar register of the engine, its vector and predicate registers, the registers of every other engine, and the local and
cluster memories are as before it was fetched, and memory is as the fetch left it (R323, R335, R338). -/
def Obligations.ScalarInstructionFrame : Prop :=
  ∀ p ∈ ([(.engAdd, .add), (.engSub, .sub), (.engAnd, .and), (.engOr, .or), (.engXor, .xor), (.engSll, .sll), (.engSrl, .srl),
      (.engSra, .sra), (.engSlt, .slt), (.engSltu, .sltu), (.engMin, .min), (.engMax, .max), (.engPopc, .popc), (.engMul, .mul),
      (.engDiv, .div), (.engDivu, .divu), (.engRem, .rem), (.engRemu, .remu), (.engAddi, .addi), (.engAndi, .andi),
      (.engOri, .ori), (.engSlli, .slli), (.engSrli, .srli), (.engSrai, .srai), (.engIns16, .ins16), (.engExt, .ext)]
      : List ((Nat → Fin 192 → Instr) × Op)),
    ∀ (dt : Nat) (e : Fin 192) (s₀ s : State) (w : Nat) (u : State), s = s₀.wait dt → s.Runs e p.2 w u →
      ∃ t, exec (p.1 dt e) s₀ = .next t
        ∧ t.pc e = s.pc e + 4
        ∧ (∀ r, r ≠ insD w → t.sreg e r = s.sreg e r)
        ∧ (∀ r, t.vreg e r = s.vreg e r ∧ t.preg e r = s.preg e r)
        ∧ (∀ e' r, e' ≠ e.val → t.sreg e' r = s.sreg e' r ∧ t.vreg e' r = s.vreg e' r ∧ t.preg e' r = s.preg e' r)
        ∧ t.emem = s.emem ∧ t.mem = u.mem ∧ t.dma = s.dma ∧ t.pending = s.pending

/-- A scalar load or store at an address that is not a multiple of its size takes the MISALIGNED fault and has no effect of its own:
the engine is FAULTED with the PC at the instruction, the address in FAULT_ADDR, cause 0x003 and its bit in ENG_FAULTED, and its
registers, the local and cluster memories and memory as the fetch left them (R325, R338, R339). -/
def Obligations.MisalignedAccessFaults : Prop :=
  ∀ p ∈ ([(.engLdh, .ldh, 2), (.engLdw, .ldw, 4), (.engLdd, .ldd, 8), (.engSth, .sth, 2), (.engStw, .stw, 4), (.engStd, .std, 8)]
      : List ((Nat → Fin 192 → Instr) × Op × Nat)),
    ∀ (dt : Nat) (e : Fin 192) (s₀ s : State) (w : Nat) (u : State), s = s₀.wait dt → s.Runs e p.2.1 w u →
      (u.addrI e w).toNat % p.2.2 ≠ 0 →
        ∃ t, exec (p.1 dt e) s₀ = .next t
          ∧ t.engState e = egFaulted ∧ t.pc e = u.pc e
          ∧ t.get (F.ENGINE_FAULT_ADDR e) = (u.addrI e w).toNat ∧ t.get (F.ENGINE_STAT_FAULT_CAUSE e) = 0x003
          ∧ bit (t.get (F.ENG_FAULTED (e / 32))) (e % 32) = true ∧ t.hasRaised (704 + 48) = true
          ∧ (∀ r, t.sreg e r = u.sreg e r ∧ t.vreg e r = u.vreg e r ∧ t.preg e r = u.preg e r)
          ∧ t.emem = u.emem ∧ t.mem = u.mem

/-- A vector instruction writes only the elements whose predicate bit is 1: element i of size 2^esz bytes takes the result where
bit i × 2^esz of pm is 1 and stays otherwise (R336). -/
def Obligations.VectorWritesActiveElements : Prop :=
  ∀ (f : Nat → Bool → Nat → Nat → Nat) (u : State) (e w i : Nat), i < 64 / 2 ^ insEsz w →
    elem (insEsz w) (vecResult f u e w) i
      = (if (u.preg e (insPm w)).getLsbD (i * 2 ^ insEsz w) then
          f (insEsz w) (insU w) (elem (insEsz w) (u.vreg e (insA w)) i) (elem (insEsz w) (u.vreg e (insB w)) i) % 2 ^ (8 * 2 ^ insEsz w)
        else elem (insEsz w) (u.vreg e (insD w)) i)

/-- A start of an engine from OFF, once the memories are zeroed, sets s1 to the engine number, s2 to ENGe_ARG, every other s and
v register to 0 and every p register but p0 to 0, and the engine is RUNNING; before INIT_DONE, or with a PC that is no multiple of
4, the start is refused (R339, R340, R341); a start in the ENG cycle of an OFF does nothing (R343). -/
def Obligations.EngineStartSetsRegisters : Prop :=
  ∀ (s : State) (e : Fin 192), s.engState e = egOff → (s.engine e).off = false →
    (s.thisEng (s.engine e).offAt = true → s.engStart e = s)
    ∧ (s.thisEng (s.engine e).offAt = false → (s.on F.ENG_STAT = true → (s.pc e).toNat % 4 = 0 →
        (s.engStart e).engState e = egRunning ∧ (s.engStart e).sreg e 1 = BitVec.ofNat 64 e
          ∧ (s.engStart e).sreg e 2 = BitVec.ofNat 64 (s.get (F.ENGINE_ARG e))
          ∧ (∀ r, 2 < r → (s.engStart e).sreg e r = 0) ∧ (∀ r, (s.engStart e).vreg e r = 0)
          ∧ (∀ r, 0 < r → (s.engStart e).preg e r = 0) ∧ (s.engStart e).pc e = s.pc e ∧ (s.engStart e).emem = s.emem)
      ∧ (s.on F.ENG_STAT = false ∨ (s.pc e).toNat % 4 ≠ 0 →
        s.engStart e = s.logErr siteEng 0x01 0x001 [e, s.get (F.ENGINE_FAULT_ADDR e) % 2 ^ 32]))

/-- Decoding the word of a well-formed instruction gives the instruction and its operands back, for all 76 instructions and every
operand their encodings admit (R333, R334, R335). -/
def Obligations.CregarWordsRoundTrip : Prop :=
  ∀ (o : Op) (x : Operands), o.fits x = true →
    encodeCregar o x < 2 ^ 32 ∧ cregar (encodeCregar o x) = some o ∧ operandsOf o (encodeCregar o x) = x

/-- A timer's task that fires starts an enabled timer that does not run, or runs with RETRIG, and does nothing to one that is not
enabled; where the timer is due in the same cycle, it first expires and then starts a new run; the timer fires DELAY TMP cycles after its start, at least 1, when it stops, counts and presents source 768 + t; a timer that is not due
stays as it is (R356, R358, R359). -/
def Obligations.TimerRunsItsDelay : Prop :=
  ∀ (dt : Nat) (t : Fin 32) (s₀ s : State), s = s₀.wait dt → s.held = false →
    (s.on (F.EVF_TMR_CFG_EN t) = true → s.timerBusy t = false → s.timerDue t = false → s.taskTrigger (1664 + t) = s.timerStart t
        ∧ (s.timerStart t).on (F.EVF_TMR_CFG_RUNNING t) = true
        ∧ ∀ n, ((s.timerStart t).wait n).timerDue t = decide (s.cycle + max 1 (s.get (F.EVF_TMR_DELAY t)) ≤ ((s.timerStart t).wait n).cycle))
      ∧ (s.on (F.EVF_TMR_CFG_EN t) = true → s.timerDue t = true →
        s.timerBusy t = false ∧ s.taskTrigger (1664 + t) = (s.timerExpire t).timerStart t)
      ∧ (s.on (F.EVF_TMR_CFG_EN t) = false → s.taskTrigger (1664 + t) = s)
      ∧ (s.timerDue t = true → ∃ u, exec (.evfTimerExpire dt t) s₀ = .next u
        ∧ u.on (F.EVF_TMR_CFG_RUNNING t) = false ∧ u.hasRaised (768 + t) = true
        ∧ u.get (F.EVF_TMR_FIRES t) = (s.get (F.EVF_TMR_FIRES t) + 1) % 2 ^ 32 ∧ u.evf = s.evf
        ∧ (∀ o, (o < 0x00C0B000 + 0x10 * t ∨ 0x00C0B010 + 0x10 * t ≤ o) → o < 0x01500000 ∨ 0x01600000 ≤ o → u.word o = s.word o)
        ∧ u.mem = s.mem ∧ u.eng = s.eng ∧ u.dma = s.dma ∧ u.out = s.out)
      ∧ (s.timerDue t = false → exec (.evfTimerExpire dt t) s₀ = .next s)

/-- LOOP loads an inactive counter with COUNT, counts down, and goes back BACK words while the count is not 0; at 0 the counter is
inactive again and the channel goes on with the next word. The other counter, memory and the engines stay. A word with a reserved
bit set, COUNT 0 or BACK 0 is invalid (R369). -/
def Obligations.DmaLoopCountsDown : Prop :=
  (∀ w, bits w 3 0 = 2 → (dmaValid w = true ↔ bits w 15 5 = 0 ∧ bits w 47 16 ≠ 0 ∧ bits w 63 48 ≠ 0))
    ∧ ∀ (dt : Nat) (c : Fin 32) (f : Fetches) (s₀ s : State) (w : Nat) (u : State) (ctr other : Fld) (n : Nat),
      s = s₀.wait dt → s.DmaTakes c 2 f [w] u →
      (ctr, other) = (if bits w 4 4 = 0 then (F.DMA_CH_LOOP0 c, F.DMA_CH_LOOP1 c) else (F.DMA_CH_LOOP1 c, F.DMA_CH_LOOP0 c)) →
      n = ((if bit (u.get (F.DMA_CH_LOOP_ACT c)) (bits w 4 4) then u.get ctr else bits w 47 16) + 2 ^ 32 - 1) % 2 ^ 32 →
        ∃ t, exec (.dmaLoop dt c f) s₀ = .next t
          ∧ t.get ctr = n ∧ bit (t.get (F.DMA_CH_LOOP_ACT c)) (bits w 4 4) = (n != 0)
          ∧ t.dmaPc c = (if n ≠ 0 then (u.dmaPc c + 2 ^ 64 - 8 * bits w 63 48) % 2 ^ 64 else (u.dmaPc c + 8) % 2 ^ 64)
          ∧ t.get other = u.get other
          ∧ bit (t.get (F.DMA_CH_LOOP_ACT c)) (1 - bits w 4 4) = bit (u.get (F.DMA_CH_LOOP_ACT c)) (1 - bits w 4 4)
          ∧ (∀ o, o < 0x00D01010 + 0x80 * c ∨ 0x00D0102C + 0x80 * c ≤ o → t.word o = u.word o)
          ∧ t.mem = u.mem ∧ t.eng = u.eng ∧ t.emem = u.emem ∧ t.out = u.out

/-- JUMP goes to the address whose bits [58:3] are bits [63:8] of the word, with bits [2:0] equal to 0 and bit 63 equal to SPACE, so
that a target in host memory lies below 2^59; a word with a reserved bit set is invalid (R372). -/
def Obligations.DmaJumpGoesToTheTarget : Prop :=
  (∀ w, bits w 3 0 = 5 → (dmaValid w = true ↔ bits w 7 5 = 0))
    ∧ ∀ (dt : Nat) (c : Fin 32) (f : Fetches) (s₀ s : State) (w : Nat) (u : State), s = s₀.wait dt → s.DmaTakes c 5 f [w] u →
        ∃ t, exec (.dmaJump dt c f) s₀ = .next t
          ∧ bits (t.dmaPc c) 58 3 = bits w 63 8 ∧ bits (t.dmaPc c) 2 0 = 0 ∧ bits (t.dmaPc c) 63 63 = bits w 4 4
          ∧ bits (t.dmaPc c) 62 59 = 0
          ∧ (∀ o, o < 0x00D01010 + 0x80 * c ∨ 0x00D01018 + 0x80 * c ≤ o → t.word o = u.word o)
          ∧ t.mem = u.mem ∧ t.eng = u.eng ∧ t.emem = u.emem ∧ t.out = u.out

/-- A doorbell starts an IDLE channel at its PC, with the loops inactive and nothing pending; makes a channel in END_WAIT run again from
its END; is counted in DB_LOST and raises event 34 in HALTED and STOPPING; and stays pending in RUNNING and WAITING (R378, R383,
R385). A second doorbell of one PIX cycle only counts as merged (R386). A register write of DOORBELL does what the task's trigger does. -/
def Obligations.DoorbellActsByState : Prop :=
  ∀ (dt : Nat) (c : Fin 32) (s₀ s : State), s = s₀.wait dt → s.held = false →
    (∀ who, s.TakesWrite who (O.DMA_CH_DOORBELL c) → exec (.dmaDoorbell dt (.reg who) c) s₀ = exec (.dmaDoorbell dt .task c) s₀)
    ∧ (s.rungNow c = true → exec (.dmaDoorbell dt .task c) s₀ = .next (s.coalesce (1536 + 2 * c)))
    ∧ (s.rungNow c = false → ∃ t, exec (.dmaDoorbell dt .task c) s₀ = .next t ∧ t.mem = s.mem ∧ t.eng = s.eng ∧ t.out = s.out
      ∧ (∀ o, o < 0x00C10000 ∨ (0x00C12000 ≤ o ∧ o < 0x00D00000) ∨ (0x00E00000 ≤ o ∧ o < 0x01500000) ∨ 0x01600000 ≤ o → t.word o = s.word o)
      ∧ (s.dmaState c = dmIdle → s.dmaPc c % 8 = 0 → t.dmaState c = dmRunning ∧ t.dmaPc c = s.dmaPc c
          ∧ t.get (F.DMA_CH_LOOP_ACT c) = 0 ∧ t.on (F.DMA_CH_STAT_DB_PEND c) = false ∧ t.on (F.DMA_CH_STAT_EV_PEND c) = false)
      ∧ (s.dmaState c = dmIdle → s.dmaPc c % 8 ≠ 0 → t.dmaState c = dmIdle)
      ∧ (s.dmaState c = dmEndWait → t.dmaState c = dmRunning ∧ t.dmaPc c = s.dmaPc c ∧ t.on (F.DMA_CH_STAT_DB_PEND c) = false)
      ∧ (s.dmaState c = dmHalted ∨ s.dmaState c = dmStopping → t.dmaState c = s.dmaState c
          ∧ t.get (F.DMA_CH_DB_LOST c) = (s.get (F.DMA_CH_DB_LOST c) + 1) % 2 ^ 32 ∧ t.hasRaised (832 + 34) = true)
      ∧ (s.dmaState c = dmRunning ∨ s.dmaState c = dmWaiting → t.dmaState c = s.dmaState c
          ∧ t.on (F.DMA_CH_STAT_DB_PEND c) = true ∧ t.dma = (s.ring c).dma))

/-- No two device addresses share a place in DRAM: with a channel map that names no channel twice, the channel and the physical
channel address give the device address back (R392, R393). -/
def Obligations.MemoryMapIsOneToOne : Prop :=
  ∀ (s : State) (d d' : Nat), noRepeat s.mapped = true → s.channelOf d = s.channelOf d' → s.physOf d = s.physOf d' → d = d'

/-- A write to an open channel stores the bytes its enables name, leaves every other byte of memory as it was, and is
acknowledged without error (R397, R579), once the engines' caches have settled that block (R328). -/
def Obligations.MemoryWriteStoresItsBytes : Prop :=
  ∀ (dt : Nat) (port : Fin 28) (blk : BitVec 32) (data : List (Option Byte)) (poison : Bool) (q : RowQueue) (s₀ s u : State),
    s = s₀.wait dt → s.held = false → u = s.settle (64 * blk.toNat) 64 → u.belowTop (64 * blk.toNat) = true →
    u.serves (64 * blk.toNat) = true → data.length ≤ 64 →
      ∃ t, exec (.memoryWrite dt port blk data poison q) s₀ = .next t
        ∧ (∀ a, t.byteAt a = ((if 64 * blk.toNat ≤ a then data.getD (a - 64 * blk.toNat) none else none).getD (u.byteAt a)))
        ∧ t.out = u.out ++ [.memAck port (64 * blk.toNat) true]
        ∧ t.eng = u.eng ∧ t.emem = u.emem ∧ t.pending = u.pending

/-- A read of a good block of an open channel returns the 64 bytes stored there, and changes no byte of memory, once the engines' caches have
settled that block (R328, R396). -/
def Obligations.MemoryReadReturnsItsBytes : Prop :=
  ∀ (dt : Nat) (port : Fin 28) (blk : BitVec 32) (q : RowQueue) (s₀ s u : State),
    s = s₀.wait dt → s.held = false → u = s.settle (64 * blk.toNat) 64 → u.belowTop (64 * blk.toNat) = true →
    u.serves (64 * blk.toNat) = true → u.flawAt blk.toNat = .good →
      ∃ t, exec (.memoryRead dt port blk q) s₀ = .next t
        ∧ t.out = u.out ++ [.memData port (64 * blk.toNat) (some (u.peek (64 * blk.toNat) 64))]
        ∧ (∀ a, t.byteAt a = u.byteAt a)
        ∧ t.eng = u.eng ∧ t.emem = u.emem ∧ t.pending = u.pending

/-- Until OPEN is 1 a read completes as poison and a write is discarded with a write error; each is counted in MCn_FENCED_ACC,
nothing is logged and no byte changes (R399), once the engines' caches have settled that block (R328). -/
def Obligations.ClosedMemoryTurnsAccessesAway : Prop :=
  ∀ (dt : Nat) (port : Fin 28) (blk : BitVec 32) (data : List (Option Byte)) (poison : Bool) (q : RowQueue) (s₀ s u : State),
    s = s₀.wait dt → s.held = false → u = s.settle (64 * blk.toNat) 64 → u.belowTop (64 * blk.toNat) = true →
    u.on F.MEM_CTRL_OPEN = false →
      (∃ t, exec (.memoryRead dt port blk q) s₀ = .next t
        ∧ t.out = u.out ++ [.memData port (64 * blk.toNat) none]
        ∧ t.get (F.MC_FENCED_ACC (u.channelOf (64 * blk.toNat)))
          = (u.get (F.MC_FENCED_ACC (u.channelOf (64 * blk.toNat))) + 1) % 2 ^ 32
        ∧ t.logs = u.logs ∧ t.mem = u.mem)
      ∧ ∃ t, exec (.memoryWrite dt port blk data poison q) s₀ = .next t
        ∧ t.out = u.out ++ [.memAck port (64 * blk.toNat) false]
        ∧ t.get (F.MC_FENCED_ACC (u.channelOf (64 * blk.toNat)))
          = (u.get (F.MC_FENCED_ACC (u.channelOf (64 * blk.toNat))) + 1) % 2 ^ 32
        ∧ t.logs = u.logs ∧ t.mem = u.mem

/-- The accesses of the memory ports and the commands that act on rows, refresh, arbitration and the content of channels keep the
canonical form of memory. -/
def Obligations.MemoryCommandsKeepCanonicalForm : Prop :=
  ∀ (c : Instr) (s t : State), memoryCommand c = true → Memory.wf s = true → exec c s = .next t → Memory.wf t = true

/-- An active port takes DATA frames in order: one with a good CRC and the expected SEQ moves the expected SEQ on by one and is
counted; one with any other SEQ does not; and one with a bad CRC is counted in CRC_ERRS and does not, and its transaction has no
effect (R436, R437). -/
def Obligations.FramesAreTakenInOrder : Prop :=
  ∀ (dt : Nat) (p : Fin 53) (frame : RxFrame) (s₀ s : State), s = s₀.wait dt → s.held = false → s.fvState p = fvActive →
    (s.fvPort p).rxSeq < 65536 →
      ∃ t, exec (.dataFrameReceive dt p frame) s₀ = .next t ∧ t.mem = s.mem ∧ t.eng = s.eng
        ∧ (frame.crcOk = true → frame.seq.toNat = (s.fvPort p).rxSeq →
            (t.fvPort p).rxSeq = ((s.fvPort p).rxSeq + 1) % 65536
              ∧ t.get (F.FVL_PORT_FRAMES_RX p) = (s.get (F.FVL_PORT_FRAMES_RX p) + 1) % 2 ^ 64)
        ∧ (frame.crcOk = true → frame.seq.toNat ≠ (s.fvPort p).rxSeq →
            (t.fvPort p).rxSeq = (s.fvPort p).rxSeq ∧ (∀ c, (t.fvPort p).cls c = (s.fvPort p).cls c))
        ∧ (frame.crcOk = false → (t.fvPort p).rxSeq = (s.fvPort p).rxSeq
            ∧ (∀ c, (t.fvPort p).cls c = (s.fvPort p).cls c)
            ∧ t.get (F.FVL_PORT_CRC_ERRS p) = (s.get (F.FVL_PORT_CRC_ERRS p) + 1) % 2 ^ 32)

/-- A host interrupt task of a function outside its reset issues the vector's MSI-X write within 40 ns (160 Tempo units) when the
vector is unmasked and the function's Bus Master Enable is set, and otherwise holds the interrupt in the pending bit array; in a Function Level Reset it is
discarded and counted; and an unmask sends a held one out (R33, R454, R458). -/
def Obligations.HostInterruptsAreHeldWhileMasked : Prop :=
  ∀ (s : State) (f : Fin 6) (v : Fin 32),
    (s.inFlr f = true → s.taskTrigger (1856 + 32 * f + v) = s.bump (F.HIF_PF_DISC_INT f))
      ∧ (s.inFlr f = false → s.on (F.MSIX_CTRL f v) = false → s.bmeOf f = true →
          s.hif.msix = [] → ∀ dt, 160 ≤ dt → s.now + dt < 2 ^ 64 →
          (s.taskTrigger (1856 + 32 * f + v)).out = s.out ∧ (s.taskTrigger (1856 + 32 * f + v)).msixGoing f v = true
            ∧ ((s.taskTrigger (1856 + 32 * f + v)).wait dt).out
              = s.out ++ [.hostWrite f false (s.get (F.MSIX_ADDR_LO f v) + 2 ^ 32 * s.get (F.MSIX_ADDR_HI f v)) (toBytes 4 (s.get (F.MSIX_DATA f v)))])
      ∧ (s.inFlr f = false → s.on (F.MSIX_CTRL f v) = true ∨ s.bmeOf f = false →
          bit ((s.taskTrigger (1856 + 32 * f + v)).get (F.MSIX_PBA f)) v = true
            ∧ (s.taskTrigger (1856 + 32 * f + v)).out = s.out
            ∧ ∀ v' : Fin 32, v' ≠ v → bit ((s.taskTrigger (1856 + 32 * f + v)).get (F.MSIX_PBA f)) v' = bit (s.get (F.MSIX_PBA f)) v')
      ∧ (bit (s.get (F.MSIX_PBA f)) v = true → s.bmeOf f = true →
          ∀ (dt : Nat) (who : Requester) (s₀ : State), s = s₀.wait dt → s.TakesWrite who (O.MSIX_CTRL f v) →
            ∃ t, exec (.msixVectorUnmask dt who f v) s₀ = .next t ∧ t.out.length = s.out.length + 1
              ∧ bit (t.get (F.MSIX_PBA f)) v = false ∧ t.on (F.MSIX_CTRL f v) = false)

/-- A new level of a GPIO ball, FILT + 1 samples after the last accepted one at the earliest, shows in GPIO_IN at its bit alone; where the ball's edge selection takes the edge, its status bit
sets and event 16 + i is raised, and otherwise neither happens (R460). -/
def Obligations.GpioEdgeShowsAndRaises : Prop :=
  ∀ (dt : Nat) (i : Fin 32) (level : Bool) (s₀ s : State), s = s₀.wait dt → s.held = false → bit (s.get F.GPIO_IN) i = !level → s.gpioFiltered i = true →
    ∃ t, exec (.gpioEdge dt i level) s₀ = .next t
      ∧ bit (t.get F.GPIO_IN) i = level
      ∧ (∀ j : Fin 32, j ≠ i → bit (t.get F.GPIO_IN) j = bit (s.get F.GPIO_IN) j)
      ∧ (bit (s.gpioSel i) (if level then 0 else 1) = true → bit (t.get F.GPIO_EDGE_STAT) i = true ∧ t.hasRaised (1296 + i) = true)
      ∧ (bit (s.gpioSel i) (if level then 0 else 1) = false →
          t.get F.GPIO_EDGE_STAT = s.get F.GPIO_EDGE_STAT ∧ t.presented = s.presented)
      ∧ (∀ o, o ≠ 0x01410000 → o ≠ 0x01410020 → o < 0x01500000 ∨ 0x01600000 ≤ o → t.word o = s.word o)
      ∧ t.mem = s.mem ∧ t.eng = s.eng ∧ t.out = s.out ∧ t.hif = { s.hif with gpioAt := t.hif.gpioAt }

/-- SEC_DOMAIN is written by PF0 while neither LOCK nor SECURE_BOOT is set, and by the secure management domain while LOCK is not
set; with LOCK set no requester writes it; a refused write leaves it and is logged as cause 0x052 (R510). -/
def Obligations.LockedDomainStands : Prop :=
  ∀ (dt : Nat) (who : Requester) (v : Word) (s₀ s : State), s = s₀.wait dt → s.TakesWrite who O.SEC_DOMAIN →
    (s.on F.SEC_DOMAIN_LOCK = true ∨ (s.on F.SEC_FUSE_SECURE_BOOT = true ∧ s.isSecure who = false) →
        exec (.domainLock dt who v) s₀ = .next (s.logErr siteSec 0x05 0x052 [])
          ∧ (s.logErr siteSec 0x05 0x052 []).get F.SEC_DOMAIN_CLUSTERS = s.get F.SEC_DOMAIN_CLUSTERS)
      ∧ (s.on F.SEC_DOMAIN_LOCK = false → s.isSecure who = true ∨ (bit (s.rights who) 0 = true ∧ s.on F.SEC_FUSE_SECURE_BOOT = false) →
        ∃ t, exec (.domainLock dt who v) s₀ = .next t
          ∧ t.get F.SEC_DOMAIN_CLUSTERS = bits v.toNat 11 0 ∧ t.on F.SEC_DOMAIN_LOCK = true
          ∧ (∀ o, o ≠ 0x0000001C → t.word o = s.word o) ∧ { t with regs := s.regs } = s)

/-- A counter of 48 bits that counts past its end wraps to 0, sets its bit in PMU_OVF and raises event c of the PMU, source
1088 + c (R521). -/
def Obligations.CounterWrapsWithAnEvent : Prop :=
  ∀ (s : State) (c : Fin 32),
    bit ((s.pmuWrap c).get F.PMU_OVF) c = true ∧ (s.pmuWrap c).hasRaised (1088 + c) = true
      ∧ (∀ o, o < 0x01500000 ∨ 0x01600000 ≤ o → (s.pmuWrap c).word o = s.word o)
      ∧ (s.pmuWrap c).mem = s.mem ∧ (s.pmuWrap c).out = s.out

/-- Register accesses and Function Level Resets complete: under the conditions that the manual gives (R5, R6, R8, R458, R545),
each of the commands REGISTER_WRITE, SUBWORD_WRITE, RC_READ, LOW_WORD_READ, LOW_WORD_WRITE, HIGH_WORD_WRITE, LOG_ENTRY_READ,
FUNCTION_LEVEL_RESET, FLR_COMPLETE answers the next state of its own effect. -/
def Obligations.RegisterCommandsComplete : Prop :=
    (∀ (dt : Nat) (who : Requester) (word : BitVec 24) (v : Word) (s₀ s : State), s = s₀.wait dt → s.TakesWrite who (4 * word.toNat) →
      exec (.registerWrite dt who word v) s₀ = .next ((s.busWrite who (4 * word.toNat) v).2))
    ∧ (∀ (dt : Nat) (who : Requester) (s₀ s : State), s = s₀.wait dt → s.held = false → s.inReset who = false →
      exec (.subwordWrite dt who) s₀ = .next (s.logErr siteHif 0x01 0x001))
    ∧ (∀ (dt : Nat) (who : Requester) (a : ReadAt) (s₀ s : State), s = s₀.wait dt → s.TakesRead who a.off →
      exec (.rcRead dt who a) s₀ = .next ((s.busRead who a.off).2.emit (.readData who a.addr (a.part.of ((s.busRead who a.off).1.getD 0)))))
    ∧ (∀ (dt : Nat) (who : Requester) (a : ReadAt) (s₀ s : State), s = s₀.wait dt → s.TakesRead who a.off →
      exec (.lowWordRead dt who a) s₀ = .next ((s.busRead who a.off).2.emit (.readData who a.addr (a.part.of ((s.busRead who a.off).1.getD 0)))))
    ∧ (∀ (dt : Nat) (who : Requester) (word : BitVec 24) (v : Word) (s₀ s : State), s = s₀.wait dt → s.TakesWrite who (4 * word.toNat) →
      exec (.lowWordWrite dt who word v) s₀ = .next ((s.busWrite who (4 * word.toNat) v).2))
    ∧ (∀ (dt : Nat) (who : Requester) (word : BitVec 24) (v : Word) (s₀ s : State), s = s₀.wait dt → s.TakesWrite who (4 * word.toNat) →
      exec (.highWordWrite dt who word v) s₀ = .next ((s.busWrite who (4 * word.toNat) v).2))
    ∧ (∀ (dt : Nat) (who : Requester) (ring : Fin 44) (s₀ s : State), s = s₀.wait dt → s.TakesRead who (logRings.getD ring 0 + 0x40) →
      exec (.logEntryRead dt who ring) s₀ = .next ((s.busRead who (logRings.getD ring 0 + 0x40)).2.emit (.readData who (logRings.getD ring 0 + 0x40) ((s.busRead who (logRings.getD ring 0 + 0x40)).1.getD 0))))
    ∧ (∀ (dt : Nat) (f : Fin 6) (s₀ s : State), s = s₀.wait dt → s.held = false → s.inFlr f = false →
      exec (.functionLevelReset dt f) s₀ = .next (s.flrStart f))
    ∧ (∀ (dt : Nat) (f : Fin 6) (s₀ s : State), s = s₀.wait dt → s.held = false → s.inFlr f = true →
      exec (.flrComplete dt f) s₀ = .next (s.flrEnd f))

/-- Web timing commands complete: under the conditions that the manual gives (R37, R38, R41, R43, R47, R48, R52, R54, R57, R58,
R60, R62), each of the commands ENCODER_INPUT_EDGE, ENCODER_TRANSITION_ACCEPTED, STANDSTILL_TIMEOUT, STUCK_LINE, LEVEL_TIMEOUT,
WCO_LOAD, WCO_SOURCE_WRITE, SNAPSHOT_CAPTURE, SSI_REQUEST, SSI_TRANSFER_DONE, LINE_LAUNCH, LINE_COMMIT, GENERATOR_ENABLE,
GENERATOR_DISABLE, GENERATOR_RESTART, SLOT_ARM, SLOT_FIRE answers the next state of its own effect. -/
def Obligations.WebTimingCommandsComplete : Prop :=
    (∀ (dt : Nat) (n : Fin 4) (line : EncInput) (s₀ s : State), s = s₀.wait dt → s.held = false →
      exec (.encoderInputEdge dt n line) s₀ = .next ((s.acceptAll 3 n).inputEdge n line))
    ∧ (∀ (dt : Nat) (n : Fin 4) (s₀ s : State), s = s₀.wait dt → s.held = false → s.acceptDue n = true →
      exec (.encoderTransitionAccepted dt n) s₀ = .next ((s.acceptCycle n).settleGens))
    ∧ (∀ (dt : Nat) (n : Fin 4) (s₀ s : State), s = s₀.wait dt → s.held = false → (s.on (F.WTU_ENC_CFG_EN n) && s.motion n != stStill && (s.dec n).lastTracked + 8 * s.get F.WTU_STILL_TIME ≤ s.now : Bool) = true →
      exec (.standstillTimeout dt n) s₀ = .next (s.toStill n))
    ∧ (∀ (dt : Nat) (n : Fin 4) (lineB : Bool) (s₀ s : State), s = s₀.wait dt → s.held = false → s.lineStuck n (if lineB then .b else .a) = true →
      exec (.stuckLine dt n lineB) s₀ = .next (
        let d := s.dec n
        let s := s.setDec n (d.setLine (if lineB then .b else .a) { d.line (if lineB then .b else .a) with stuckSeen := true })
        s.decError n (if lineB then F.WTU_ENC_STAT_STUCK_B n else F.WTU_ENC_STAT_STUCK_A n) 0x03 0x021))
    ∧ (∀ (dt : Nat) (n : Fin 4) (lineB : Bool) (s₀ s : State), s = s₀.wait dt → s.held = false → (let l := (s.dec n).line (if lineB then .b else .a); l.level && !l.levelSeen && l.lastAcc + 8 * (2 ^ 16 * s.get (F.WTU_ENC_LEVEL n)) < s.now : Bool) = true →
      exec (.levelTimeout dt n lineB) s₀ = .next (
        let d := s.dec n
        let s := s.setDec n (d.setLine (if lineB then .b else .a) { d.line (if lineB then .b else .a) with levelSeen := true })
        s.decError n (if lineB then F.WTU_ENC_STAT_LEVEL_B n else F.WTU_ENC_STAT_LEVEL_A n) 0x03 0x022))
    ∧ (∀ (dt : Nat) (who : Requester) (s₀ s : State), s = s₀.wait dt → s.TakesWrite who O.WTU_CTRL →
      exec (.wcoLoad dt who) s₀ = .next s.wcoLoad)
    ∧ (∀ (dt : Nat) (who : Requester) (src : Fin 4) (s₀ s : State), s = s₀.wait dt → s.TakesWrite who O.WTU_CTRL →
      exec (.wcoSourceWrite dt who src) s₀ = .next (s.setSource src))
    ∧ (∀ (dt : Nat) (who : Requester) (k : Fin 4) (s₀ s : State), s = s₀.wait dt → s.TakesWrite who (O.WTU_SNAP_CTRL k) →
      exec (.snapshotCapture dt (.reg who) k) s₀ = .next (s.capture k))
    ∧ (∀ (dt : Nat) (k : Fin 4) (s₀ s : State), s = s₀.wait dt → s.held = false →
      exec (.snapshotCapture dt .task k) s₀ = .next (s.capture k))
    ∧ (∀ (dt : Nat) (who : Requester) (m : Fin 2) (s₀ s : State), s = s₀.wait dt → s.TakesWrite who (O.WTU_SSI_REQ m) →
      exec (.ssiRequest dt (.reg who) m) s₀ = .next (s.ssiRequest m))
    ∧ (∀ (dt : Nat) (m : Fin 2) (s₀ s : State), s = s₀.wait dt → s.held = false →
      exec (.ssiRequest dt .task m) s₀ = .next (s.ssiRequest m))
    ∧ (∀ (dt : Nat) (m : Fin 2) (frame : SsiFrame) (s₀ s : State), s = s₀.wait dt → s.held = false → s.on (F.WTU_SSI_STAT_BUSY m) = true →
      exec (.ssiTransferDone dt m frame) s₀ = .next (s.ssiDone m frame))
    ∧ (∀ (dt : Nat) (g : Fin 32) (s₀ s : State) due, s = s₀.wait dt → s.held = false → s.launchDue g = true → s.lineTempo g (s.gen g).nextK = some due →
      exec (.lineLaunch dt g) s₀ = .next (s.launch g due))
    ∧ (∀ (dt : Nat) (g : Fin 32) (s₀ s : State) k due, s = s₀.wait dt → s.held = false → s.commitDue g = true → (s.gen g).launched.head? = some k → s.lineTempo g k = some due →
      exec (.lineCommit dt g) s₀ = .next (s.lineCommit g k due))
    ∧ (∀ (dt : Nat) (who : Requester) (g : Fin 32) (s₀ s : State), s = s₀.wait dt → s.TakesWrite who (O.WTU_LG_CTRL g) →
      exec (.generatorEnable dt who g) s₀ = .next (s.genEnable g))
    ∧ (∀ (dt : Nat) (who : Requester) (g : Fin 32) (s₀ s : State), s = s₀.wait dt → s.TakesWrite who (O.WTU_LG_CTRL g) →
      exec (.generatorDisable dt who g) s₀ = .next (s.genDisable g))
    ∧ (∀ (dt : Nat) (who : Requester) (g : Fin 32) (s₀ s : State), s = s₀.wait dt → s.TakesWrite who (O.WTU_LG_CTRL g) →
      exec (.generatorRestart dt who g) s₀ = .next (s.genRestart g))
    ∧ (∀ (dt : Nat) (who : Requester) (slot : Fin 32) (s₀ s : State), s = s₀.wait dt → s.TakesWrite who (O.WTU_SLOT_CTRL slot) →
      exec (.slotArm dt who slot) s₀ = .next (s.slotArm slot))
    ∧ (∀ (dt : Nat) (slot : Fin 32) (s₀ s : State), s = s₀.wait dt → s.held = false → s.slotDue slot = true →
      exec (.slotFire dt slot) s₀ = .next (s.slotFire slot))

/-- Job ingest and compression commands complete: under the conditions that the manual gives (R75, R77, R78, R79, R83, R84, R85,
R90), each of the commands CMP_RING_ENABLE, RING_PROD_WRITE, RING_RESUME, RING_CONS_WRITE, RECORD_DISPATCH, INFLATE_STREAM_END,
PLANE_ENABLE, DQ_PROD_WRITE, DESCRIPTOR_DISPATCH, DEFLATE_COMPLETE answers the next state of its own effect. -/
def Obligations.JobIngestCommandsComplete : Prop :=
    (∀ (dt : Nat) (who : Requester) (r : Fin 4) (s₀ s : State), s = s₀.wait dt → s.TakesWrite who (O.CMP_RING_CFG r) →
      exec (.cmpRingEnable dt who r) s₀ = .next (s.ringEnable r))
    ∧ (∀ (dt : Nat) (who : Requester) (r : Fin 4) (hi : Word) (s₀ s : State), s = s₀.wait dt → s.TakesWrite who (O.CMP_RING_PROD r) →
      exec (.ringProdWrite dt who r hi) s₀ = .next ((s.consumeLow who (O.CMP_RING_PROD r)).setProd r (s.joined who (O.CMP_RING_PROD r) hi)))
    ∧ (∀ (dt : Nat) (who : Requester) (r : Fin 4) (s₀ s : State), s = s₀.wait dt → s.TakesWrite who (O.CMP_RING_CFG r) →
      exec (.ringResume dt who r) s₀ = .next (s.ringResume r))
    ∧ (∀ (dt : Nat) (who : Requester) (r : Fin 4) (hi : Word) (s₀ s : State), s = s₀.wait dt → s.TakesWrite who (O.CMP_RING_CONS r) →
      exec (.ringConsWrite dt who r hi) s₀ = .next ((s.consumeLow who (O.CMP_RING_CONS r)).setCons r (s.joined who (O.CMP_RING_CONS r) hi)))
    ∧ (∀ (dt : Nat) (s₀ s : State), s = s₀.wait dt → s.held = false → (s.nextRing.isSome && s.idleLane.isSome : Bool) = true →
      exec (.recordDispatch dt) s₀ = .next s.dispatch)
    ∧ (∀ (dt : Nat) (lane : Fin 32) (s₀ s : State) t, s = s₀.wait dt → s.held = false → s.lane lane = some t →
      exec (.inflateStreamEnd dt lane) s₀ = .next (s.endStream lane t))
    ∧ (∀ (dt : Nat) (who : Requester) (p : Fin 64) (s₀ s : State), s = s₀.wait dt → s.TakesWrite who (O.CMP_PLANE_GEOM2 p) →
      exec (.planeEnable dt who p) s₀ = .next (s.planeEnable p))
    ∧ (∀ (dt : Nat) (who : Requester) (v : Word) (s₀ s : State), s = s₀.wait dt → s.TakesWrite who O.CMP_DQ_PROD →
      exec (.dqProdWrite dt who v) s₀ = .next (s.put F.CMP_DQ_PROD v.toNat))
    ∧ (∀ (dt : Nat) (s₀ s : State), s = s₀.wait dt → s.held = false → (s.descWaiting && s.idleDefl.isSome : Bool) = true →
      exec (.descriptorDispatch dt) s₀ = .next s.takeDesc)
    ∧ (∀ (dt : Nat) (lane : Fin 8) (s₀ s : State) d, s = s₀.wait dt → s.held = false → s.deflLane lane = some d →
      exec (.deflateComplete dt lane) s₀ = .next (s.deflate lane d))

/-- Render pipe commands complete: under the conditions that the manual gives (R93, R94, R101, R108, R114, R120), each of the
commands LINE_RENDER_START, LINE_RENDER_END, SNAPSHOT_RETIRE, PIPE_ENABLE, PIPE_DISABLE, THRESHOLD_STORE_WRITE,
THRESHOLD_STORE_READ, SLACK_RST answers the next state of its own effect. -/
def Obligations.RenderPipeCommandsComplete : Prop :=
    (∀ (dt : Nat) (n : Fin 8) (s₀ s : State) q, s = s₀.wait dt → s.held = false → s.nextLine n = some q →
      exec (.lineRenderStart dt n) s₀ = .next (s.renderStart n q))
    ∧ (∀ (dt : Nat) (n : Fin 8) (s₀ s : State) q t, s = s₀.wait dt → s.held = false → s.renderedLine n = some (q, t) →
      exec (.lineRenderEnd dt n) s₀ = .next (s.renderEnd n q t))
    ∧ (∀ (dt : Nat) (n : Fin 8) (s₀ s : State), s = s₀.wait dt → s.held = false → s.retirable n = true →
      exec (.snapshotRetire dt n) s₀ = .next (s.retireSnap n))
    ∧ (∀ (dt : Nat) (who : Requester) (n : Fin 8) (s₀ s : State), s = s₀.wait dt → s.TakesWrite who (O.RP_CTRL n) →
      exec (.pipeEnable dt who n) s₀ = .next (s.pipeEnable n))
    ∧ (∀ (dt : Nat) (who : Requester) (n : Fin 8) (s₀ s : State), s = s₀.wait dt → s.TakesWrite who (O.RP_CTRL n) →
      exec (.pipeDisable dt who n) s₀ = .next (s.pipeDisable n))
    ∧ (∀ (dt : Nat) (who : Requester) (hi : Word) (s₀ s : State), s = s₀.wait dt → s.TakesWrite who O.RP_TS_DATA →
      exec (.thresholdStoreWrite dt who hi) s₀ = .next (((s.consumeLow who O.RP_TS_DATA).tsStore ((s.consumeLow who O.RP_TS_DATA).get F.RP_TS_ADDR) (s.joined who O.RP_TS_DATA hi)).tsAdvance))
    ∧ (∀ (dt : Nat) (who : Requester) (s₀ s : State), s = s₀.wait dt → s.TakesRead who O.RP_TS_DATA →
      exec (.thresholdStoreRead dt who) s₀ = .next (s.tsRead who))
    ∧ (∀ (dt : Nat) (who : Requester) (n : Fin 8) (s₀ s : State), s = s₀.wait dt → s.TakesWrite who (O.RP_CTRL n) →
      exec (.slackRst dt who n) s₀ = .next (s.put (F.RP_MIN_SLACK n) 0xFFFFFFFF))

/-- Nozzle table commands complete: under the conditions that the manual gives (R25, R123, R124, R125, R126), each of the
commands NT_INIT, NT_INIT_DONE, NT_WINDOW_WRITE, NT_WINDOW_READ, NT_RMW_UPDATE, UPDATE_PORT_APPLY, SCRUB_VISIT answers the next
state of its own effect. -/
def Obligations.NozzleTableCommandsComplete : Prop :=
    (∀ (dt : Nat) (who : Requester) (s₀ s : State), s = s₀.wait dt → s.TakesWrite who O.RP_NT_CTRL →
      exec (.ntInit dt who) s₀ = .next s.ntInit)
    ∧ (∀ (dt : Nat) (s₀ s : State), s = s₀.wait dt → s.held = false → s.ntInitOver = true →
      exec (.ntInitDone dt) s₀ = .next s.ntInitEnd)
    ∧ (∀ (dt : Nat) (who : Requester) (idx : Fin 524288) (w : WinWrite) (s₀ s : State), s = s₀.wait dt → s.TakesWrite who (ntOff idx) →
      exec (.ntWindowWrite dt who idx w) s₀ = .next (s.ntWindow who idx w))
    ∧ (∀ (dt : Nat) (who : Requester) (idx : Fin 524288) (w : WinRead) (s₀ s : State), s = s₀.wait dt → s.TakesRead who (ntOff idx) →
      exec (.ntWindowRead dt who idx w) s₀ = .next (s.ntWindowRead who idx w))
    ∧ (∀ (dt : Nat) (who : Requester) (i : Fin 4) (hi : Word) (s₀ s : State), s = s₀.wait dt → s.TakesWrite who (O.RP_NT_RMW_DATA i) →
      exec (.ntRmwUpdate dt who i hi) s₀ = .next ((s.consumeLow who (O.RP_NT_RMW_DATA i)).ntRmw i (s.joined who (O.RP_NT_RMW_DATA i) hi)))
    ∧ (∀ (dt : Nat) (s₀ s : State), s = s₀.wait dt → s.held = false → s.ntReady = true →
      exec (.updatePortApply dt) s₀ = .next s.ntServe)
    ∧ (∀ (dt : Nat) (s₀ s : State), s = s₀.wait dt → s.held = false → (s.nt.initAt.isNone && s.on F.RP_NT_CTRL_SCRUB_EN && s.nt.scrubAt + 256 * 4 ≤ s.now : Bool) = true →
      exec (.scrubVisit dt) s₀ = .next s.scrub)

/-- Fire timing and head port commands complete: under the conditions that the manual gives (R139, R140, R141, R154, R155, R156,
R160, R161, R163, R165, R166, R167), each of the commands OVERSPEED_RECORD, INHIBIT_END, OVERSPEED_POLICY_WRITE,
PACKED_DATA_ARRIVAL, HEAD_LINE_SEND, LATCH_ACK_RECEIVE, STROBE_DECISION, STROBE_START, STROBE_END, ACK_TIMEOUT, FLAG_FALL,
FLG_STOPPED, FLG_RESUME, FLAG_FALL_CLEAR, HEAD_ENABLE, HEAD_DISABLE answers the next state of its own effect. -/
def Obligations.FireTimingCommandsComplete : Prop :=
    (∀ (dt : Nat) (bar : Fin 8) (s₀ s : State), s = s₀.wait dt → s.held = false → s.skipsOver bar = true →
      exec (.overspeedRecord dt bar) s₀ = .next (s.closeSkips bar))
    ∧ (∀ (dt : Nat) (s₀ s : State), s = s₀.wait dt → s.held = false → s.inhibitOver = true →
      exec (.inhibitEnd dt) s₀ = .next (s.endInhibit (s.get F.FTU_OVS_RES_WCO)))
    ∧ (∀ (dt : Nat) (who : Requester) (inhibit : Bool) (s₀ s : State), s = s₀.wait dt → s.TakesWrite who O.FTU_OVS_CTRL →
      exec (.overspeedPolicyWrite dt who inhibit) s₀ = .next (s.setPolicy inhibit))
    ∧ (∀ (dt : Nat) (x : Fin 128) (s₀ s : State) l, s = s₀.wait dt → s.held = false → s.arriving x = some l →
      exec (.packedDataArrival dt x) s₀ = .next (s.arrive x l))
    ∧ (∀ (dt : Nat) (x : Fin 128) (s₀ s : State) l, s = s₀.wait dt → s.held = false → s.sendable x = some l →
      exec (.headLineSend dt x) s₀ = .next (s.send x l))
    ∧ (∀ (dt : Nat) (x : Fin 128) (status : Fin 8) (line : Word) (s₀ s : State), s = s₀.wait dt → s.held = false →
      exec (.latchAckReceive dt x status line) s₀ = .next (s.ack x status line.toNat))
    ∧ (∀ (dt : Nat) (x : Fin 128) (s₀ s : State) l, s = s₀.wait dt → s.held = false → s.deciding x = some l →
      exec (.strobeDecision dt x) s₀ = .next (s.decide_ x l))
    ∧ (∀ (dt : Nat) (x : Fin 128) (s₀ s : State) f, s = s₀.wait dt → s.held = false → s.starting x = some f →
      exec (.strobeStart dt x) s₀ = .next (s.strobeStart x f))
    ∧ (∀ (dt : Nat) (x : Fin 128) (s₀ s : State) (fall : Nat), s = s₀.wait dt → s.held = false → s.strobeFall x = some fall → fall ≤ s.now →
      exec (.strobeEnd dt x) s₀ = .next (s.strobeEnd x fall))
    ∧ (∀ (dt : Nat) (x : Fin 128) (s₀ s : State), s = s₀.wait dt → s.held = false → s.ackLate x = true →
      exec (.ackTimeout dt x) s₀ = .next (s.ackTimeout x))
    ∧ (∀ (dt : Nat) (x : Fin 128) (stuck : Bool) (s₀ s : State), s = s₀.wait dt → s.held = false → s.overHigh x = true →
      exec (.flagFall dt x stuck) s₀ = .next (s.flagFall x stuck))
    ∧ (∀ (dt : Nat) (s₀ s : State), s = s₀.wait dt → s.held = false → s.on F.FTU_STAT_FLG_OK = true →
      exec (.flgStopped dt) s₀ = .next s.flgStop)
    ∧ (∀ (dt : Nat) (who : Requester) (edges : Bool) (s₀ s : State), s = s₀.wait dt → s.TakesWrite who O.FTU_CTRL →
      exec (.flgResume dt who edges) s₀ = .next (s.flgResume edges))
    ∧ (∀ (dt : Nat) (who : Requester) (x : Fin 128) (high : Bool) (s₀ s : State), s = s₀.wait dt → s.TakesWrite who (O.FTU_HEAD_STAT x) →
      exec (.flagFallClear dt who x high) s₀ = .next (s.clearFall x high))
    ∧ (∀ (dt : Nat) (who : Requester) (x : Fin 128) (s₀ s : State), s = s₀.wait dt → s.TakesWrite who (O.FTU_HEAD_CFG x) →
      exec (.headEnable dt who x) s₀ = .next (s.headEnable x))
    ∧ (∀ (dt : Nat) (x : Fin 128) (s₀ s : State) (who : Requester), s = s₀.wait dt → s.TakesWrite who (O.FTU_HEAD_CFG x) →
      exec (.headDisable dt (.reg who) x) s₀ = .next ((s.put (F.FTU_HEAD_CFG_EN x) 0).headStop x))
    ∧ (∀ (dt : Nat) (x : Fin 128) (s₀ s : State), s = s₀.wait dt → s.held = false → s.on (F.FTU_LINK_STAT_UP (x / 4)) = false →
      exec (.headDisable dt .link x) s₀ = .next (s.headStop x))

/-- Drop gate commands complete: under the conditions that the manual gives (R177, R180, R183, R191, R192), each of the commands
CIC_OUTPUT, CHANNEL_RESTART, SCAN_ARM, SCAN_ABORT, RESULT_RECORD_WRITE answers the next state of its own effect. -/
def Obligations.DropGateCommandsComplete : Prop :=
    (∀ (dt : Nat) (c : Fin 16) (bits : SdBits) (s₀ s : State), s = s₀.wait dt → s.held = false → s.cicDue c bits = true →
      exec (.cicOutput dt c bits) s₀ = .next (s.cicOutput c bits.bits))
    ∧ (∀ (dt : Nat) (c : Fin 16) (s₀ s : State), s = s₀.wait dt → s.held = false → s.restartDue c = true →
      exec (.channelRestart dt c) s₀ = .next (s.cicRestart c))
    ∧ (∀ (dt : Nat) (who : Requester) (slot : Fin 8) (s₀ s : State), s = s₀.wait dt → s.TakesWrite who (O.DGU_SCAN_CTRL slot) →
      exec (.scanArm dt who slot) s₀ = .next (s.scanArm slot))
    ∧ (∀ (dt : Nat) (who : Requester) (slot : Fin 8) (s₀ s : State), s = s₀.wait dt → s.TakesWrite who (O.DGU_SCAN_CTRL slot) →
      exec (.scanAbort dt who slot) s₀ = .next (s.scanDrop slot))
    ∧ (∀ (dt : Nat) (s₀ s : State), s = s₀.wait dt → s.held = false → s.recordDue = true →
      exec (.resultRecordWrite dt) s₀ = .next s.recordNext)

/-- Camera ingest and inspection commands complete: under the conditions that the manual gives (R197, R211, R215, R219, R220,
R238, R240, R262, R269), each of the commands HB_CHAIN_ENABLE, CIN_PORT_ENABLE, CIN_PORT_DISABLE, CAMERA_PACKET_RECEIVE,
EXP_COMMIT, TELEMETRY_SILENT, IPL_ENABLE, IPL_DISABLE, RRU_ENABLE, RRU_DISABLE, STITCHED_LINE_FORM, REFERENCE_LINE_START,
REFERENCE_LINE_COMPLETE, IPL_TABLE_ACCESS answers the next state of its own effect. -/
def Obligations.CameraAndInspectionCommandsComplete : Prop :=
    (∀ (dt : Nat) (who : Requester) (i : Fin 4) (s₀ s : State), s = s₀.wait dt → s.TakesWrite who (O.DGU_HB_CFG i) →
      exec (.hbChainEnable dt who i) s₀ = .next (s.hbEnable i))
    ∧ (∀ (dt : Nat) (who : Requester) (n : Fin 16) (s₀ s : State), s = s₀.wait dt → s.TakesWrite who (O.CIN_PORT_CTRL n) →
      exec (.cinPortEnable dt who n) s₀ = .next (s.cinEnable n))
    ∧ (∀ (dt : Nat) (who : Requester) (n : Fin 16) (s₀ s : State), s = s₀.wait dt → s.TakesWrite who (O.CIN_PORT_CTRL n) →
      exec (.cinPortDisable dt who n) s₀ = .next (s.cinDisable n))
    ∧ (∀ (dt : Nat) (n : Fin 16) (pkt : CamPacket) (s₀ s : State), s = s₀.wait dt → s.held = false → s.on (F.CIN_PORT_STAT_LINK_UP n) = true →
      exec (.cameraPacketReceive dt n pkt) s₀ = .next (s.camPacket n pkt))
    ∧ (∀ (dt : Nat) (who : Requester) (n : Fin 16) (s₀ s : State), s = s₀.wait dt → s.TakesWrite who (O.CIN_PORT_CTRL n) →
      exec (.expCommit dt who n) s₀ = .next (s.expCommit n))
    ∧ (∀ (dt : Nat) (n : Fin 16) (s₀ s : State), s = s₀.wait dt → s.held = false → (s.cinState n = cinRunning && (s.cam n).telAt + 4000000000 ≤ s.now : Bool) = true →
      exec (.telemetrySilent dt n) s₀ = .next (
        let s := s.setCam n { s.cam n with telAt := s.now }
        (s.telAlarm n).cinErr n 0x03 0x023 ((s.cam n).lastTrig.getD 0)))
    ∧ (∀ (dt : Nat) (who : Requester) (s₀ s : State), s = s₀.wait dt → s.TakesWrite who O.IPL_CTRL →
      exec (.iplEnable dt who) s₀ = .next s.iplEnable)
    ∧ (∀ (dt : Nat) (who : Requester) (s₀ s : State), s = s₀.wait dt → s.TakesWrite who O.IPL_CTRL →
      exec (.iplDisable dt who) s₀ = .next s.iplDisable)
    ∧ (∀ (dt : Nat) (who : Requester) (s₀ s : State), s = s₀.wait dt → s.TakesWrite who O.RRU_CTRL →
      exec (.rruEnable dt who) s₀ = .next s.rruEnable)
    ∧ (∀ (dt : Nat) (who : Requester) (s₀ s : State), s = s₀.wait dt → s.TakesWrite who O.RRU_CTRL →
      exec (.rruDisable dt who) s₀ = .next s.rruDisable)
    ∧ (∀ (dt : Nat) (s₀ s : State) t, s = s₀.wait dt → s.held = false → s.formable = some t → s.get F.IPL_STAT_STATE ≠ unitDisabled →
      exec (.stitchedLineForm dt) s₀ = .next (s.form t))
    ∧ (∀ (dt : Nat) (s₀ s : State) r, s = s₀.wait dt → s.held = false → s.refReady = some r →
      exec (.referenceLineStart dt) s₀ = .next (s.refStart r))
    ∧ (∀ (dt : Nat) (s₀ s : State) r rest, s = s₀.wait dt → s.held = false → s.rru.busy = r :: rest →
      exec (.referenceLineComplete dt) s₀ = .next (s.refComplete r))
    ∧ (∀ (dt : Nat) (who : Requester) (s₀ s : State) (v : Word), s = s₀.wait dt → s.TakesWrite who O.IPL_TBL_DATA →
      exec (.iplTableAccess dt who (some v)) s₀ = .next (s.tblAccess who (some v)))
    ∧ (∀ (dt : Nat) (who : Requester) (s₀ s : State), s = s₀.wait dt → s.TakesRead who O.IPL_TBL_DATA →
      exec (.iplTableAccess dt who none) s₀ = .next (s.tblAccess who none))

/-- Defect queue commands complete: under the conditions that the manual gives (R278, R281, R282, R283, R284, R292), each of the
commands DFQ_ADMIT, DFQ_RECORD_TAKE, DROP_REST, FLUSH, PUSH_COMMIT, DRAIN_PACKET_WRITE answers the next state of its own effect.
-/
def Obligations.DefectQueueCommandsComplete : Prop :=
    (∀ (dt : Nat) (s₀ s : State), s = s₀.wait dt → s.held = false → s.offersDue ≠ [] →
      exec (.dfqAdmit dt) s₀ = .next s.serveOffer)
    ∧ (∀ (dt : Nat) (who : Requester) (s₀ s : State), s = s₀.wait dt → s.TakesRead who (O.DFQ_RD 0) →
      exec (.dfqRecordTake dt who) s₀ = .next (s.readTake who))
    ∧ (∀ (dt : Nat) (who : Requester) (s₀ s : State), s = s₀.wait dt → s.TakesWrite who O.DFQ_CTRL →
      exec (.dropRest dt who) s₀ = .next (s.dropRest (s.dfqReq who)))
    ∧ (∀ (dt : Nat) (who : Requester) (s₀ s : State), s = s₀.wait dt → s.TakesWrite who O.DFQ_CTRL →
      exec (.flush dt who) s₀ = .next s.flushQueue)
    ∧ (∀ (dt : Nat) (who : Requester) (s₀ s : State), s = s₀.wait dt → s.TakesWrite who O.DFQ_PUSH_CTRL →
      exec (.pushCommit dt who) s₀ = .next (s.pushCommit (s.dfqReq who)))
    ∧ (∀ (dt : Nat) (s₀ s : State), s = s₀.wait dt → s.held = false → s.drainHead.isSome = true →
      exec (.drainPacketWrite dt) s₀ = .next s.drainPacket)

/-- Fabric image and splice commands complete: under the conditions that the manual gives (R303, R304, R305, R307, R308, R311,
R313, R316), each of the commands FAB_GO, VERIFY_PASS_END, APPLY_PASS_END, FAB_ABORT, FAB_ARM, ARM_CHECK_END, SPLICE_WCO_WRITE,
STATION_SWITCH, COMMIT_QUEUE_WRITE, FAB_REARM, TWIN_SPLICE_DECISION, TWIN_SPLICE_MESSAGE answers the next state of its own
effect. -/
def Obligations.SpliceCommandsComplete : Prop :=
    (∀ (dt : Nat) (who : Requester) (s₀ s : State), s = s₀.wait dt → s.TakesWrite who O.FAB_CTRL →
      exec (.fabGo dt who) s₀ = .next s.fabGo)
    ∧ (∀ (dt : Nat) (s₀ s : State), s = s₀.wait dt → s.held = false → s.fabState = fbVerifying →
      exec (.verifyPassEnd dt) s₀ = .next s.verifyEnd)
    ∧ (∀ (dt : Nat) (s₀ s : State), s = s₀.wait dt → s.held = false → s.fabState = fbApplying →
      exec (.applyPassEnd dt) s₀ = .next s.applyEnd)
    ∧ (∀ (dt : Nat) (who : Requester) (s₀ s : State), s = s₀.wait dt → s.TakesWrite who O.FAB_CTRL →
      exec (.fabAbort dt who) s₀ = .next s.abort)
    ∧ (∀ (dt : Nat) (who : Requester) (s₀ s : State), s = s₀.wait dt → s.TakesWrite who O.FAB_CTRL →
      exec (.fabArm dt who) s₀ = .next s.fabArm)
    ∧ (∀ (dt : Nat) (s₀ s : State) rearm, s = s₀.wait dt → s.held = false → s.fab.arming = some rearm →
      exec (.armCheckEnd dt) s₀ = .next (s.armEnd rearm))
    ∧ (∀ (dt : Nat) (who : Requester) (hi : Word) (s₀ s : State), s = s₀.wait dt → s.TakesWrite who (O.FAB_SPLICE_WCO + 4) →
      exec (.spliceWcoWrite dt who hi) s₀ = .next (    (s.consumeLow who O.FAB_SPLICE_WCO).spliceWcoWrite (s.joined who O.FAB_SPLICE_WCO hi)))
    ∧ (∀ (dt : Nat) (st : Fin 10) (s₀ s : State), s = s₀.wait dt → s.held = false → st = 9 → s.globalDue = true →
      exec (.stationSwitch dt st) s₀ = .next s.globalMoment)
    ∧ (∀ (dt : Nat) (st : Fin 10) (s₀ s : State), s = s₀.wait dt → s.held = false → st ≠ 9 → s.launchDue (s.stationGen st) = true →
      exec (.stationSwitch dt st) s₀ = .next (s.launchStation (s.stationGen st) (s.gen (s.stationGen st)).nextK
        (s.linePos (s.stationGen st) (s.gen (s.stationGen st)).nextK) st))
    ∧ (∀ (dt : Nat) (s₀ s : State), s = s₀.wait dt → s.held = false → s.fab.ready ≠ [] →
      exec (.commitQueueWrite dt) s₀ = .next s.landQueued)
    ∧ (∀ (dt : Nat) (who : Requester) (s₀ s : State), s = s₀.wait dt → s.TakesWrite who O.FAB_CTRL →
      exec (.fabRearm dt who) s₀ = .next s.fabRearm)
    ∧ (∀ (dt : Nat) (s₀ s : State), s = s₀.wait dt → s.held = false → (s.undecided && decide (s.decisionPoint ≤ (s.wco : Int)) : Bool) = true →
      exec (.twinSpliceDecision dt) s₀ = .next s.twinDecide)
    ∧ (∀ (dt : Nat) (msg : SpliceMsg) (s₀ s : State), s = s₀.wait dt → s.held = false → s.twinSplice = true →
      exec (.twinSpliceMessage dt msg true) s₀ = .next (s.spliceMessage msg))
    ∧ (∀ (dt : Nat) (msg : SpliceMsg) (s₀ s : State), s = s₀.wait dt → s.held = false → s.twinSplice = true →
      exec (.twinSpliceMessage dt msg false) s₀ = .next (s.logErr siteTwn 0x05 0x041 []))

/-- Engine control commands complete: under the conditions that the manual gives (R334, R337, R340, R341), each of the commands
WAIT_END, ILLEGAL, ENG_START, ENG_STOP, STOP_COMPLETE, ENG_OFF, OFF_COMPLETE, ENG_INIT_DONE answers the next state of its own
effect. -/
def Obligations.EngineControlCommandsComplete : Prop :=
    (∀ (dt : Nat) (e : Fin 192) (s₀ s : State) (w : Nat) (deadline : DWord), s = s₀.wait dt → s.held = false → s.engState e = egWaiting → (s.engine e).off = false → (s.engine e).wait = some (w, deadline) → s.waitHolds e deadline (insImm8 w) = true →
      exec (.engWaitEnd dt e) s₀ = .next (s.wakeUp e w))
    ∧ (∀ (dt : Nat) (e : Fin 192) (s₀ s : State) (w : Nat) (u : State), s = s₀.wait dt → s.held = false → s.issuing e = true → s.engFetch e = (.ok w, u) → cregar w = none →
      exec (.engIllegal dt e) s₀ = .next (u.engFault e 0x002 0))
    ∧ (∀ (dt : Nat) (e : Fin 192) (s₀ s : State) (cause : Nat) (u : State), s = s₀.wait dt → s.held = false → s.issuing e = true → s.engFetch e = (.error cause, u) →
      exec (.engIllegal dt e) s₀ = .next (u.engFault e cause (s.pc e)))
    ∧ (∀ (dt : Nat) (who : Requester) (w : Fin 6) (v : Word) (s₀ s : State), s = s₀.wait dt → s.TakesWrite who (O.ENG_START w) →
      exec (.engStart dt who w v) s₀ = .next (s.engEach State.engStart who (O.ENG_START w) w v.toNat))
    ∧ (∀ (dt : Nat) (who : Requester) (w : Fin 6) (v : Word) (s₀ s : State), s = s₀.wait dt → s.TakesWrite who (O.ENG_STOP w) →
      exec (.engStop dt who w v) s₀ = .next (s.engEach State.engStop who (O.ENG_STOP w) w v.toNat))
    ∧ (∀ (dt : Nat) (e : Fin 192) (s₀ s : State), s = s₀.wait dt → s.held = false → ((s.engine e).stop && (s.engState e == egRunning || s.engState e == egWaiting) : Bool) = true →
      exec (.stopComplete dt e) s₀ = .next (s.engStill e egHalted))
    ∧ (∀ (dt : Nat) (who : Requester) (w : Fin 6) (v : Word) (s₀ s : State), s = s₀.wait dt → s.TakesWrite who (O.ENG_OFF w) →
      exec (.engOff dt who w v) s₀ = .next (s.engEach State.engOff who (O.ENG_OFF w) w v.toNat))
    ∧ (∀ (dt : Nat) (e : Fin 192) (s₀ s : State), s = s₀.wait dt → s.held = false → (s.engine e).off = true →
      exec (.offComplete dt e) s₀ = .next ((s.engDrain e).engKill e))
    ∧ (∀ (dt : Nat) (s₀ s : State), s = s₀.wait dt → s.held = false → s.on F.ENG_STAT = false →
      exec (.engInitDone dt) s₀ = .next ({ s with emem := {} }.put F.ENG_STAT 1))

/-- Scalar instructions of the Cregar engines complete with their results: under the conditions that the manual gives (R335),
each of the commands ADD, SUB, AND, OR, XOR, SLL, SRL, SRA, SLT, SLTU, MIN, MAX, POPC, MUL, DIV, DIVU, REM, REMU, ADDI, ANDI,
ORI, SLLI, SRLI, SRAI, INS16, EXT answers the next state of its own effect. -/
def Obligations.EngineScalarInstructionsComplete : Prop :=
    (∀ (dt : Nat) (e : Fin 192) (s₀ s : State) (w : Nat) (u : State), s = s₀.wait dt → s.Runs e .add w u →
      exec (.engAdd dt e) s₀ = .next (u.retired e .add w (u.setS e (insD w) ((u.sreg e (insA w)) + (u.sreg e (insB w))))))
    ∧ (∀ (dt : Nat) (e : Fin 192) (s₀ s : State) (w : Nat) (u : State), s = s₀.wait dt → s.Runs e .sub w u →
      exec (.engSub dt e) s₀ = .next (u.retired e .sub w (u.setS e (insD w) ((u.sreg e (insA w)) - (u.sreg e (insB w))))))
    ∧ (∀ (dt : Nat) (e : Fin 192) (s₀ s : State) (w : Nat) (u : State), s = s₀.wait dt → s.Runs e .and w u →
      exec (.engAnd dt e) s₀ = .next (u.retired e .and w (u.setS e (insD w) ((u.sreg e (insA w)) &&& (u.sreg e (insB w))))))
    ∧ (∀ (dt : Nat) (e : Fin 192) (s₀ s : State) (w : Nat) (u : State), s = s₀.wait dt → s.Runs e .or w u →
      exec (.engOr dt e) s₀ = .next (u.retired e .or w (u.setS e (insD w) ((u.sreg e (insA w)) ||| (u.sreg e (insB w))))))
    ∧ (∀ (dt : Nat) (e : Fin 192) (s₀ s : State) (w : Nat) (u : State), s = s₀.wait dt → s.Runs e .xor w u →
      exec (.engXor dt e) s₀ = .next (u.retired e .xor w (u.setS e (insD w) ((u.sreg e (insA w)) ^^^ (u.sreg e (insB w))))))
    ∧ (∀ (dt : Nat) (e : Fin 192) (s₀ s : State) (w : Nat) (u : State), s = s₀.wait dt → s.Runs e .sll w u →
      exec (.engSll dt e) s₀ = .next (u.retired e .sll w (u.setS e (insD w) (shl64 (u.sreg e (insA w)) (u.sreg e (insB w))))))
    ∧ (∀ (dt : Nat) (e : Fin 192) (s₀ s : State) (w : Nat) (u : State), s = s₀.wait dt → s.Runs e .srl w u →
      exec (.engSrl dt e) s₀ = .next (u.retired e .srl w (u.setS e (insD w) (shr64 (u.sreg e (insA w)) (u.sreg e (insB w))))))
    ∧ (∀ (dt : Nat) (e : Fin 192) (s₀ s : State) (w : Nat) (u : State), s = s₀.wait dt → s.Runs e .sra w u →
      exec (.engSra dt e) s₀ = .next (u.retired e .sra w (u.setS e (insD w) (sar64 (u.sreg e (insA w)) (u.sreg e (insB w))))))
    ∧ (∀ (dt : Nat) (e : Fin 192) (s₀ s : State) (w : Nat) (u : State), s = s₀.wait dt → s.Runs e .slt w u →
      exec (.engSlt dt e) s₀ = .next (u.retired e .slt w (u.setS e (insD w) (truth ((u.sreg e (insA w)).slt (u.sreg e (insB w)))))))
    ∧ (∀ (dt : Nat) (e : Fin 192) (s₀ s : State) (w : Nat) (u : State), s = s₀.wait dt → s.Runs e .sltu w u →
      exec (.engSltu dt e) s₀ = .next (u.retired e .sltu w (u.setS e (insD w) (truth ((u.sreg e (insA w)).ult (u.sreg e (insB w)))))))
    ∧ (∀ (dt : Nat) (e : Fin 192) (s₀ s : State) (w : Nat) (u : State), s = s₀.wait dt → s.Runs e .min w u →
      exec (.engMin dt e) s₀ = .next (u.retired e .min w (u.setS e (insD w) (min64 (u.sreg e (insA w)) (u.sreg e (insB w))))))
    ∧ (∀ (dt : Nat) (e : Fin 192) (s₀ s : State) (w : Nat) (u : State), s = s₀.wait dt → s.Runs e .max w u →
      exec (.engMax dt e) s₀ = .next (u.retired e .max w (u.setS e (insD w) (max64 (u.sreg e (insA w)) (u.sreg e (insB w))))))
    ∧ (∀ (dt : Nat) (e : Fin 192) (s₀ s : State) (w : Nat) (u : State), s = s₀.wait dt → s.Runs e .popc w u →
      exec (.engPopc dt e) s₀ = .next (u.retired e .popc w (u.setS e (insD w) (popCount (u.sreg e (insA w))))))
    ∧ (∀ (dt : Nat) (e : Fin 192) (s₀ s : State) (w : Nat) (u : State), s = s₀.wait dt → s.Runs e .mul w u →
      exec (.engMul dt e) s₀ = .next (u.retired e .mul w (u.setS e (insD w) ((u.sreg e (insA w)) * (u.sreg e (insB w))))))
    ∧ (∀ (dt : Nat) (e : Fin 192) (s₀ s : State) (w : Nat) (u : State), s = s₀.wait dt → s.Runs e .div w u →
      exec (.engDiv dt e) s₀ = .next (u.retired e .div w (u.setS e (insD w) (div64 (u.sreg e (insA w)) (u.sreg e (insB w))))))
    ∧ (∀ (dt : Nat) (e : Fin 192) (s₀ s : State) (w : Nat) (u : State), s = s₀.wait dt → s.Runs e .divu w u →
      exec (.engDivu dt e) s₀ = .next (u.retired e .divu w (u.setS e (insD w) (divu64 (u.sreg e (insA w)) (u.sreg e (insB w))))))
    ∧ (∀ (dt : Nat) (e : Fin 192) (s₀ s : State) (w : Nat) (u : State), s = s₀.wait dt → s.Runs e .rem w u →
      exec (.engRem dt e) s₀ = .next (u.retired e .rem w (u.setS e (insD w) (rem64 (u.sreg e (insA w)) (u.sreg e (insB w))))))
    ∧ (∀ (dt : Nat) (e : Fin 192) (s₀ s : State) (w : Nat) (u : State), s = s₀.wait dt → s.Runs e .remu w u →
      exec (.engRemu dt e) s₀ = .next (u.retired e .remu w (u.setS e (insD w) (remu64 (u.sreg e (insA w)) (u.sreg e (insB w))))))
    ∧ (∀ (dt : Nat) (e : Fin 192) (s₀ s : State) (w : Nat) (u : State), s = s₀.wait dt → s.Runs e .addi w u →
      exec (.engAddi dt e) s₀ = .next (u.retired e .addi w (u.setS e (insD w) ((u.sreg e (insA w)) + immS 16 (insImm16 w)))))
    ∧ (∀ (dt : Nat) (e : Fin 192) (s₀ s : State) (w : Nat) (u : State), s = s₀.wait dt → s.Runs e .andi w u →
      exec (.engAndi dt e) s₀ = .next (u.retired e .andi w (u.setS e (insD w) ((u.sreg e (insA w)) &&& BitVec.ofNat 64 (insImm16 w)))))
    ∧ (∀ (dt : Nat) (e : Fin 192) (s₀ s : State) (w : Nat) (u : State), s = s₀.wait dt → s.Runs e .ori w u →
      exec (.engOri dt e) s₀ = .next (u.retired e .ori w (u.setS e (insD w) ((u.sreg e (insA w)) ||| BitVec.ofNat 64 (insImm16 w)))))
    ∧ (∀ (dt : Nat) (e : Fin 192) (s₀ s : State) (w : Nat) (u : State), s = s₀.wait dt → s.Runs e .slli w u →
      exec (.engSlli dt e) s₀ = .next (u.retired e .slli w (u.setS e (insD w) ((u.sreg e (insA w)) <<< ((insImm16 w) % 64)))))
    ∧ (∀ (dt : Nat) (e : Fin 192) (s₀ s : State) (w : Nat) (u : State), s = s₀.wait dt → s.Runs e .srli w u →
      exec (.engSrli dt e) s₀ = .next (u.retired e .srli w (u.setS e (insD w) ((u.sreg e (insA w)) >>> ((insImm16 w) % 64)))))
    ∧ (∀ (dt : Nat) (e : Fin 192) (s₀ s : State) (w : Nat) (u : State), s = s₀.wait dt → s.Runs e .srai w u →
      exec (.engSrai dt e) s₀ = .next (u.retired e .srai w (u.setS e (insD w) ((u.sreg e (insA w)).sshiftRight ((insImm16 w) % 64)))))
    ∧ (∀ (dt : Nat) (e : Fin 192) (s₀ s : State) (w : Nat) (u : State), s = s₀.wait dt → s.Runs e .ins16 w u →
      exec (.engIns16 dt e) s₀ = .next (u.retired e .ins16 w (u.setS e (insD w) (ins16 (u.sreg e (insD w)) (insA w % 4) (insImm16 w)))))
    ∧ (∀ (dt : Nat) (e : Fin 192) (s₀ s : State) (w : Nat) (u : State), s = s₀.wait dt → s.Runs e .ext w u →
      exec (.engExt dt e) s₀ = .next (u.retired e .ext w (u.setS e (insD w) (ext64 (u.sreg e (insA w)) (bits (insImm16 w) 15 10) (bits (insImm16 w) 5 0 + 1) (bit (insImm16 w) 9)))))

/-- Branches, jumps, system and cache instructions of the engines complete: under the conditions that the manual gives (R327,
R328, R335, R337, R340), each of the commands BEQ, BNE, BLT, BGE, BLTU, BGEU, J, JAL, JALR, FENCE, ISYNC, WAIT, SIGNAL, RDSYS,
HALT, DC_CLEAN, DC_INV, DC_CINV, DC_CLEANALL, IC_INVALL answers the next state of its own effect. -/
def Obligations.EngineFlowInstructionsComplete : Prop :=
    (∀ (dt : Nat) (e : Fin 192) (s₀ s : State) (w : Nat) (u : State), s = s₀.wait dt → s.Runs e .beq w u → ((u.sreg e (insD w)) == (u.sreg e (insA w))) = true → u.goodTarget e (u.pc e + 4 * immS 16 (insImm16 w)) →
      exec (.engBeq dt e) s₀ = .next (u.branched e .beq w (u.pc e + 4 * immS 16 (insImm16 w)) true u))
    ∧ (∀ (dt : Nat) (e : Fin 192) (s₀ s : State) (w : Nat) (u : State), s = s₀.wait dt → s.Runs e .beq w u → ((u.sreg e (insD w)) == (u.sreg e (insA w))) = false →
      exec (.engBeq dt e) s₀ = .next (u.branched e .beq w (u.pc e + 4 * immS 16 (insImm16 w)) false u))
    ∧ (∀ (dt : Nat) (e : Fin 192) (s₀ s : State) (w : Nat) (u : State), s = s₀.wait dt → s.Runs e .bne w u → ((u.sreg e (insD w)) != (u.sreg e (insA w))) = true → u.goodTarget e (u.pc e + 4 * immS 16 (insImm16 w)) →
      exec (.engBne dt e) s₀ = .next (u.branched e .bne w (u.pc e + 4 * immS 16 (insImm16 w)) true u))
    ∧ (∀ (dt : Nat) (e : Fin 192) (s₀ s : State) (w : Nat) (u : State), s = s₀.wait dt → s.Runs e .bne w u → ((u.sreg e (insD w)) != (u.sreg e (insA w))) = false →
      exec (.engBne dt e) s₀ = .next (u.branched e .bne w (u.pc e + 4 * immS 16 (insImm16 w)) false u))
    ∧ (∀ (dt : Nat) (e : Fin 192) (s₀ s : State) (w : Nat) (u : State), s = s₀.wait dt → s.Runs e .blt w u → ((u.sreg e (insD w)).slt (u.sreg e (insA w))) = true → u.goodTarget e (u.pc e + 4 * immS 16 (insImm16 w)) →
      exec (.engBlt dt e) s₀ = .next (u.branched e .blt w (u.pc e + 4 * immS 16 (insImm16 w)) true u))
    ∧ (∀ (dt : Nat) (e : Fin 192) (s₀ s : State) (w : Nat) (u : State), s = s₀.wait dt → s.Runs e .blt w u → ((u.sreg e (insD w)).slt (u.sreg e (insA w))) = false →
      exec (.engBlt dt e) s₀ = .next (u.branched e .blt w (u.pc e + 4 * immS 16 (insImm16 w)) false u))
    ∧ (∀ (dt : Nat) (e : Fin 192) (s₀ s : State) (w : Nat) (u : State), s = s₀.wait dt → s.Runs e .bge w u → (!(u.sreg e (insD w)).slt (u.sreg e (insA w))) = true → u.goodTarget e (u.pc e + 4 * immS 16 (insImm16 w)) →
      exec (.engBge dt e) s₀ = .next (u.branched e .bge w (u.pc e + 4 * immS 16 (insImm16 w)) true u))
    ∧ (∀ (dt : Nat) (e : Fin 192) (s₀ s : State) (w : Nat) (u : State), s = s₀.wait dt → s.Runs e .bge w u → (!(u.sreg e (insD w)).slt (u.sreg e (insA w))) = false →
      exec (.engBge dt e) s₀ = .next (u.branched e .bge w (u.pc e + 4 * immS 16 (insImm16 w)) false u))
    ∧ (∀ (dt : Nat) (e : Fin 192) (s₀ s : State) (w : Nat) (u : State), s = s₀.wait dt → s.Runs e .bltu w u → ((u.sreg e (insD w)).ult (u.sreg e (insA w))) = true → u.goodTarget e (u.pc e + 4 * immS 16 (insImm16 w)) →
      exec (.engBltu dt e) s₀ = .next (u.branched e .bltu w (u.pc e + 4 * immS 16 (insImm16 w)) true u))
    ∧ (∀ (dt : Nat) (e : Fin 192) (s₀ s : State) (w : Nat) (u : State), s = s₀.wait dt → s.Runs e .bltu w u → ((u.sreg e (insD w)).ult (u.sreg e (insA w))) = false →
      exec (.engBltu dt e) s₀ = .next (u.branched e .bltu w (u.pc e + 4 * immS 16 (insImm16 w)) false u))
    ∧ (∀ (dt : Nat) (e : Fin 192) (s₀ s : State) (w : Nat) (u : State), s = s₀.wait dt → s.Runs e .bgeu w u → (!(u.sreg e (insD w)).ult (u.sreg e (insA w))) = true → u.goodTarget e (u.pc e + 4 * immS 16 (insImm16 w)) →
      exec (.engBgeu dt e) s₀ = .next (u.branched e .bgeu w (u.pc e + 4 * immS 16 (insImm16 w)) true u))
    ∧ (∀ (dt : Nat) (e : Fin 192) (s₀ s : State) (w : Nat) (u : State), s = s₀.wait dt → s.Runs e .bgeu w u → (!(u.sreg e (insD w)).ult (u.sreg e (insA w))) = false →
      exec (.engBgeu dt e) s₀ = .next (u.branched e .bgeu w (u.pc e + 4 * immS 16 (insImm16 w)) false u))
    ∧ (∀ (dt : Nat) (e : Fin 192) (s₀ s : State) (w : Nat) (u : State), s = s₀.wait dt → s.Runs e .j w u → u.goodTarget e (u.pc e + 4 * immS 26 (insOff26 w)) →
      exec (.engJ dt e) s₀ = .next (u.branched e .j w (u.pc e + 4 * immS 26 (insOff26 w)) true u))
    ∧ (∀ (dt : Nat) (e : Fin 192) (s₀ s : State) (w : Nat) (u : State), s = s₀.wait dt → s.Runs e .jal w u → u.goodTarget e (u.pc e + 4 * immS 26 (insOff26 w)) →
      exec (.engJal dt e) s₀ = .next (u.branched e .jal w (u.pc e + 4 * immS 26 (insOff26 w)) true (u.setS e 30 (u.pc e + 4))))
    ∧ (∀ (dt : Nat) (e : Fin 192) (s₀ s : State) (w : Nat) (u : State), s = s₀.wait dt → s.Runs e .jalr w u → u.goodTarget e (u.sreg e (insA w)) →
      exec (.engJalr dt e) s₀ = .next (u.branched e .jalr w (u.sreg e (insA w)) true (u.setS e (insD w) (u.pc e + 4))))
    ∧ (∀ (dt : Nat) (e : Fin 192) (s₀ s : State) (w : Nat) (u : State), s = s₀.wait dt → s.Runs e .fence w u →
      exec (.engFence dt e) s₀ = .next (u.retired e .fence w (u.landAll e fun _ => true)))
    ∧ (∀ (dt : Nat) (e : Fin 192) (s₀ s : State) (w : Nat) (u : State), s = s₀.wait dt → s.Runs e .isync w u →
      exec (.engIsync dt e) s₀ = .next (u.retired e .isync w (u.setEngine e { u.engine e with behind := [] })))
    ∧ (∀ (dt : Nat) (e : Fin 192) (s₀ s : State) (w : Nat) (u : State), s = s₀.wait dt → s.Runs e .wait w u → u.waitHolds e (u.sreg e (insA w)) (insImm8 w) = true →
      exec (.engWait dt e) s₀ = .next (u.retired e .wait w (u.waitEnd e (insD w) (insImm8 w))))
    ∧ (∀ (dt : Nat) (e : Fin 192) (s₀ s : State) (w : Nat) (u : State), s = s₀.wait dt → s.Runs e .wait w u → u.waitHolds e (u.sreg e (insA w)) (insImm8 w) = false →
      exec (.engWait dt e) s₀ = .next ((u.setEngine e { u.engine e with wait := some (w, u.sreg e (insA w)) }).setEngState e egWaiting))
    ∧ (∀ (dt : Nat) (e : Fin 192) (s₀ s : State) (w : Nat) (u : State), s = s₀.wait dt → s.Runs e .signal w u →
      exec (.engSignal dt e) s₀ = .next (u.retired e .signal w (u.engSignal (insImm8 w))))
    ∧ (∀ (dt : Nat) (e : Fin 192) (s₀ s : State) (w : Nat) (u : State), s = s₀.wait dt → s.Runs e .rdsys w u →
      exec (.engRdsys dt e) s₀ = .next (u.retired e .rdsys w (u.setS e (insD w) (u.sysValue e (insImm8 w)))))
    ∧ (∀ (dt : Nat) (e : Fin 192) (s₀ s : State) (w : Nat) (u : State), s = s₀.wait dt → s.Runs e .halt w u →
      exec (.engHalt dt e) s₀ = .next ((((u.retired e .halt w u).put (F.ENGINE_STAT_HALT_CODE e) (insImm8 w)).engStill e egHalted).raise (704 + 49)))
    ∧ (∀ (dt : Nat) (e : Fin 192) (s₀ s : State) (w : Nat) (u : State), s = s₀.wait dt → s.Runs e .dcClean w u → u.region e (u.sreg e (insA w)).toNat = .dev → (∀ l, u.dline e ((u.sreg e (insA w)).toNat / 64) = some l → l.lost = false) →
      exec (.engDcClean dt e) s₀ = .next (u.retired e .dcClean w (match u.dline e ((u.sreg e (insA w)).toNat / 64) with | some l => u.cleanLine e ((u.sreg e (insA w)).toNat / 64) l | none => u)))
    ∧ (∀ (dt : Nat) (e : Fin 192) (s₀ s : State) (w : Nat) (u : State), s = s₀.wait dt → s.Runs e .dcClean w u → u.region e (u.sreg e (insA w)).toNat ≠ .dev → u.region e (u.sreg e (insA w)).toNat ≠ .none →
      exec (.engDcClean dt e) s₀ = .next (u.retired e .dcClean w u))
    ∧ (∀ (dt : Nat) (e : Fin 192) (s₀ s : State) (w : Nat) (u : State), s = s₀.wait dt → s.Runs e .dcInv w u → u.region e (u.sreg e (insA w)).toNat = .dev →
      exec (.engDcInv dt e) s₀ = .next (u.retired e .dcInv w (match u.dline e ((u.sreg e (insA w)).toNat / 64) with | some _ => u.dropLine e ((u.sreg e (insA w)).toNat / 64) | none => u)))
    ∧ (∀ (dt : Nat) (e : Fin 192) (s₀ s : State) (w : Nat) (u : State), s = s₀.wait dt → s.Runs e .dcInv w u → u.region e (u.sreg e (insA w)).toNat ≠ .dev → u.region e (u.sreg e (insA w)).toNat ≠ .none →
      exec (.engDcInv dt e) s₀ = .next (u.retired e .dcInv w u))
    ∧ (∀ (dt : Nat) (e : Fin 192) (s₀ s : State) (w : Nat) (u : State), s = s₀.wait dt → s.Runs e .dcCinv w u → u.region e (u.sreg e (insA w)).toNat = .dev → (∀ l, u.dline e ((u.sreg e (insA w)).toNat / 64) = some l → l.lost = false) →
      exec (.engDcCinv dt e) s₀ = .next (u.retired e .dcCinv w (match u.dline e ((u.sreg e (insA w)).toNat / 64) with | some l => (u.startBack e ((u.sreg e (insA w)).toNat / 64) l).dropLine e ((u.sreg e (insA w)).toNat / 64) | none => u)))
    ∧ (∀ (dt : Nat) (e : Fin 192) (s₀ s : State) (w : Nat) (u : State), s = s₀.wait dt → s.Runs e .dcCinv w u → u.region e (u.sreg e (insA w)).toNat ≠ .dev → u.region e (u.sreg e (insA w)).toNat ≠ .none →
      exec (.engDcCinv dt e) s₀ = .next (u.retired e .dcCinv w u))
    ∧ (∀ (dt : Nat) (e : Fin 192) (s₀ s : State) (w : Nat) (u : State), s = s₀.wait dt → s.Runs e .dcCleanall w u → (∀ p ∈ (u.engine e).dc, p.2.lost = false) →
      exec (.engDcCleanall dt e) s₀ = .next (u.retired e .dcCleanall w ((u.engine e).dc.foldl (fun (v : State) p => v.cleanLine e p.1 p.2) u)))
    ∧ (∀ (dt : Nat) (e : Fin 192) (s₀ s : State) (w : Nat) (u : State), s = s₀.wait dt → s.Runs e .icInvall w u →
      exec (.engIcInvall dt e) s₀ = .next (u.retired e .icInvall w (u.setEngine e { u.engine e with ic := [], behind := (u.engine e).ic ++ (u.engine e).behind })))

/-- Loads, stores and atomics of the engines complete: under the conditions that the manual gives (R335), each of the commands
LDB, LDH, LDW, LDD, STB, STH, STW, STD, AMOADD, CAS answers the next state of its own effect. -/
def Obligations.EngineMemoryInstructionsComplete : Prop :=
    (∀ (dt : Nat) (e : Fin 192) (s₀ s : State) (w : Nat) (u : State) bs miss v, s = s₀.wait dt → s.Runs e .ldb w u → u.engLoad e (u.addrI e w) 1 = (.ok bs miss, v) →
      exec (.engLdb dt e) s₀ = .next (u.retiredAccess e .ldb w (u.addrI e w) miss (v.setS e (insD w) (BitVec.ofNat 64 (ofBytes bs)))))
    ∧ (∀ (dt : Nat) (e : Fin 192) (s₀ s : State) (w : Nat) (u : State) bs miss v, s = s₀.wait dt → s.Runs e .ldh w u → u.engLoad e (u.addrI e w) 2 = (.ok bs miss, v) →
      exec (.engLdh dt e) s₀ = .next (u.retiredAccess e .ldh w (u.addrI e w) miss (v.setS e (insD w) (BitVec.ofNat 64 (ofBytes bs)))))
    ∧ (∀ (dt : Nat) (e : Fin 192) (s₀ s : State) (w : Nat) (u : State) bs miss v, s = s₀.wait dt → s.Runs e .ldw w u → u.engLoad e (u.addrI e w) 4 = (.ok bs miss, v) →
      exec (.engLdw dt e) s₀ = .next (u.retiredAccess e .ldw w (u.addrI e w) miss (v.setS e (insD w) (BitVec.ofNat 64 (ofBytes bs)))))
    ∧ (∀ (dt : Nat) (e : Fin 192) (s₀ s : State) (w : Nat) (u : State) bs miss v, s = s₀.wait dt → s.Runs e .ldd w u → u.engLoad e (u.addrI e w) 8 = (.ok bs miss, v) →
      exec (.engLdd dt e) s₀ = .next (u.retiredAccess e .ldd w (u.addrI e w) miss (v.setS e (insD w) (BitVec.ofNat 64 (ofBytes bs)))))
    ∧ (∀ (dt : Nat) (e : Fin 192) (s₀ s : State) (w : Nat) (u : State) bs miss v, s = s₀.wait dt → s.Runs e .stb w u → u.engStore e (u.addrI e w) 1 (u.sreg e (insD w)).toNat = (.ok bs miss, v) →
      exec (.engStb dt e) s₀ = .next (u.retiredAccess e .stb w (u.addrI e w) miss v))
    ∧ (∀ (dt : Nat) (e : Fin 192) (s₀ s : State) (w : Nat) (u : State) bs miss v, s = s₀.wait dt → s.Runs e .sth w u → u.engStore e (u.addrI e w) 2 (u.sreg e (insD w)).toNat = (.ok bs miss, v) →
      exec (.engSth dt e) s₀ = .next (u.retiredAccess e .sth w (u.addrI e w) miss v))
    ∧ (∀ (dt : Nat) (e : Fin 192) (s₀ s : State) (w : Nat) (u : State) bs miss v, s = s₀.wait dt → s.Runs e .stw w u → u.engStore e (u.addrI e w) 4 (u.sreg e (insD w)).toNat = (.ok bs miss, v) →
      exec (.engStw dt e) s₀ = .next (u.retiredAccess e .stw w (u.addrI e w) miss v))
    ∧ (∀ (dt : Nat) (e : Fin 192) (s₀ s : State) (w : Nat) (u : State) bs miss v, s = s₀.wait dt → s.Runs e .std w u → u.engStore e (u.addrI e w) 8 (u.sreg e (insD w)).toNat = (.ok bs miss, v) →
      exec (.engStd dt e) s₀ = .next (u.retiredAccess e .std w (u.addrI e w) miss v))
    ∧ (∀ (dt : Nat) (e : Fin 192) (s₀ s : State) (w : Nat) (u : State) (bs : List Byte) (v : State), s = s₀.wait dt → s.Runs e .amoadd w u → (u.sreg e (insA w)).toNat % 8 = 0 → (u.region e (u.sreg e (insA w)).toNat).atomic = true → u.engKeptOut e (u.region e (u.sreg e (insA w)).toNat) = false → u.ememRead e (u.region e (u.sreg e (insA w)).toNat) 8 = (some bs, v) →
      exec (.engAmoadd dt e) s₀ = .next (u.retiredAccess e .amoadd w (u.sreg e (insA w)) false ((v.ememWrite (u.region e (u.sreg e (insA w)).toNat) ((toBytes 8 (BitVec.ofNat 64 (ofBytes bs) + u.sreg e (insB w)).toNat).map some)).setS e (insD w) (BitVec.ofNat 64 (ofBytes bs)))))
    ∧ (∀ (dt : Nat) (e : Fin 192) (s₀ s : State) (w : Nat) (u : State) (bs : List Byte) (v : State), s = s₀.wait dt → s.Runs e .cas w u → (u.sreg e (insA w)).toNat % 8 = 0 → (u.region e (u.sreg e (insA w)).toNat).atomic = true → u.engKeptOut e (u.region e (u.sreg e (insA w)).toNat) = false → u.ememRead e (u.region e (u.sreg e (insA w)).toNat) 8 = (some bs, v) →
      exec (.engCas dt e) s₀ = .next (u.retiredAccess e .cas w (u.sreg e (insA w)) false ((if BitVec.ofNat 64 (ofBytes bs) = u.sreg e (insD w) then v.ememWrite (u.region e (u.sreg e (insA w)).toNat) ((toBytes 8 (u.sreg e (insB w)).toNat).map some) else v).setS e (insD w) (BitVec.ofNat 64 (ofBytes bs)))))

/-- Vector instructions of the engines complete with their results: under the conditions that the manual gives (R335), each of
the commands VADD, VSUB, VMUL, VMIN, VMAX, VAND, VOR, VSHL, VSHR, VABSD, VCMPEQ, VCMPLT, VSEL, VREDADD, VBCAST, VEXTR, PAND,
PNOT, VLD, VST answers the next state of its own effect. -/
def Obligations.EngineVectorInstructionsComplete : Prop :=
    (∀ (dt : Nat) (e : Fin 192) (s₀ s : State) (w : Nat) (u : State), s = s₀.wait dt → s.Runs e .vadd w u →
      exec (.engVadd dt e) s₀ = .next (u.retired e .vadd w (u.setV e (insD w) (vecResult vadd u e w))))
    ∧ (∀ (dt : Nat) (e : Fin 192) (s₀ s : State) (w : Nat) (u : State), s = s₀.wait dt → s.Runs e .vsub w u →
      exec (.engVsub dt e) s₀ = .next (u.retired e .vsub w (u.setV e (insD w) (vecResult vsub u e w))))
    ∧ (∀ (dt : Nat) (e : Fin 192) (s₀ s : State) (w : Nat) (u : State), s = s₀.wait dt → s.Runs e .vmul w u →
      exec (.engVmul dt e) s₀ = .next (u.retired e .vmul w (u.setV e (insD w) (vecResult (fun _ _ a b => a * b) u e w))))
    ∧ (∀ (dt : Nat) (e : Fin 192) (s₀ s : State) (w : Nat) (u : State), s = s₀.wait dt → s.Runs e .vmin w u →
      exec (.engVmin dt e) s₀ = .next (u.retired e .vmin w (u.setV e (insD w) (vecResult vmin u e w))))
    ∧ (∀ (dt : Nat) (e : Fin 192) (s₀ s : State) (w : Nat) (u : State), s = s₀.wait dt → s.Runs e .vmax w u →
      exec (.engVmax dt e) s₀ = .next (u.retired e .vmax w (u.setV e (insD w) (vecResult vmax u e w))))
    ∧ (∀ (dt : Nat) (e : Fin 192) (s₀ s : State) (w : Nat) (u : State), s = s₀.wait dt → s.Runs e .vand w u →
      exec (.engVand dt e) s₀ = .next (u.retired e .vand w (u.setV e (insD w) (vecResult (fun _ _ a b => a &&& b) u e w))))
    ∧ (∀ (dt : Nat) (e : Fin 192) (s₀ s : State) (w : Nat) (u : State), s = s₀.wait dt → s.Runs e .vor w u →
      exec (.engVor dt e) s₀ = .next (u.retired e .vor w (u.setV e (insD w) (vecResult (fun _ _ a b => a ||| b) u e w))))
    ∧ (∀ (dt : Nat) (e : Fin 192) (s₀ s : State) (w : Nat) (u : State), s = s₀.wait dt → s.Runs e .vshl w u →
      exec (.engVshl dt e) s₀ = .next (u.retired e .vshl w (u.setV e (insD w) (vecResult (fun z _ a b => vshl z a b) u e w))))
    ∧ (∀ (dt : Nat) (e : Fin 192) (s₀ s : State) (w : Nat) (u : State), s = s₀.wait dt → s.Runs e .vshr w u →
      exec (.engVshr dt e) s₀ = .next (u.retired e .vshr w (u.setV e (insD w) (vecResult vshr u e w))))
    ∧ (∀ (dt : Nat) (e : Fin 192) (s₀ s : State) (w : Nat) (u : State), s = s₀.wait dt → s.Runs e .vabsd w u →
      exec (.engVabsd dt e) s₀ = .next (u.retired e .vabsd w (u.setV e (insD w) (vecResult vabsd u e w))))
    ∧ (∀ (dt : Nat) (e : Fin 192) (s₀ s : State) (w : Nat) (u : State), s = s₀.wait dt → s.Runs e .vcmpeq w u →
      exec (.engVcmpeq dt e) s₀ = .next (u.retired e .vcmpeq w (u.setP e (insD w % 8) (predResult (fun _ _ a b => a == b) u e w))))
    ∧ (∀ (dt : Nat) (e : Fin 192) (s₀ s : State) (w : Nat) (u : State), s = s₀.wait dt → s.Runs e .vcmplt w u →
      exec (.engVcmplt dt e) s₀ = .next (u.retired e .vcmplt w (u.setP e (insD w % 8) (predResult (fun z u a b => decide (elemAs z u a < elemAs z u b)) u e w))))
    ∧ (∀ (dt : Nat) (e : Fin 192) (s₀ s : State) (w : Nat) (u : State), s = s₀.wait dt → s.Runs e .vsel w u →
      exec (.engVsel dt e) s₀ = .next (u.retired e .vsel w (u.setV e (insD w) (ofElems (insEsz w) fun i => if active (insEsz w) (u.preg e (insPm w)) i then elem (insEsz w) (u.vreg e (insA w)) i else elem (insEsz w) (u.vreg e (insB w)) i))))
    ∧ (∀ (dt : Nat) (e : Fin 192) (s₀ s : State) (w : Nat) (u : State), s = s₀.wait dt → s.Runs e .vredadd w u →
      exec (.engVredadd dt e) s₀ = .next (u.retired e .vredadd w (u.setS e (insD w) (vredadd (insEsz w) (insU w) (u.preg e (insPm w)) (u.vreg e (insA w))))))
    ∧ (∀ (dt : Nat) (e : Fin 192) (s₀ s : State) (w : Nat) (u : State), s = s₀.wait dt → s.Runs e .vbcast w u →
      exec (.engVbcast dt e) s₀ = .next (u.retired e .vbcast w (u.setV e (insD w) (mergeElems (insEsz w) (u.preg e (insPm w)) (u.vreg e (insD w)) fun _ => (u.sreg e (insA w)).toNat))))
    ∧ (∀ (dt : Nat) (e : Fin 192) (s₀ s : State) (w : Nat) (u : State), s = s₀.wait dt → s.Runs e .vextr w u →
      exec (.engVextr dt e) s₀ = .next (u.retired e .vextr w (u.setS e (insD w) (vextr (insEsz w) (insU w) (u.vreg e (insA w)) (u.sreg e (insB w)).toNat))))
    ∧ (∀ (dt : Nat) (e : Fin 192) (s₀ s : State) (w : Nat) (u : State), s = s₀.wait dt → s.Runs e .pand w u →
      exec (.engPand dt e) s₀ = .next (u.retired e .pand w (u.setP e (insD w) (u.preg e (insA w) &&& u.preg e (insB w)))))
    ∧ (∀ (dt : Nat) (e : Fin 192) (s₀ s : State) (w : Nat) (u : State), s = s₀.wait dt → s.Runs e .pnot w u →
      exec (.engPnot dt e) s₀ = .next (u.retired e .pnot w (u.setP e (insD w) (~~~ u.preg e (insA w)))))
    ∧ (∀ (dt : Nat) (e : Fin 192) (s₀ s : State) (w : Nat) (u : State) (bs : List Byte) (miss : Bool) (v : State), s = s₀.wait dt → s.Runs e .vld w u → u.vectorFault e (u.addrVm e w) = none → u.region e (u.addrVm e w).toNat = .dev → u.devLoad e (u.addrVm e w).toNat 64 = (.ok bs miss, v) →
      exec (.engVld dt e) s₀ = .next (u.retiredAccess e .vld w (u.addrVm e w) miss (v.setV e (insD w) (loadedVec u e w bs))))
    ∧ (∀ (dt : Nat) (e : Fin 192) (s₀ s : State) (w : Nat) (u : State) (bs : List Byte) (v : State), s = s₀.wait dt → s.Runs e .vld w u → u.vectorFault e (u.addrVm e w) = none → u.region e (u.addrVm e w).toNat ≠ .dev → u.ememRead e (u.region e (u.addrVm e w).toNat) 64 = (some bs, v) →
      exec (.engVld dt e) s₀ = .next (u.retiredAccess e .vld w (u.addrVm e w) false (v.setV e (insD w) (loadedVec u e w bs))))
    ∧ (∀ (dt : Nat) (e : Fin 192) (s₀ s : State) (w : Nat) (u : State) (bs : List Byte) (miss : Bool) (v : State), s = s₀.wait dt → s.Runs e .vst w u → u.vectorFault e (u.addrVm e w) = none → u.region e (u.addrVm e w).toNat = .dev → u.devStore e (u.addrVm e w).toNat (activeBytes (u.preg e (insPm w)) (u.vreg e (insD w))) = (.ok bs miss, v) →
      exec (.engVst dt e) s₀ = .next (u.retiredAccess e .vst w (u.addrVm e w) miss v))
    ∧ (∀ (dt : Nat) (e : Fin 192) (s₀ s : State) (w : Nat) (u : State), s = s₀.wait dt → s.Runs e .vst w u → u.vectorFault e (u.addrVm e w) = none → u.region e (u.addrVm e w).toNat ≠ .dev →
      exec (.engVst dt e) s₀ = .next (u.retiredAccess e .vst w (u.addrVm e w) false (u.ememWrite (u.region e (u.addrVm e w).toNat) (activeBytes (u.preg e (insPm w)) (u.vreg e (insD w))))))

/-- Event fabric commands complete: under the conditions that the manual gives (R350, R351, R355, R358), each of the commands
EVF_EVENT_DELIVERY, EVF_TIMER_EXPIRE, EVF_PENDING_WRITE, EVF_COMMIT, COMMIT_CHECK_END answers the next state of its own effect.
-/
def Obligations.EventFabricCommandsComplete : Prop :=
    (∀ (dt : Nat) (s₀ s : State), s = s₀.wait dt → s.held = false → s.presented ≠ [] →
      exec (.evfEventDelivery dt) s₀ = .next s.deliverNext)
    ∧ (∀ (dt : Nat) (t : Fin 32) (s₀ s : State), s = s₀.wait dt → s.held = false → s.timerDue t = true →
      exec (.evfTimerExpire dt t) s₀ = .next (s.timerExpire t))
    ∧ (∀ (dt : Nat) (who : Requester) (n : Fin 512) (word : Fin 5) (value : Word) (s₀ s : State), s = s₀.wait dt → s.TakesWrite who (pendingBase n + 4 * word) →
      exec (.evfPendingWrite dt who n word value) s₀ = .next (s.pendingWrite who n word value.toNat))
    ∧ (∀ (dt : Nat) (who : Requester) (s₀ s : State), s = s₀.wait dt → s.TakesWrite who O.EVF_COMMIT →
      exec (.evfCommit dt who) s₀ = .next (s.commitStart who))
    ∧ (∀ (dt : Nat) (s₀ s : State) c, s = s₀.wait dt → s.held = false → s.evf.check = some c →
      exec (.commitCheckEnd dt) s₀ = .next ({ s with evf := { s.evf with check := none } }.commitEnd c.who c.chans))

/-- DMA commands complete: under the conditions that the manual gives (R367, R368, R369, R370, R371, R372, R374, R376, R377,
R378, R385), each of the commands DMA_DOORBELL, DMA_MOVE, DMA_MOVE_COMPLETE, DMA_LOOP, DMA_WAIT, DMA_WAIT_END, DMA_SIGNAL,
SIGNAL_PUBLISH, DMA_JUMP, DMA_END, DMA_ILLEGAL, DMA_BUS_ERROR, DMA_STOP, DMA_RESUME, DMA_SKIP, DMA_STOP_COMPLETE answers the
next state of its own effect. -/
def Obligations.DmaCommandsComplete : Prop :=
    (∀ (dt : Nat) (who : Requester) (c : Fin 32) (s₀ s : State), s = s₀.wait dt → s.TakesWrite who (O.DMA_CH_DOORBELL c) →
      exec (.dmaDoorbell dt (.reg who) c) s₀ = .next (s.doorbellTrigger c))
    ∧ (∀ (dt : Nat) (c : Fin 32) (s₀ s : State), s = s₀.wait dt → s.held = false →
      exec (.dmaDoorbell dt .task c) s₀ = .next (s.doorbellTrigger c))
    ∧ (∀ (dt : Nat) (c : Fin 32) (f : Fetches) (s₀ s : State) (ws : List Nat) (u : State), s = s₀.wait dt → s.DmaTakes c 1 f ws u →
      exec (.dmaMove dt c f) s₀ = .next (u.dmaMove c ws))
    ∧ (∀ (dt : Nat) (c : Fin 32) (host : Bytes) (s₀ s : State) (m : DmaMove), s = s₀.wait dt → s.held = false → s.dmaState c = dmRunning → (s.dmaChan c).move = some m → (s.fromHost c m = true → host.length = m.len) →
      exec (.dmaMoveComplete dt c host) s₀ = .next ((s.moveRun c m host).2))
    ∧ (∀ (dt : Nat) (c : Fin 32) (f : Fetches) (s₀ s : State) (ws : List Nat) (u : State), s = s₀.wait dt → s.DmaTakes c 2 f ws u →
      exec (.dmaLoop dt c f) s₀ = .next (u.dmaLoop c (ws.headD 0)))
    ∧ (∀ (dt : Nat) (c : Fin 32) (f : Fetches) (s₀ s : State) (ws : List Nat) (u : State), s = s₀.wait dt → s.DmaTakes c 3 f ws u →
      exec (.dmaWait dt c f) s₀ = .next (u.dmaWait c ws))
    ∧ (∀ (dt : Nat) (c : Fin 32) (s₀ s : State) mode t, s = s₀.wait dt → s.held = false → (s.dmaChan c).wait = some (mode, t) → s.dmaState c = dmWaiting →
      exec (.dmaWaitEnd dt c) s₀ = .next (s.waitCheck c mode t))
    ∧ (∀ (dt : Nat) (c : Fin 32) (f : Fetches) (s₀ s : State) (ws : List Nat) (u : State), s = s₀.wait dt → s.DmaTakes c 4 f ws u →
      exec (.dmaSignal dt c f) s₀ = .next (
        let w := ws.headD 0
        u.setDma c { u.dmaChan c with signal := some (bit w 4, bit w 5, bits w 6 6), fromEnd := false }))
    ∧ (∀ (dt : Nat) (c : Fin 32) (s₀ s : State) ev pub r, s = s₀.wait dt → s.held = false → (s.dmaChan c).signal = some (ev, pub, r) → s.dmaState c = dmRunning →
      exec (.signalPublish dt c) s₀ = .next (s.dmaPublish c ev pub r))
    ∧ (∀ (dt : Nat) (c : Fin 32) (f : Fetches) (s₀ s : State) (ws : List Nat) (u : State), s = s₀.wait dt → s.DmaTakes c 5 f ws u →
      exec (.dmaJump dt c f) s₀ = .next (
        let w := ws.headD 0
        (u.put (F.DMA_CH_PC c) (bits w 63 8 * 8 + 2 ^ 63 * bits w 4 4)).setDma c { u.dmaChan c with fromEnd := false }))
    ∧ (∀ (dt : Nat) (c : Fin 32) (f : Fetches) (s₀ s : State) (ws : List Nat) (u : State), s = s₀.wait dt → s.DmaTakes c 6 f ws u →
      exec (.dmaEnd dt c f) s₀ = .next (u.dmaEnd c (ws.headD 0)))
    ∧ (∀ (dt : Nat) (c : Fin 32) (f : Fetches) (s₀ s : State) (w : Nat) (f' : Fetches) (u : State), s = s₀.wait dt → s.held = false → s.dmaReady c = true → (s.dmaUndecoded c).dmaWord c (s.dmaPc c) f = (some w, f', u) → dmaValid w = false →
      exec (.dmaIllegal dt c f) s₀ = .next ((u.dmaDecoded c w).dmaBad c 0x002))
    ∧ (∀ (dt : Nat) (c : Fin 32) (blk : BitVec 26) (kind : Fin 4) (host : Bytes) (s₀ s : State), s = s₀.wait dt → s.held = false → s.dmaState c = dmRunning →
      exec (.dmaBusError dt c blk kind host) s₀ = .next (s.dmaBusFail c blk.toNat kind host))
    ∧ (∀ (dt : Nat) (c : Fin 32) (blk : BitVec 26) (kind : Fin 4) (host : Bytes) (s₀ s : State), s = s₀.wait dt → s.held = false → s.dmaState c = dmStopping →
      exec (.dmaBusError dt c blk kind host) s₀ = .next (s.dmaCutFail c blk.toNat kind))
    ∧ (∀ (dt : Nat) (who : Requester) (c : Fin 32) (host : Bytes) (s₀ s : State), s = s₀.wait dt → s.TakesWrite who (O.DMA_CH_CTRL c) →
      exec (.dmaStop dt who c host) s₀ = .next (s.dmaStop c host))
    ∧ (∀ (dt : Nat) (who : Requester) (c : Fin 32) (s₀ s : State), s = s₀.wait dt → s.TakesWrite who (O.DMA_CH_CTRL c) →
      exec (.dmaResume dt who c) s₀ = .next (s.dmaResume c))
    ∧ (∀ (dt : Nat) (who : Requester) (c : Fin 32) (s₀ s : State), s = s₀.wait dt → s.TakesWrite who (O.DMA_CH_CTRL c) →
      exec (.dmaSkip dt who c) s₀ = .next (s.dmaSkip c))
    ∧ (∀ (dt : Nat) (c : Fin 32) (s₀ s : State), s = s₀.wait dt → s.held = false → s.dmaState c = dmStopping →
      exec (.dmaStopComplete dt c) s₀ = .next (s.dmaStopped c))

/-- Memory subsystem commands complete: under the conditions that the manual gives (R396, R397, R399, R400, R402, R403, R404,
R407, R410, R411, R412, R578), each of the commands MEM_OPEN, SLOT_SWAP, SLOT_TABLE_SWAP, ARBITRATION_SLOT, GRANT_FLAG_FALL,
MEMORY_READ, MEMORY_WRITE, ROW_CLOSE, REFRESH, REFRESH_WINDOW_END, SELF_REFRESH_ENTRY, TRACKING_WINDOW, RETRAIN, RETRAIN_STEP,
CHANNEL_FENCE, BOOT_TRAINING_END, MEMORY_ZEROING_END, FENCED_TRAINING_END, DRAM_HIGH_TEMPERATURE answers the next state of its
own effect. -/
def Obligations.MemoryCommandsComplete : Prop :=
    (∀ (dt : Nat) (who : Requester) (s₀ s : State), s = s₀.wait dt → s.TakesWrite who O.MEM_CTRL →
      exec (.memOpen dt who) s₀ = .next s.memOpen)
    ∧ (∀ (dt : Nat) (who : Requester) (s₀ s : State), s = s₀.wait dt → s.TakesWrite who O.MEM_CTRL →
      exec (.slotSwap dt who) s₀ = .next (s.put F.MEM_STAT_SWAP_PEND 1))
    ∧ (∀ (dt : Nat) (s₀ s : State), s = s₀.wait dt → s.held = false → s.on F.MEM_STAT_SWAP_PEND = true →
      exec (.slotTableSwap dt) s₀ = .next (    ((s.put F.MEM_STAT_ACTIVE_COPY (1 - s.get F.MEM_STAT_ACTIVE_COPY)).put F.MEM_STAT_SWAP_PEND 0).memEvent 16))
    ∧ (∀ (dt : Nat) (n : Fin 16) (inp : SlotInput) (s₀ s : State), s = s₀.wait dt → s.held = false → (s.chan n).lastSlot ≠ some s.slotNumber →
      exec (.arbitrationSlot dt n inp) s₀ = .next (s.arbitrate n inp))
    ∧ (∀ (dt : Nat) (n : Fin 16) (s₀ s : State), s = s₀.wait dt → s.held = false → s.grantIdle n = true →
      exec (.grantFlagFall dt n) s₀ = .next (s.cutGrant n))
    ∧ (∀ (dt : Nat) (port : Fin 28) (blk : BitVec 32) (q : RowQueue) (s₀ s : State), s = s₀.wait dt → s.held = false →
      exec (.memoryRead dt port blk q) s₀ = .next (s.portRead port (64 * blk.toNat) q))
    ∧ (∀ (dt : Nat) (port : Fin 28) (blk : BitVec 32) (data : List (Option Byte)) (poison : Bool) (q : RowQueue) (s₀ s : State), s = s₀.wait dt → s.held = false →
      exec (.memoryWrite dt port blk data poison q) s₀ = .next (s.portWrite port (64 * blk.toNat) data poison q))
    ∧ (∀ (dt : Nat) (n : Fin 16) (bank : Fin 32) (s₀ s : State), s = s₀.wait dt → s.held = false → (let b := (s.chan n).bank bank; b.openRow.isSome && decide (b.usedAt + 6 * max 1 (s.get F.MEM_PAGE_OPEN_MAX) ≤ s.now) : Bool) = true →
      exec (.rowClose dt n bank) s₀ = .next (
        let c := s.chan n
        s.setChan n (c.setBank bank { c.bank bank with openRow := none, hits := 0 })))
    ∧ (∀ (dt : Nat) (n : Fin 16) (bank : Fin 32) (s₀ s : State), s = s₀.wait dt → s.held = false → (s.mcState n = mcReady ∨ s.mcState n = mcRetraining) →
      exec (.refresh dt n bank) s₀ = .next (s.tally 0x0E n 4))
    ∧ (∀ (dt : Nat) (n : Fin 16) (s₀ s : State), s = s₀.wait dt → s.held = false → ((s.chan n).winStart + (s.chan n).window ≤ s.now) →
      exec (.refreshWindowEnd dt n) s₀ = .next (
        let c := s.chan n
        s.setChan n { c with winStart := s.now, oldActs := some (s.memCycle, c.acts), acts := c.acts.map fun (a : Activate) => { a with count := 0 } }))
    ∧ (∀ (dt : Nat) (n : Fin 16) (s₀ s : State), s = s₀.wait dt → s.held = false → (let idle := s.get F.MEM_SR_IDLE; s.mcState n == mcReady && !s.on (F.MC_STAT_SR n) && idle != 0 && decide ((s.chan n).lastReq + 6 * idle ≤ s.now) && !(s.on F.MEM_CTRL_BLOCK_RT_SR && s.realTime) : Bool) = true →
      exec (.selfRefreshEntry dt n) s₀ = .next (((s.put (F.MC_STAT_SR n) 1).bump (F.MC_SR_ENTRIES n)).setChan n { s.chan n with srAt := some s.memCycle }))
    ∧ (∀ (dt : Nat) (n : Fin 16) (drift : BitVec 8) (s₀ s : State), s = s₀.wait dt → s.held = false → (let p := s.get F.MEM_TRAIN_TRACK_PERIOD; s.mcState n == mcReady && p != 0 && decide ((s.chan n).trackAt + p * milli ≤ s.now) : Bool) = true →
      exec (.trackingWindow dt n drift) s₀ = .next (
        let s := s.setChan n { s.chan n with trackAt := s.now }
        if 8 < drift.toNat then s.retrain n else s))
    ∧ (∀ (dt : Nat) (who : Requester) (n : Fin 16) (s₀ s : State), s = s₀.wait dt → s.TakesWrite who (O.MC_CTRL n) →
      exec (.retrain dt who n) s₀ = .next (s.retrain n))
    ∧ (∀ (dt : Nat) (n : Fin 16) (found : Option TrainEyes) (s₀ s : State), s = s₀.wait dt → s.held = false → s.mcState n = mcRetraining → (∀ began, (s.chan n).stepAt = some began → began + stepSpacing ≤ s.now) →
      exec (.retrainStep dt n found) s₀ = .next (s.retrainStep n found))
    ∧ (∀ (dt : Nat) (who : Requester) (n : Fin 16) (s₀ s : State), s = s₀.wait dt → s.TakesWrite who (O.MC_CTRL n) →
      exec (.channelFence dt who n) s₀ = .next (s.fenceNow n))
    ∧ (∀ (dt : Nat) (found : List (Option TrainEyes)) (s₀ s : State), s = s₀.wait dt → s.held = false → (s.boot.step == 4 && !s.on F.MEM_STAT_INIT_DONE : Bool) = true →
      exec (.bootTrainingEnd dt found) s₀ = .next (s.bootTrained found))
    ∧ (∀ (dt : Nat) (s₀ s : State), s = s₀.wait dt → s.held = false → (s.boot.step == 4 && s.on F.MEM_STAT_INIT_DONE && s.on F.MEM_CTRL_ECC_EN && !s.on F.MEM_CTRL_OPEN : Bool) = true →
      exec (.memoryZeroingEnd dt) s₀ = .next s.memZeroed)
    ∧ (∀ (dt : Nat) (n : Fin 16) (found : Option TrainEyes) (s₀ s : State), s = s₀.wait dt → s.held = false → (s.mcState n == mcTraining && s.on F.MEM_STAT_INIT_DONE : Bool) = true →
      exec (.fencedTrainingEnd dt n found) s₀ = .next (s.fencedTrained n found))
    ∧ (∀ (dt : Nat) (n : Fin 16) (hot : Bool) (s₀ s : State), s = s₀.wait dt → s.held = false →
      exec (.dramHighTemperature dt n hot) s₀ = .next (s.setChan n { s.chan n with hot := hot }))

/-- Fuvor link training, width, data link and transaction commands complete: under the conditions that the manual gives (R428,
R429, R430, R431, R433, R434, R437, R438, R440, R442, R443, R444), each of the commands FVL_PORT_ENABLE, FVL_PORT_DISABLE,
FVL_CLOCK_DONE, TS1_RECEIVE, TS2_RECEIVE, FVL_TRAIN_TIMEOUT, FVL_CONFIG_TIMEOUT, FVL_RATE_ROUND_TIMEOUT, FVL_RETRAIN,
FVL_RETRAIN_TIMEOUT, FVL_UPSHIFT, FVL_SLEEP_ENTRY, FVL_WAKE, DATA_FRAME_RECEIVE, ACK_RECEIVE, NAK_RECEIVE, CREDIT_RECEIVE,
ACK_DUE, CREDIT_RETURN, REPLAY_TIMEOUT, POSTED_WRITE_RECEIVE, READ_RECEIVE, COMPLETION_RECEIVE, EVENT_RECEIVE, TIME_EXCHANGE,
TIME_PONG_RECEIVE, PONG_TIMEOUT, MAILBOX_GO, MAILBOX_TIMEOUT, FVL_DOWN_HOLDOFF_END, RATE_CHANGE_PAUSE_END, SYNC_HEADER_ERROR,
ALIGN_RECEIVE, SDS_RECEIVE, EIOS_RECEIVE, WAKE_RECEIVE answers the next state of its own effect. -/
def Obligations.FuvorCommandsComplete : Prop :=
    (∀ (dt : Nat) (who : Requester) (p : Fin 53) (v : Word) (s₀ s : State), s = s₀.wait dt → s.TakesWrite who (O.FVL_PORT_CFG p) →
      exec (.fvlPortEnable dt who p v) s₀ = .next (s.fvCfg p (setBits v.toNat 0 0 1)))
    ∧ (∀ (dt : Nat) (who : Requester) (p : Fin 53) (v : Word) (s₀ s : State), s = s₀.wait dt → s.TakesWrite who (O.FVL_PORT_CFG p) →
      exec (.fvlPortDisable dt who p v) s₀ = .next (s.fvCfg p (setBits v.toNat 0 0 0)))
    ∧ (∀ (dt : Nat) (p : Fin 53) (s₀ s : State), s = s₀.wait dt → s.held = false → (s.fvState p == fvClock && decide ((s.fvPort p).since + 10 * micro ≤ s.now) : Bool) = true →
      exec (.fvlClockDone dt p) s₀ = .next (
        let s := s.fvEnter p fvTrain
        s.setFvPort p { s.fvPort p with lanes := [], ts2 := 0 }))
    ∧ (∀ (dt : Nat) (p : Fin 53) (lane : Fin 8) (head : BitVec 2) (os : List Byte) (s₀ s : State), s = s₀.wait dt → s.held = false → (lane.val < lanesIn p) →
      exec (.ts1Receive dt p lane head os) s₀ = .next (s.ts1 p lane (readTs1 head os)))
    ∧ (∀ (dt : Nat) (p : Fin 53) (os : List Byte) (s₀ s : State), s = s₀.wait dt → s.held = false → goodTs2 os = true →
      exec (.ts2Receive dt p os) s₀ = .next (s.ts2 p os))
    ∧ (∀ (dt : Nat) (p : Fin 53) (s₀ s : State), s = s₀.wait dt → s.held = false → (let v := s.fvPort p; s.fvState p == fvTrain && decide (v.since + 1000 * micro ≤ s.now) && v.back.isNone && !(v.lockedIn 0 && v.lockedOut 0) : Bool) = true →
      exec (.fvlTrainTimeout dt p) s₀ = .next (fvlErr (s.fvGoDown p) 0x04 0x040 p 0))
    ∧ (∀ (dt : Nat) (p : Fin 53) (s₀ s : State), s = s₀.wait dt → s.held = false → (s.fvState p == fvConfig && decide ((s.fvPort p).since + 100 * micro ≤ s.now) && (s.fvPort p).back.isNone : Bool) = true →
      exec (.fvlConfigTimeout dt p) s₀ = .next (fvlErr (s.fvGoDown p) 0x04 0x040 p 0))
    ∧ (∀ (dt : Nat) (p : Fin 53) (s₀ s : State) old, s = s₀.wait dt → s.held = false → (s.fvPort p).back = some old → ((s.fvState p == fvTrain || s.fvState p == fvConfig) && decide ((s.fvPort p).roundAt + 200 * micro ≤ s.now) : Bool) = true →
      exec (.fvlRateRoundTimeout dt p) s₀ = .next (s.roundFailed p old))
    ∧ (∀ (dt : Nat) (who : Requester) (p : Fin 53) (s₀ s : State), s = s₀.wait dt → s.TakesWrite who (O.FVL_PORT_CFG p) →
      exec (.fvlRetrain dt who p) s₀ = .next (s.beginRetrain p))
    ∧ (∀ (dt : Nat) (p : Fin 53) (s₀ s : State), s = s₀.wait dt → s.held = false → (s.fvState p == fvRetrain && decide ((s.fvPort p).since + 200 * micro ≤ s.now) : Bool) = true →
      exec (.fvlRetrainTimeout dt p) s₀ = .next (s.retrainFailed p))
    ∧ (∀ (dt : Nat) (who : Requester) (p : Fin 53) (s₀ s : State), s = s₀.wait dt → s.TakesWrite who (O.FVL_PORT_CFG p) →
      exec (.fvlUpshift dt who p) s₀ = .next (s.fvUpshift p))
    ∧ (∀ (dt : Nat) (p : Fin 53) (s₀ s : State), s = s₀.wait dt → s.held = false → (s.fvSends p && s.on (F.FVL_PORT_CFG_SLEEP_EN p) && !s.fvBusy p && decide ((s.fvPort p).idleAt + max 1 (s.get (F.FVL_PORT_CFG_SLEEP_IDLE p)) * micro ≤ s.now) : Bool) = true →
      exec (.fvlSleepEntry dt p) s₀ = .next (s.sleepTx p))
    ∧ (∀ (dt : Nat) (p : Fin 53) (s₀ s : State), s = s₀.wait dt → s.held = false → (s.fvState p == fvActive && s.on (F.FVL_PORT_STAT_TX_SLEEP p) && s.fvBusy p : Bool) = true →
      exec (.fvlWake dt p) s₀ = .next (
        let s := s.wakeTx p
        (s.setFvPort p { s.fvPort p with idleAt := s.now }).fvFlush p))
    ∧ (∀ (dt : Nat) (p : Fin 53) (frame : RxFrame) (s₀ s : State), s = s₀.wait dt → s.held = false → s.fvState p = fvActive →
      exec (.dataFrameReceive dt p frame) s₀ = .next (s.dataFrame p frame))
    ∧ (∀ (dt : Nat) (p : Fin 53) (seq : BitVec 16) (s₀ s : State), s = s₀.wait dt → s.held = false → s.fvState p = fvActive →
      exec (.ackReceive dt p seq) s₀ = .next ((s.release16 p seq.toNat).fvFlush p))
    ∧ (∀ (dt : Nat) (p : Fin 53) (seq : BitVec 16) (s₀ s : State), s = s₀.wait dt → s.held = false → s.fvState p = fvActive →
      exec (.nakReceive dt p seq) s₀ = .next (    (((s.bump (F.FVL_PORT_NAKS_RX p)).release16 p seq.toNat).replay p).fvFlush p))
    ∧ (∀ (dt : Nat) (p : Fin 53) (cls : Fin 3) (freed : BitVec 16) (s₀ s : State), s = s₀.wait dt → s.held = false → s.fvState p = fvActive →
      exec (.creditReceive dt p cls freed) s₀ = .next (
        let init := [s.get (F.FVL_PORT_CR_CR_P p), s.get (F.FVL_PORT_CR_CR_NP p), s.get (F.FVL_PORT_CR_CPL p)].getD cls.val 0
        let v := s.fvPort p
        (s.setFvPort p (v.setCls cls { v.cls cls with limit := (init + freed.toNat) % 65536 })).fvFlush p))
    ∧ (∀ (dt : Nat) (p : Fin 53) (s₀ s : State), s = s₀.wait dt → s.held = false → (let v := s.fvPort p; s.fvSends p && v.unacked != 0 && (decide (8 ≤ v.unacked) || decide (v.unackedAt + 2000 ≤ s.now)) : Bool) = true →
      exec (.ackDue dt p) s₀ = .next (s.sendAck p))
    ∧ (∀ (dt : Nat) (p : Fin 53) (cls : Fin 3) (s₀ s : State), s = s₀.wait dt → s.held = false → (let k := (s.fvPort p).cls cls; s.fvSends p && k.owed != 0 && (decide (ownCredits p cls ≤ 8 * k.owed) || decide (k.owedAt + micro ≤ s.now)) : Bool) = true →
      exec (.creditReturn dt p cls) s₀ = .next (
        let v := s.fvPort p
        let k := v.cls cls
        ((s.setFvPort p (v.setCls cls { k with owed := 0 })).countBytes (64 + 2 * p) 8).putCredit p cls k.freed))
    ∧ (∀ (dt : Nat) (p : Fin 53) (s₀ s : State), s = s₀.wait dt → s.held = false → s.replayDue p = true →
      exec (.replayTimeout dt p) s₀ = .next (s.replay p))
    ∧ (∀ (dt : Nat) (p : Fin 53) (addr : Word) (vals : List Word) (s : State),
      exec (.postedWriteReceive dt p addr vals) s = .next (s.wait dt))
    ∧ (∀ (dt : Nat) (p : Fin 53) (src : BitVec 10) (tag : BitVec 8) (s₀ s : State), s = s₀.wait dt → s.held = false → (s.fvState p == fvActive && decide (p.val < 52) : Bool) = true →
      exec (.readReceive dt p src tag) s₀ = .next (    s.sendTo src.toNat { words := [txHeader 3 src.toNat 0 tag.toNat (2 ^ 8)] }))
    ∧ (∀ (dt : Nat) (p : Fin 53) (tag : BitVec 8) (status : Fin 3) (vals : List Word) (s₀ s : State) rest, s = s₀.wait dt → s.held = false → s.fvState p = fvActive → s.fvl.reading = true → s.fvl.mbox = some (tag.toNat, rest) →
      exec (.completionReceive dt p tag status vals) s₀ = .next (s.mboxRead status vals))
    ∧ (∀ (dt : Nat) (p : Fin 53) (src : BitVec 10) (code : BitVec 16) (s₀ s : State), s = s₀.wait dt → s.held = false → (s.fvState p == fvActive && decide (p.val < 52) : Bool) = true →
      exec (.eventReceive dt p src code) s₀ = .next (s.endpointEvent p src.toNat code.toNat))
    ∧ (∀ (dt : Nat) (p : Fin 53) (s₀ s : State), s = s₀.wait dt → s.held = false → (s.fvSends p && s.fvTimeDue p : Bool) = true →
      exec (.timeExchange dt p) s₀ = .next (s.sendPing p))
    ∧ (∀ (dt : Nat) (p : Fin 53) (tag : BitVec 8) (turnaround : DWord) (s₀ s : State) (t1 began : Nat), s = s₀.wait dt → s.held = false → s.fvState p = fvActive → (s.fvPort p).ping = some (tag.toNat, t1, began) → s.now ≤ began + 10 * micro →
      exec (.timePongReceive dt p tag turnaround) s₀ = .next (s.pong p t1 turnaround.toNat))
    ∧ (∀ (dt : Nat) (p : Fin 53) (s₀ s : State) tag t1 at_, s = s₀.wait dt → s.held = false → (s.fvPort p).ping = some (tag, t1, at_) → at_ + 10 * micro ≤ s.now →
      exec (.pongTimeout dt p) s₀ = .next (fvlErr (s.setFvPort p { s.fvPort p with ping := none }) 0x03 0x020 p 0))
    ∧ (∀ (dt : Nat) (who : Requester) (v : Word) (s₀ s : State), s = s₀.wait dt → s.TakesWrite who O.FVL_XACT_CTRL →
      exec (.mailboxGo dt who v) s₀ = .next (s.mailboxGo (bit v.toNat 1)))
    ∧ (∀ (dt : Nat) (s₀ s : State) tag kind at_, s = s₀.wait dt → s.held = false → s.fvl.reading = true → s.fvl.mbox = some (tag, kind, at_) → at_ + 100 * micro ≤ s.now →
      exec (.mailboxTimeout dt) s₀ = .next (fvlErr (s.mboxDone 3) 0x04 0x048 (s.get (F.FVL_EP_PORT (s.get F.FVL_XACT_DEST))) (s.get F.FVL_XACT_DEST)))
    ∧ (∀ (dt : Nat) (p : Fin 53) (s₀ s : State), s = s₀.wait dt → s.held = false → s.fvLeavesDown p = true →
      exec (.fvlDownHoldoffEnd dt p) s₀ = .next (s.fvStart p))
    ∧ (∀ (dt : Nat) (p : Fin 53) (s₀ s : State) (began : Nat), s = s₀.wait dt → s.held = false → s.fvState p = fvStep → (s.fvPort p).pauseAt = some began → began + micro ≤ s.now →
      exec (.rateChangePauseEnd dt p) s₀ = .next (s.pauseEnd p))
    ∧ (∀ (dt : Nat) (p : Fin 53) (lane : Fin 8) (s₀ s : State), s = s₀.wait dt → s.held = false → (decide (lane.val < lanesIn p) && s.fvState p != fvDown : Bool) = true →
      exec (.syncHeaderError dt p lane) s₀ = .next (s.syncError p lane))
    ∧ (∀ (dt : Nat) (p : Fin 53) (inRow : Bool) (s₀ s : State), s = s₀.wait dt → s.held = false → s.fvState p = fvActive →
      exec (.alignReceive dt p inRow) s₀ = .next (if inRow then s else s.beginRetrain p))
    ∧ (∀ (dt : Nat) (p : Fin 53) (s₀ s : State), s = s₀.wait dt → s.held = false → (s.fvState p == fvActive || s.fvState p == fvStep || s.fvState p == fvRetrain : Bool) = true →
      exec (.sdsReceive dt p) s₀ = .next (
        s.setFvPort p { s.fvPort p with
          waking := false, seeds := (List.range (2 ^ s.get (F.FVL_PORT_STAT_WIDTH_IN p))).map seedOf }))
    ∧ (∀ (dt : Nat) (p : Fin 53) (s₀ s : State), s = s₀.wait dt → s.held = false → s.fvState p = fvActive →
      exec (.eiosReceive dt p) s₀ = .next (s.put (F.FVL_PORT_STAT_RX_SLEEP p) 1))
    ∧ (∀ (dt : Nat) (p : Fin 53) (relocks : Bool) (s₀ s : State), s = s₀.wait dt → s.held = false → s.fvState p = fvActive →
      exec (.wakeReceive dt p relocks) s₀ = .next (
        if relocks then (s.put (F.FVL_PORT_STAT_RX_SLEEP p) 0).setFvPort p { s.fvPort p with waking := true }
        else s.beginRetrain p))

/-- Host interface, network and twin pairing commands complete: under the conditions that the manual gives (R33, R460, R462,
R471, R474, R476, R480, R481, R484, R487, R493, R494), each of the commands MSIX_VECTOR_UNMASK, BUS_MASTER_ENABLE_SET,
PCIE_LINK_UP, PCIE_LINK_DOWN, BAR2_READ, BAR2_WRITE, GPIO_EDGE, GPIO_OUT_SET, GPIO_OUT_CLR, I2C_GO, I2C_TRANSFER_END,
I2C_STRETCH_TIMEOUT, ETH_LINK_CHANGE, ETH_FRAME_RECEIVE, TX_PROD_WRITE, FRAME_TRANSMIT, TSQ_TAKE, PTP_STEP, PTP_RATE_WRITE,
SYNC_LOSS_TIMEOUT, HOLDOVER_CLEAR, MAP_PAIR, MAP_SNAP, TWN_ENABLE, TWN_DISABLE, PAIRING_END, HEARTBEAT_SEND, HEARTBEAT_RECEIVE,
HEARTBEAT_PATH_LOST, PARTNER_LOST, CASTLING_CLAIMS_DONE, SIGNATURE_SEND, SIGNATURE_RECEIVE, SIGNATURE_WAIT_TIMEOUT,
NT_UPDATE_RECEIVE, RING_DATA_RECEIVE, DEFECT_MESSAGE_RECEIVE, CASTLE, CASTLE_MESSAGE_RECEIVE, CASTLE_ACK_TIMEOUT answers the
next state of its own effect. -/
def Obligations.HostNetworkAndTwinCommandsComplete : Prop :=
    (∀ (dt : Nat) (who : Requester) (f : Fin 6) (v : Fin 32) (s₀ s : State), s = s₀.wait dt → s.TakesWrite who (O.MSIX_CTRL f v) →
      exec (.msixVectorUnmask dt who f v) s₀ = .next ((s.put (F.MSIX_CTRL f v) 0).msixFlush f v))
    ∧ (∀ (dt : Nat) (f : Fin 6) (s₀ s : State), s = s₀.wait dt → s.held = false → s.configOpen f = true →
      exec (.busMasterEnableSet dt f) s₀ = .next (s.enableBusMaster f))
    ∧ (∀ (dt : Nat) (rate : Fin 5) (width : Fin 9) (s₀ s : State), s = s₀.wait dt → s.held = false → s.on F.HIF_LINK_UP = false →
      exec (.pcieLinkUp dt rate width) s₀ = .next (    (((s.put F.HIF_LINK_RATE (rate + 1)).put F.HIF_LINK_WIDTH width).put F.HIF_LINK_UP 1).hifEvent 1))
    ∧ (∀ (dt : Nat) (s₀ s : State), s = s₀.wait dt → s.held = false → s.on F.HIF_LINK_UP = true →
      exec (.pcieLinkDown dt) s₀ = .next (    ((s.put F.HIF_LINK_UP 0).hifEvent 0).logErr siteHif 0x04 0x040 []))
    ∧ (∀ (dt : Nat) (f : Fin 6) (off : DWord) (len : Fin 4097) (s₀ s : State), s = s₀.wait dt → s.held = false →
      exec (.bar2Read dt f off len) s₀ = .next (s.bar2Read f (off.toNat % 2 ^ s.bar2Size f) len))
    ∧ (∀ (dt : Nat) (f : Fin 6) (off : DWord) (bytes : Bytes) (s₀ s : State), s = s₀.wait dt → s.held = false →
      exec (.bar2Write dt f off bytes) s₀ = .next (s.bar2Write f (off.toNat % 2 ^ s.bar2Size f) bytes))
    ∧ (∀ (dt : Nat) (i : Fin 32) (level : Bool) (s₀ s : State), s = s₀.wait dt → s.held = false → s.gpioNew i level = true →
      exec (.gpioEdge dt i level) s₀ = .next (s.gpioAccept i level))
    ∧ (∀ (dt : Nat) (who : Requester) (v : Word) (s₀ s : State), s = s₀.wait dt → s.TakesWrite who O.GPIO_OUT_SET →
      exec (.gpioOutSet dt who v) s₀ = .next (s.gpioSet v.toNat))
    ∧ (∀ (dt : Nat) (who : Requester) (v : Word) (s₀ s : State), s = s₀.wait dt → s.TakesWrite who O.GPIO_OUT_CLR →
      exec (.gpioOutClr dt who v) s₀ = .next (s.gpioClr v.toNat))
    ∧ (∀ (dt : Nat) (who : Requester) (s₀ s : State), s = s₀.wait dt → s.TakesWrite who O.I2C_CTRL →
      exec (.i2cGo dt who) s₀ = .next s.i2cGo)
    ∧ (∀ (dt : Nat) (outcome : I2cEnd) (rdata : Bytes) (s₀ s : State), s = s₀.wait dt → s.held = false → s.on F.I2C_STAT_BUSY = true →
      exec (.i2cTransferEnd dt outcome rdata) s₀ = .next ((s.i2cStore (i2cRead outcome rdata)).i2cEnd outcome))
    ∧ (∀ (dt : Nat) (rdata : Bytes) (s₀ s : State), s = s₀.wait dt → s.held = false → s.on F.I2C_STAT_BUSY = true →
      exec (.i2cStretchTimeout dt rdata) s₀ = .next ((s.i2cStore rdata).i2cFail F.I2C_STAT_TIMEOUT 0x043))
    ∧ (∀ (dt : Nat) (n : Fin 2) (up : Bool) (anDone : Bool) (s₀ s : State), s = s₀.wait dt → s.held = false → s.on (F.NET_P_STAT_LINK_UP n) ≠ up →
      exec (.ethLinkChange dt n up anDone) s₀ = .next (    ((s.put (F.NET_P_STAT_LINK_UP n) (b2n up)).put (F.NET_P_STAT_AN_DONE n) (b2n anDone)).netEvent n))
    ∧ (∀ (dt : Nat) (n : Fin 2) (fcsOk : Bool) (bytes : Bytes) (s₀ s : State), s = s₀.wait dt → s.held = false → (s.netUp n && !s.inFlr 4 : Bool) = true →
      exec (.ethFrameReceive dt n fcsOk bytes) s₀ = .next (s.frameIn n fcsOk bytes))
    ∧ (∀ (dt : Nat) (who : Requester) (n : Fin 2) (q : Fin 8) (v : Word) (s₀ s : State), s = s₀.wait dt → s.TakesWrite who (O.NET_P_TX_PROD n q) →
      exec (.txProdWrite dt who n q v) s₀ = .next (s.put (F.NET_P_TX_PROD n q) v.toNat))
    ∧ (∀ (dt : Nat) (n : Fin 2) (q : Fin 8) (host : HostMemory) (s₀ s : State), s = s₀.wait dt → s.held = false → s.txNext host n q = true →
      exec (.frameTransmit dt n q host) s₀ = .next (s.txTake host n q))
    ∧ (∀ (dt : Nat) (who : Requester) (s₀ s : State), s = s₀.wait dt → s.TakesRead who (O.NET_PTP_TSQ 0) →
      exec (.tsqTake dt who) s₀ = .next (s.tsqTake who))
    ∧ (∀ (dt : Nat) (who : Requester) (hi : Word) (s₀ s : State), s = s₀.wait dt → s.TakesWrite who O.NET_PTP_STEP →
      exec (.ptpStep dt who hi) s₀ = .next ((s.consumeLow who O.NET_PTP_STEP).ptpStep (s.joined who O.NET_PTP_STEP hi)))
    ∧ (∀ (dt : Nat) (who : Requester) (v : Word) (s₀ s : State), s = s₀.wait dt → s.TakesWrite who O.NET_PTP_RATE →
      exec (.ptpRateWrite dt who v) s₀ = .next (s.ptpRate v.toNat))
    ∧ (∀ (dt : Nat) (s₀ s : State), s = s₀.wait dt → s.held = false → s.syncLost = true →
      exec (.syncLossTimeout dt) s₀ = .next s.holdover)
    ∧ (∀ (dt : Nat) (who : Requester) (s₀ s : State), s = s₀.wait dt → s.TakesWrite who O.NET_PTP_STAT →
      exec (.holdoverClear dt who) s₀ = .next s.holdoverClear)
    ∧ (∀ (dt : Nat) (s₀ s : State), s = s₀.wait dt → s.held = false → s.mapDue = true →
      exec (.mapPair dt) s₀ = .next s.mapPair)
    ∧ (∀ (dt : Nat) (who : Requester) (s₀ s : State), s = s₀.wait dt → s.TakesWrite who O.NET_PTP_MAP_STAT →
      exec (.mapSnap dt who) s₀ = .next (s.mapSnap who))
    ∧ (∀ (dt : Nat) (who : Requester) (s₀ s : State), s = s₀.wait dt → s.TakesWrite who O.TWN_CTRL →
      exec (.twnEnable dt who) s₀ = .next ((s.put F.TWN_CTRL_EN 1).pairStart))
    ∧ (∀ (dt : Nat) (who : Requester) (s₀ s : State), s = s₀.wait dt → s.TakesWrite who O.TWN_CTRL →
      exec (.twnDisable dt who) s₀ = .next s.twnOff)
    ∧ (∀ (dt : Nat) (r : Pairing) (s₀ s : State), s = s₀.wait dt → s.held = false → s.twnState = twPairing →
      exec (.pairingEnd dt r) s₀ = .next (s.pairEnd r))
    ∧ (∀ (dt : Nat) (eth : Bool) (s₀ s : State), s = s₀.wait dt → s.held = false → s.heartbeatDue eth = true →
      exec (.heartbeatSend dt eth) s₀ = .next (s.heartbeat eth))
    ∧ (∀ (dt : Nat) (eth : Bool) (tagOk : Bool) (hb : Heartbeat) (s₀ s : State), s = s₀.wait dt → s.held = false → s.paired = true →
      exec (.heartbeatReceive dt eth tagOk hb) s₀ = .next (if tagOk then s.heartbeatIn eth hb else s.tagFailed))
    ∧ (∀ (dt : Nat) (eth : Bool) (s₀ s : State), s = s₀.wait dt → s.held = false → s.pathQuiet eth = true →
      exec (.heartbeatPathLost dt eth) s₀ = .next (s.pathLost eth))
    ∧ (∀ (dt : Nat) (s₀ s : State), s = s₀.wait dt → s.held = false → s.partnerQuiet = true →
      exec (.partnerLost dt) s₀ = .next s.partnerLost)
    ∧ (∀ (dt : Nat) (s₀ s : State), s = s₀.wait dt → s.held = false → s.twnState = twCastling →
      exec (.castlingClaimsDone dt) s₀ = .next s.castlingDone)
    ∧ (∀ (dt : Nat) (s₀ s : State), s = s₀.wait dt → s.held = false → (s.twnState == twStandby && s.sigReady != [] : Bool) = true →
      exec (.signatureSend dt) s₀ = .next s.sigSend)
    ∧ (∀ (dt : Nat) (entries : List SigEntry) (s₀ s : State), s = s₀.wait dt → s.held = false → (s.twnState == twActive && !s.twn.lost : Bool) = true →
      exec (.signatureReceive dt entries) s₀ = .next (s.sigReceive entries))
    ∧ (∀ (dt : Nat) (s₀ s : State), s = s₀.wait dt → s.held = false → (s.twnState == twActive && !s.twn.lost && s.sigLate.isSome : Bool) = true →
      exec (.signatureWaitTimeout dt) s₀ = .next s.sigMissing)
    ∧ (∀ (dt : Nat) (entries : List NtEntry) (s₀ s : State), s = s₀.wait dt → s.held = false → s.twnState = twStandby →
      exec (.ntUpdateReceive dt entries) s₀ = .next (    entries.foldl (fun (s : State) e => s.ntSubmit e.idx.val (.masked e.mask e.data)) s))
    ∧ (∀ (dt : Nat) (r : Fin 4) (bytes : Bytes) (s₀ s : State), s = s₀.wait dt → s.held = false → s.twnState = twStandby →
      exec (.ringDataReceive dt r bytes) s₀ = .next (
        let all := s.ringBuf r ++ bytes
        (s.setRingBuf r all).mirrorIn r (all.length / 64 + 1)))
    ∧ (∀ (dt : Nat) (words : List DWord) (s₀ s : State), s = s₀.wait dt → s.held = false → s.twnState = twActive →
      exec (.defectMessageReceive dt words) s₀ = .next (s.offer rankTwn (chunks 16 (unpackWords words))))
    ∧ (∀ (dt : Nat) (who : Requester) (s₀ s : State), s = s₀.wait dt → s.TakesWrite who O.TWN_CTRL →
      exec (.castle dt who) s₀ = .next s.castlePlan)
    ∧ (∀ (dt : Nat) (msg : CastleMsg) (tagOk : Bool) (s₀ s : State), s = s₀.wait dt → s.held = false → s.paired = true →
      exec (.castleMessageReceive dt msg tagOk) s₀ = .next (if tagOk then s.castleMessage msg else s.tagFailed))
    ∧ (∀ (dt : Nat) (s₀ s : State), s = s₀.wait dt → s.held = false → s.castleLate = true →
      exec (.castleAckTimeout dt) s₀ = .next (    { s with twn := { s.twn with castle := none } }.logErr siteTwn 0x03 0x030 []))

/-- Security, calibration, monitoring, reset and start-up commands complete: under the conditions that the manual gives (R501,
R503, R505, R508, R510, R511, R513, R521, R532, R533, R538, R540), each of the commands PCIE_PERST, SEC_ENROL, SEC_REVOKE,
SEC_SECURE_BOOT, SEC_SET_DOMAIN, SEC_ATTEST, SEC_COMMAND_END, DOMAIN_LOCK, SENSOR_CONVERSION, CAL_RUN, CAL_PHASE_END,
THERMAL_TRIP, PMU_FREEZE, PMU_CLEAR, BANDWIDTH_WINDOW_END, PWR_GOOD_FALL, POWER_ON_RESET_END, SYS_RST_N_ASSERT,
DEVICE_RESET_END, BOOT_STEP_END, FLASH_IMAGE_READ_END, BOOT_GO, UART_REQUEST, UART_GAP_TIMEOUT, FLASH_READ_TIMEOUT,
PMU_COUNTER_WRAP answers the next state of its own effect. -/
def Obligations.SecurityCalibrationAndStartUpCommandsComplete : Prop :=
    (∀ (dt : Nat) (s₀ s : State), s = s₀.wait dt → s.held = false →
      exec (.pciePerst dt) s₀ = .next s.perst)
    ∧ (∀ (dt : Nat) (who : Requester) (s₀ s : State), s = s₀.wait dt → s.TakesWrite who O.SEC_CMD_CTRL →
      exec (.secEnrol dt who) s₀ = .next (s.secGo 1))
    ∧ (∀ (dt : Nat) (who : Requester) (s₀ s : State), s = s₀.wait dt → s.TakesWrite who O.SEC_CMD_CTRL →
      exec (.secRevoke dt who) s₀ = .next (s.secGo 2))
    ∧ (∀ (dt : Nat) (who : Requester) (s₀ s : State), s = s₀.wait dt → s.TakesWrite who O.SEC_CMD_CTRL →
      exec (.secSecureBoot dt who) s₀ = .next (s.secGo 3))
    ∧ (∀ (dt : Nat) (who : Requester) (s₀ s : State), s = s₀.wait dt → s.TakesWrite who O.SEC_CMD_CTRL →
      exec (.secSetDomain dt who) s₀ = .next (s.secGo 4))
    ∧ (∀ (dt : Nat) (who : Requester) (s₀ s : State), s = s₀.wait dt → s.TakesWrite who O.SEC_CMD_CTRL →
      exec (.secAttest dt who) s₀ = .next (s.secGo 5))
    ∧ (∀ (dt : Nat) (fuses : FuseOutcome) (s₀ s : State) b n, s = s₀.wait dt → s.held = false → s.sec.cmd = some (b, n) →
      exec (.secCommandEnd dt fuses) s₀ = .next (s.cmdEnd b n fuses))
    ∧ (∀ (dt : Nat) (who : Requester) (v : Word) (s₀ s : State), s = s₀.wait dt → s.TakesWrite who O.SEC_DOMAIN →
      exec (.domainLock dt who v) s₀ = .next (s.domainWrite who (setBits v.toNat 31 31 1)))
    ∧ (∀ (dt : Nat) (temps : Temps) (s₀ s : State), s = s₀.wait dt → s.held = false → (s.cal.convAt + 400000 ≤ s.now) →
      exec (.sensorConversion dt temps) s₀ = .next (s.convert temps))
    ∧ (∀ (dt : Nat) (who : Requester) (s₀ s : State), s = s₀.wait dt → s.TakesWrite who O.CAL_CTRL →
      exec (.calRun dt who) s₀ = .next s.calStart)
    ∧ (∀ (dt : Nat) (r : CalPhase) (s₀ s : State), s = s₀.wait dt → s.held = false → s.calState ≠ caIdle →
      exec (.calPhaseEnd dt r) s₀ = .next (s.calPhase r))
    ∧ (∀ (dt : Nat) (s : State), exec (.thermalTrip dt) s = .next (s.wait dt).trip)
    ∧ (∀ (dt : Nat) (who : Requester) (on : Bool) (s₀ s : State), s = s₀.wait dt → s.TakesWrite who O.PMU_CTRL →
      exec (.pmuFreeze dt who on) s₀ = .next (s.pmuFreeze on))
    ∧ (∀ (dt : Nat) (who : Requester) (s₀ s : State), s = s₀.wait dt → s.TakesWrite who O.PMU_CTRL →
      exec (.pmuClear dt who) s₀ = .next s.pmuClear)
    ∧ (∀ (dt : Nat) (s₀ s : State), s = s₀.wait dt → s.held = false → s.bwDue = true →
      exec (.bandwidthWindowEnd dt) s₀ = .next s.bwEnd)
    ∧ (∀ (dt : Nat) (s : State), exec (.pwrGoodFall dt) s = .next (s.wait dt).powerFall)
    ∧ (∀ (dt : Nat) (powerLost : Bool) (s : State),
      exec (.powerOnResetEnd dt powerLost) s = .next ((s.wait dt).powerUp powerLost))
    ∧ (∀ (dt : Nat) (s : State), exec (.sysRstNAssert dt) s = .next (s.wait dt).enterReset)
    ∧ (∀ (dt : Nat) (bootSel : Bool) (s : State),
      exec (.deviceResetEnd dt bootSel) s = .next ((s.wait dt).leaveReset bootSel))
    ∧ (∀ (dt : Nat) (failed : BitVec 32) (s₀ s : State), s = s₀.wait dt → s.held = false →
      exec (.bootStepEnd dt failed) s₀ = .next (s.bootNext failed))
    ∧ (∀ (dt : Nat) (dir : Bytes) (image : Bytes) (s₀ s : State), s = s₀.wait dt → s.held = false → s.readingFlash = true →
      exec (.flashImageReadEnd dt dir image) s₀ = .next (s.imageRead dir image))
    ∧ (∀ (dt : Nat) (who : Requester) (s₀ s : State), s = s₀.wait dt → s.TakesWrite who O.SEC_BOOT_CTRL →
      exec (.bootGo dt who) s₀ = .next s.bootGo)
    ∧ (∀ (dt : Nat) (bytes : Bytes) (s₀ s : State), s = s₀.wait dt → s.held = false → (2 ≤ s.boot.step : Bool) = true →
      exec (.uartRequest dt bytes) s₀ = .next (s.uartIn bytes))
    ∧ (∀ (dt : Nat) (s₀ s : State), s = s₀.wait dt → s.held = false → s.uartStale = true →
      exec (.uartGapTimeout dt) s₀ = .next s.uartDrop)
    ∧ (∀ (dt : Nat) (dir : Bytes) (s₀ s : State), s = s₀.wait dt → s.held = false → s.flashLate = true →
      exec (.flashReadTimeout dt dir) s₀ = .next (s.flashTimeout dir))
    ∧ (∀ (dt : Nat) (c : Fin 32) (s₀ s : State), s = s₀.wait dt → s.held = false → s.pmuMayWrap c = true →
      exec (.pmuCounterWrap dt c) s₀ = .next ((s.pmuFromNow c).pmuWrap c))
end

