-- ==== Sys2Proof/Laws/Eng.lean ====
section
/-! SUPPORT. What an engine's instruction does once it runs, by the way it ends; and what a channel's instruction does once its
words are taken. -/

namespace Sys2Proof.Machine

/-- A fetched word that is the instruction runs. -/
theorem State.engWord_eq (s v : State) (e : Nat) (o : Op) (w : Nat) (body : Nat → State → EngRes) (h : cregar w = some o) :
    s.engWord v e o w body = v.engRun e o w body := if_pos h

/-- An instruction that runs ends as its meaning says. -/
theorem engCmd_runs {s u : State} {e : Nat} {o : Op} {w : Nat} (h : s.Runs e o w u) (s₀ : State) (dt : Nat)
    (hs : s = s₀.wait dt) (body : Nat → State → EngRes) :
    engCmd dt e o body s₀ = .next (u.engFinish e o w (body w u)) := by
  obtain ⟨h1, h2, f, h3, h4, h5⟩ := h
  subst hs
  simp only [engCmd, evCmd, h1, h2, State.engIssue, h3, State.engWord_eq _ _ _ _ _ _ h4, State.engRun, h5, Bool.not_false,
    Bool.and_true, if_true]

theorem State.engFinish_ok (u : State) (e : Nat) (o : Op) (w : Nat) (v : State) :
    u.engFinish e o w (.ok v) = u.retired e o w v := rfl

theorem State.engFinish_access (u : State) (e : Nat) (o : Op) (w : Nat) (v : State) (a : DWord) (miss : Bool) :
    u.engFinish e o w (.done v (u.dataOf e a) miss) = u.retiredAccess e o w a miss v := rfl

theorem State.engFinish_fault (u : State) (e : Nat) (o : Op) (w : Nat) (v : State) (cause : Nat) (a : DWord) :
    u.engFinish e o w (.fault v cause a) = v.engFault e cause a := rfl

theorem State.engFinish_skipped (u : State) (e : Nat) (o : Op) (w : Nat) (v : State) (target : DWord) :
    u.engFinish e o w (.branch v false target) = u.branched e o w target false v := rfl

theorem State.engFinish_taken (u : State) (e : Nat) (o : Op) (w : Nat) (v : State) (target : DWord) (h : u.goodTarget e target) :
    u.engFinish e o w (.branch v true target) = u.branched e o w target true v := by
  obtain ⟨h1, h2⟩ := h
  exact (if_neg (not_not_intro h1)).trans (if_pos h2)

/-- A channel's instruction whose words are taken does what its meaning says. -/
theorem dmaCmd_takes {s u : State} {c op : Nat} {f : Fetches} {ws : List Nat} (h : s.DmaTakes c op f ws u) (s₀ : State) (dt : Nat)
    (hs : s = s₀.wait dt) (effect : List Nat → State → State) :
    dmaCmd dt c op f effect s₀ = .next (effect ws u) := by
  obtain ⟨h1, h2, w, more, f', f'', v, h3, h4, h5, h6, h7⟩ := h
  subst hs h7
  simp only [dmaCmd, evCmd, h1, h2, State.dmaTake, h3, h4, h5, h6, Bool.not_false, Bool.and_true, if_true, beq_self_eq_true]

end Sys2Proof.Machine
end

