-- ==== Sys2Proof/Laws/Sparse.lean ====
section
/-! SUPPORT. What sparse tables and bit fields do: an entry reads back what was put there, every other entry
stays, and the canonical form is kept. -/

namespace Sys2Proof.Machine

/-! ### Sparse tables -/

theorem Sparse.get_drop_same {α : Type} (d : Nat → α) (m : List (Nat × α)) (k : Nat) :
    Sparse.get d (Sparse.drop m k) k = d k := by
  induction m with
  | nil => rfl
  | cons p m ih =>
    unfold Sparse.drop at *
    by_cases h : p.1 = k
    · simp [h, ih]
    · simp [h, Sparse.get, ih]

theorem Sparse.get_drop_other {α : Type} (d : Nat → α) (m : List (Nat × α)) (k j : Nat) (hj : j ≠ k) :
    Sparse.get d (Sparse.drop m k) j = Sparse.get d m j := by
  induction m with
  | nil => rfl
  | cons p m ih =>
    unfold Sparse.drop at *
    by_cases h : p.1 = k
    · have h' : p.1 ≠ j := by omega
      simp [h, Sparse.get, ih]
      intro hk; omega
    · simp [h, Sparse.get, ih]

theorem Sparse.get_ins_same {α : Type} (d : Nat → α) (k : Nat) (v : α) (m : List (Nat × α)) (hm : ∀ p ∈ m, p.1 ≠ k) :
    Sparse.get d (Sparse.ins k v m) k = v := by
  induction m with
  | nil => simp [Sparse.ins, Sparse.get]
  | cons p m ih =>
    have hp : p.1 ≠ k := hm p (by simp)
    have ht : ∀ q ∈ m, q.1 ≠ k := fun q hq => hm q (by simp [hq])
    by_cases h : k < p.1
    · simp [Sparse.ins, Sparse.get, h]
    · simp [Sparse.ins, Sparse.get, h, hp, ih ht]

theorem Sparse.get_ins_other {α : Type} (d : Nat → α) (k j : Nat) (v : α) (m : List (Nat × α)) (hj : j ≠ k) :
    Sparse.get d (Sparse.ins k v m) j = Sparse.get d m j := by
  induction m with
  | nil => simp [Sparse.ins, Sparse.get, Ne.symm hj]
  | cons p m ih =>
    by_cases h : k < p.1
    · simp [Sparse.ins, Sparse.get, h, Ne.symm hj]
    · simp [Sparse.ins, Sparse.get, h, ih]

theorem Sparse.drop_ne {α : Type} (m : List (Nat × α)) (k : Nat) : ∀ p ∈ Sparse.drop m k, p.1 ≠ k := by
  intro p hp
  simp [Sparse.drop] at hp
  exact hp.2

/-- What a table holds after a write: the value at the index written, what it held before elsewhere. -/
theorem Sparse.get_set {α : Type} [DecidableEq α] (d : Nat → α) (m : List (Nat × α)) (k j : Nat) (v : α) :
    Sparse.get d (Sparse.set d m k v) j = if j = k then v else Sparse.get d m j := by
  unfold Sparse.set
  by_cases hj : j = k
  · subst hj
    by_cases hv : v = d j
    · simp [hv, Sparse.get_drop_same]
    · simp [hv, Sparse.get_ins_same _ _ _ _ (Sparse.drop_ne m j)]
  · by_cases hv : v = d k
    · simp [hv, hj, Sparse.get_drop_other]
    · simp [hv, hj, Sparse.get_ins_other, Sparse.get_drop_other]

@[simp] theorem Sparse.get_set_same {α : Type} [DecidableEq α] (d : Nat → α) (m : List (Nat × α)) (k : Nat) (v : α) :
    Sparse.get d (Sparse.set d m k v) k = v := by simp [Sparse.get_set]

theorem Sparse.get_set_other {α : Type} [DecidableEq α] (d : Nat → α) (m : List (Nat × α)) (k j : Nat) (v : α) (h : j ≠ k) :
    Sparse.get d (Sparse.set d m k v) j = Sparse.get d m j := by simp [Sparse.get_set, h]

theorem Sparse.wf_cons {α : Type} [DecidableEq α] (d : Nat → α) (p : Nat × α) (m : List (Nat × α)) :
    Sparse.wf d (p :: m) = true ↔ (p.2 ≠ d p.1 ∧ (∀ q ∈ m, p.1 < q.1)) ∧ Sparse.wf d m = true := by
  simp [Sparse.wf]

/-- Leaving entries out keeps the canonical form. -/
theorem Sparse.wf_filter {α : Type} [DecidableEq α] (d : Nat → α) (f : Nat × α → Bool) (m : List (Nat × α))
    (h : Sparse.wf d m = true) : Sparse.wf d (m.filter f) = true := by
  induction m with
  | nil => rfl
  | cons p m ih =>
    rw [Sparse.wf_cons] at h
    by_cases hp : f p
    · simp only [List.filter_cons, hp, if_true]
      rw [Sparse.wf_cons]
      refine ⟨⟨h.1.1, ?_⟩, ih h.2⟩
      intro q hq
      exact h.1.2 q (List.mem_filter.1 hq).1
    · simp only [List.filter_cons, hp]
      exact ih h.2

theorem Sparse.wf_drop {α : Type} [DecidableEq α] (d : Nat → α) (m : List (Nat × α)) (k : Nat)
    (h : Sparse.wf d m = true) : Sparse.wf d (Sparse.drop m k) = true := Sparse.wf_filter d _ m h

theorem Sparse.mem_ins {α : Type} (k : Nat) (v : α) (m : List (Nat × α)) (q : Nat × α) (h : q ∈ Sparse.ins k v m) :
    q = (k, v) ∨ q ∈ m := by
  induction m with
  | nil => simp [Sparse.ins] at h; exact Or.inl h
  | cons p m ih =>
    by_cases hk : k < p.1
    · simp [Sparse.ins, hk] at h
      rcases h with h | h | h
      · exact Or.inl h
      · exact Or.inr (by simp [h])
      · exact Or.inr (by simp [h])
    · simp [Sparse.ins, hk] at h
      rcases h with h | h
      · exact Or.inr (by simp [h])
      · rcases ih h with h | h
        · exact Or.inl h
        · exact Or.inr (by simp [h])

theorem Sparse.wf_ins {α : Type} [DecidableEq α] (d : Nat → α) (k : Nat) (v : α) (m : List (Nat × α))
    (hv : v ≠ d k) (hm : ∀ p ∈ m, p.1 ≠ k) (h : Sparse.wf d m = true) : Sparse.wf d (Sparse.ins k v m) = true := by
  induction m with
  | nil => simp [Sparse.ins, Sparse.wf, hv]
  | cons p m ih =>
    rw [Sparse.wf_cons] at h
    have hp : p.1 ≠ k := hm p (by simp)
    by_cases hk : k < p.1
    · simp only [Sparse.ins, hk, if_true]
      rw [Sparse.wf_cons]
      refine ⟨⟨hv, ?_⟩, (Sparse.wf_cons d p m).2 h⟩
      intro q hq
      rcases List.mem_cons.1 hq with rfl | hq
      · exact hk
      · exact Nat.lt_trans hk (h.1.2 q hq)
    · simp only [Sparse.ins, hk, if_false]
      rw [Sparse.wf_cons]
      refine ⟨⟨h.1.1, ?_⟩, ih (fun q hq => hm q (by simp [hq])) h.2⟩
      intro q hq
      rcases Sparse.mem_ins k v m q hq with rfl | hq
      · show p.1 < k; omega
      · exact h.1.2 q hq

/-- A write keeps the canonical form. -/
theorem Sparse.wf_set {α : Type} [DecidableEq α] (d : Nat → α) (m : List (Nat × α)) (k : Nat) (v : α)
    (h : Sparse.wf d m = true) : Sparse.wf d (Sparse.set d m k v) = true := by
  unfold Sparse.set
  by_cases hv : v = d k
  · simp [hv, Sparse.wf_drop d m k h]
  · simp [hv, Sparse.wf_ins d k v _ hv (Sparse.drop_ne m k) (Sparse.wf_drop d m k h)]

/-! ### Bit fields -/

theorem setBits_eq (n hi lo v : Nat) :
    setBits n hi lo v = n / 2 ^ (hi + 1) * 2 ^ (hi + 1) + v % 2 ^ (hi - lo + 1) * 2 ^ lo + n % 2 ^ lo := by
  unfold setBits
  rw [Nat.mul_comm (2 ^ (hi + 1)), Nat.mul_comm (2 ^ lo)]

theorem two_pow_split (hi lo : Nat) (h : lo ≤ hi) : 2 ^ (hi + 1) = 2 ^ lo * 2 ^ (hi - lo + 1) := by
  rw [← Nat.pow_add]; congr 1; omega

/-- A field reads back the low bits of what was put there. -/
theorem bits_setBits_same (n hi lo v : Nat) (h : lo ≤ hi) : bits (setBits n hi lo v) hi lo = v % 2 ^ (hi - lo + 1) := by
  unfold bits
  rw [setBits_eq]
  rw [two_pow_split hi lo h]
  have hpos : 0 < 2 ^ lo := Nat.pow_pos (by decide)
  generalize ha : n / (2 ^ lo * 2 ^ (hi - lo + 1)) = a
  generalize hb : v % 2 ^ (hi - lo + 1) = b
  have hc : n % 2 ^ lo < 2 ^ lo := Nat.mod_lt _ hpos
  have hbl : b < 2 ^ (hi - lo + 1) := by rw [← hb]; exact Nat.mod_lt _ (Nat.pow_pos (by decide))
  generalize n % 2 ^ lo = c at *
  have e : a * (2 ^ lo * 2 ^ (hi - lo + 1)) + b * 2 ^ lo + c = c + 2 ^ lo * (b + 2 ^ (hi - lo + 1) * a) := by
    rw [Nat.mul_add, Nat.mul_comm b, Nat.mul_comm a, Nat.mul_assoc]; omega
  rw [e, Nat.add_mul_div_left _ _ hpos, Nat.div_eq_of_lt hc, Nat.zero_add, Nat.add_mul_mod_self_left, Nat.mod_eq_of_lt hbl]

/-- The low part of a number below a field stays. -/
theorem setBits_mod (n hi lo v : Nat) (h : lo ≤ hi) : setBits n hi lo v % 2 ^ lo = n % 2 ^ lo := by
  rw [setBits_eq]
  rw [two_pow_split hi lo h]
  have e : n / (2 ^ lo * 2 ^ (hi - lo + 1)) * (2 ^ lo * 2 ^ (hi - lo + 1)) + v % 2 ^ (hi - lo + 1) * 2 ^ lo + n % 2 ^ lo
      = n % 2 ^ lo + 2 ^ lo * (n / (2 ^ lo * 2 ^ (hi - lo + 1)) * 2 ^ (hi - lo + 1) + v % 2 ^ (hi - lo + 1)) := by
    rw [Nat.mul_add, Nat.mul_left_comm (n / _), Nat.mul_comm (v % _)]; omega
  rw [e, Nat.add_mul_mod_self_left, Nat.mod_mod]

/-- The part of a number above a field stays. -/
theorem setBits_div (n hi lo v : Nat) (h : lo ≤ hi) : setBits n hi lo v / 2 ^ (hi + 1) = n / 2 ^ (hi + 1) := by
  rw [setBits_eq]
  have hp : 0 < 2 ^ (hi + 1) := Nat.pow_pos (by decide)
  have hb : v % 2 ^ (hi - lo + 1) < 2 ^ (hi - lo + 1) := Nat.mod_lt _ (Nat.pow_pos (by decide))
  have hc : n % 2 ^ lo < 2 ^ lo := Nat.mod_lt _ (Nat.pow_pos (by decide))
  have hlt : v % 2 ^ (hi - lo + 1) * 2 ^ lo + n % 2 ^ lo < 2 ^ (hi + 1) := by
    rw [two_pow_split hi lo h]
    calc v % 2 ^ (hi - lo + 1) * 2 ^ lo + n % 2 ^ lo
        < v % 2 ^ (hi - lo + 1) * 2 ^ lo + 2 ^ lo := Nat.add_lt_add_left hc _
      _ = (v % 2 ^ (hi - lo + 1) + 1) * 2 ^ lo := by rw [Nat.add_mul, Nat.one_mul]
      _ ≤ 2 ^ (hi - lo + 1) * 2 ^ lo := Nat.mul_le_mul_right _ hb
      _ = 2 ^ lo * 2 ^ (hi - lo + 1) := Nat.mul_comm _ _
  rw [Nat.add_assoc, Nat.add_comm (n / _ * _), Nat.mul_comm (n / _), Nat.add_mul_div_left _ _ hp, Nat.div_eq_of_lt hlt,
    Nat.zero_add]

/-- A field above another keeps its value. -/
theorem bits_setBits_above (n hi lo v hi' lo' : Nat) (h : lo ≤ hi) (h' : hi < lo') :
    bits (setBits n hi lo v) hi' lo' = bits n hi' lo' := by
  unfold bits
  have e : 2 ^ lo' = 2 ^ (hi + 1) * 2 ^ (lo' - (hi + 1)) := by rw [← Nat.pow_add]; congr 1; omega
  rw [e, ← Nat.div_div_eq_div_mul, ← Nat.div_div_eq_div_mul, setBits_div n hi lo v h]

/-- A field below another keeps its value. -/
theorem bits_setBits_below (n hi lo v hi' lo' : Nat) (h : lo ≤ hi) (h' : hi' < lo) (hl : lo' ≤ hi') :
    bits (setBits n hi lo v) hi' lo' = bits n hi' lo' := by
  have key : ∀ m : Nat, m / 2 ^ lo' % 2 ^ (hi' - lo' + 1) = (m % 2 ^ lo) / 2 ^ lo' % 2 ^ (hi' - lo' + 1) := by
    intro m
    have e : 2 ^ lo = 2 ^ lo' * 2 ^ (hi' - lo' + 1) * 2 ^ (lo - (hi' + 1)) := by
      rw [← Nat.pow_add, ← Nat.pow_add]; congr 1; omega
    rw [e, Nat.mul_assoc, Nat.mod_mul_right_div_self, Nat.mod_mul_right_mod]
  unfold bits
  rw [key, setBits_mod n hi lo v h, ← key]

/-- A field put into a word below 2^32 leaves it there. -/
theorem setBits_lt (n hi lo v : Nat) (h : lo ≤ hi) (w : Nat) (hw : hi < w) (hn : n < 2 ^ w) : setBits n hi lo v < 2 ^ w := by
  have e : 2 ^ w = 2 ^ (w - (hi + 1)) * 2 ^ (hi + 1) := by rw [← Nat.pow_add]; congr 1; omega
  have hp : 0 < 2 ^ (hi + 1) := Nat.pow_pos (by decide)
  rw [e, ← Nat.div_lt_iff_lt_mul hp, setBits_div n hi lo v h, Nat.div_lt_iff_lt_mul hp, ← e]
  exact hn

end Sys2Proof.Machine
end

