-- ==== Sys2Proof/Laws/State.lean ====
section
/-! SUPPORT. What each named update of State leaves alone: one lemma per field and update, so that no proof unfolds a
record update. -/

namespace Sys2Proof.Machine

/-! ### pass -/

@[simp] theorem State.pass_regs (s : State) (dt : Nat) : (s.pass dt).regs = s.regs := rfl
@[simp] theorem State.pass_latch (s : State) (dt : Nat) : (s.pass dt).latch = s.latch := rfl
@[simp] theorem State.pass_pendLow (s : State) (dt : Nat) : (s.pass dt).pendLow = s.pendLow := rfl
@[simp] theorem State.pass_logs (s : State) (dt : Nat) : (s.pass dt).logs = s.logs := rfl
@[simp] theorem State.pass_logLatch (s : State) (dt : Nat) : (s.pass dt).logLatch = s.logLatch := rfl
@[simp] theorem State.pass_presented (s : State) (dt : Nat) : (s.pass dt).presented = s.presented := rfl
@[simp] theorem State.pass_draws (s : State) (dt : Nat) : (s.pass dt).draws = s.draws := rfl
@[simp] theorem State.pass_boot (s : State) (dt : Nat) : (s.pass dt).boot = s.boot := rfl
@[simp] theorem State.pass_netError (s : State) (dt : Nat) : (s.pass dt).netError = s.netError := rfl
@[simp] theorem State.pass_wtu (s : State) (dt : Nat) : (s.pass dt).wtu = s.wtu := rfl
@[simp] theorem State.pass_cmp (s : State) (dt : Nat) : (s.pass dt).cmp = s.cmp := rfl
@[simp] theorem State.pass_rp (s : State) (dt : Nat) : (s.pass dt).rp = s.rp := rfl
@[simp] theorem State.pass_ts (s : State) (dt : Nat) : (s.pass dt).ts = s.ts := rfl
@[simp] theorem State.pass_nt (s : State) (dt : Nat) : (s.pass dt).nt = s.nt := rfl
@[simp] theorem State.pass_ftu (s : State) (dt : Nat) : (s.pass dt).ftu = s.ftu := rfl
@[simp] theorem State.pass_dgu (s : State) (dt : Nat) : (s.pass dt).dgu = s.dgu := rfl
@[simp] theorem State.pass_cin (s : State) (dt : Nat) : (s.pass dt).cin = s.cin := rfl
@[simp] theorem State.pass_ipl (s : State) (dt : Nat) : (s.pass dt).ipl = s.ipl := rfl
@[simp] theorem State.pass_rru (s : State) (dt : Nat) : (s.pass dt).rru = s.rru := rfl
@[simp] theorem State.pass_dfq (s : State) (dt : Nat) : (s.pass dt).dfq = s.dfq := rfl
@[simp] theorem State.pass_fab (s : State) (dt : Nat) : (s.pass dt).fab = s.fab := rfl
@[simp] theorem State.pass_eng (s : State) (dt : Nat) : (s.pass dt).eng = s.eng := rfl
@[simp] theorem State.pass_emem (s : State) (dt : Nat) : (s.pass dt).emem = s.emem := rfl
@[simp] theorem State.pass_evf (s : State) (dt : Nat) : (s.pass dt).evf = s.evf := rfl
@[simp] theorem State.pass_dma (s : State) (dt : Nat) : (s.pass dt).dma = s.dma := rfl
@[simp] theorem State.pass_mem (s : State) (dt : Nat) : (s.pass dt).mem = s.mem := rfl
@[simp] theorem State.pass_fvl (s : State) (dt : Nat) : (s.pass dt).fvl = s.fvl := rfl
@[simp] theorem State.pass_net (s : State) (dt : Nat) : (s.pass dt).net = s.net := rfl
@[simp] theorem State.pass_twn (s : State) (dt : Nat) : (s.pass dt).twn = s.twn := rfl
@[simp] theorem State.pass_pmu (s : State) (dt : Nat) : (s.pass dt).pmu = s.pmu := rfl
@[simp] theorem State.pass_sec (s : State) (dt : Nat) : (s.pass dt).sec = s.sec := rfl
@[simp] theorem State.pass_cal (s : State) (dt : Nat) : (s.pass dt).cal = s.cal := rfl
@[simp] theorem State.pass_pending (s : State) (dt : Nat) : (s.pass dt).pending = s.pending := rfl

/-! ### setWord -/

@[simp] theorem State.setWord_tempo (s : State) (off v : Nat) : (s.setWord off v).tempo = s.tempo := rfl
@[simp] theorem State.setWord_past (s : State) (off v : Nat) : (s.setWord off v).past = s.past := rfl
@[simp] theorem State.setWord_latch (s : State) (off v : Nat) : (s.setWord off v).latch = s.latch := rfl
@[simp] theorem State.setWord_pendLow (s : State) (off v : Nat) : (s.setWord off v).pendLow = s.pendLow := rfl
@[simp] theorem State.setWord_logs (s : State) (off v : Nat) : (s.setWord off v).logs = s.logs := rfl
@[simp] theorem State.setWord_logLatch (s : State) (off v : Nat) : (s.setWord off v).logLatch = s.logLatch := rfl
@[simp] theorem State.setWord_presented (s : State) (off v : Nat) : (s.setWord off v).presented = s.presented := rfl
@[simp] theorem State.setWord_out (s : State) (off v : Nat) : (s.setWord off v).out = s.out := rfl
@[simp] theorem State.setWord_draws (s : State) (off v : Nat) : (s.setWord off v).draws = s.draws := rfl
@[simp] theorem State.setWord_boot (s : State) (off v : Nat) : (s.setWord off v).boot = s.boot := rfl
@[simp] theorem State.setWord_netError (s : State) (off v : Nat) : (s.setWord off v).netError = s.netError := rfl
@[simp] theorem State.setWord_wtu (s : State) (off v : Nat) : (s.setWord off v).wtu = s.wtu := rfl
@[simp] theorem State.setWord_cmp (s : State) (off v : Nat) : (s.setWord off v).cmp = s.cmp := rfl
@[simp] theorem State.setWord_rp (s : State) (off v : Nat) : (s.setWord off v).rp = s.rp := rfl
@[simp] theorem State.setWord_ts (s : State) (off v : Nat) : (s.setWord off v).ts = s.ts := rfl
@[simp] theorem State.setWord_nt (s : State) (off v : Nat) : (s.setWord off v).nt = s.nt := rfl
@[simp] theorem State.setWord_ftu (s : State) (off v : Nat) : (s.setWord off v).ftu = s.ftu := rfl
@[simp] theorem State.setWord_dgu (s : State) (off v : Nat) : (s.setWord off v).dgu = s.dgu := rfl
@[simp] theorem State.setWord_cin (s : State) (off v : Nat) : (s.setWord off v).cin = s.cin := rfl
@[simp] theorem State.setWord_ipl (s : State) (off v : Nat) : (s.setWord off v).ipl = s.ipl := rfl
@[simp] theorem State.setWord_rru (s : State) (off v : Nat) : (s.setWord off v).rru = s.rru := rfl
@[simp] theorem State.setWord_dfq (s : State) (off v : Nat) : (s.setWord off v).dfq = s.dfq := rfl
@[simp] theorem State.setWord_fab (s : State) (off v : Nat) : (s.setWord off v).fab = s.fab := rfl
@[simp] theorem State.setWord_eng (s : State) (off v : Nat) : (s.setWord off v).eng = s.eng := rfl
@[simp] theorem State.setWord_emem (s : State) (off v : Nat) : (s.setWord off v).emem = s.emem := rfl
@[simp] theorem State.setWord_evf (s : State) (off v : Nat) : (s.setWord off v).evf = s.evf := rfl
@[simp] theorem State.setWord_dma (s : State) (off v : Nat) : (s.setWord off v).dma = s.dma := rfl
@[simp] theorem State.setWord_mem (s : State) (off v : Nat) : (s.setWord off v).mem = s.mem := rfl
@[simp] theorem State.setWord_fvl (s : State) (off v : Nat) : (s.setWord off v).fvl = s.fvl := rfl
@[simp] theorem State.setWord_hif (s : State) (off v : Nat) : (s.setWord off v).hif = s.hif := rfl
@[simp] theorem State.setWord_net (s : State) (off v : Nat) : (s.setWord off v).net = s.net := rfl
@[simp] theorem State.setWord_twn (s : State) (off v : Nat) : (s.setWord off v).twn = s.twn := rfl
@[simp] theorem State.setWord_pmu (s : State) (off v : Nat) : (s.setWord off v).pmu = s.pmu := rfl
@[simp] theorem State.setWord_sec (s : State) (off v : Nat) : (s.setWord off v).sec = s.sec := rfl
@[simp] theorem State.setWord_cal (s : State) (off v : Nat) : (s.setWord off v).cal = s.cal := rfl
@[simp] theorem State.setWord_pending (s : State) (off v : Nat) : (s.setWord off v).pending = s.pending := rfl

/-! ### putPast -/

@[simp] theorem State.putPast_tempo (s : State) (f : Fld) (v : Nat) : (s.putPast f v).tempo = s.tempo := rfl
@[simp] theorem State.putPast_regs (s : State) (f : Fld) (v : Nat) : (s.putPast f v).regs = s.regs := rfl
@[simp] theorem State.putPast_latch (s : State) (f : Fld) (v : Nat) : (s.putPast f v).latch = s.latch := rfl
@[simp] theorem State.putPast_pendLow (s : State) (f : Fld) (v : Nat) : (s.putPast f v).pendLow = s.pendLow := rfl
@[simp] theorem State.putPast_logs (s : State) (f : Fld) (v : Nat) : (s.putPast f v).logs = s.logs := rfl
@[simp] theorem State.putPast_logLatch (s : State) (f : Fld) (v : Nat) : (s.putPast f v).logLatch = s.logLatch := rfl
@[simp] theorem State.putPast_presented (s : State) (f : Fld) (v : Nat) : (s.putPast f v).presented = s.presented := rfl
@[simp] theorem State.putPast_out (s : State) (f : Fld) (v : Nat) : (s.putPast f v).out = s.out := rfl
@[simp] theorem State.putPast_draws (s : State) (f : Fld) (v : Nat) : (s.putPast f v).draws = s.draws := rfl
@[simp] theorem State.putPast_boot (s : State) (f : Fld) (v : Nat) : (s.putPast f v).boot = s.boot := rfl
@[simp] theorem State.putPast_netError (s : State) (f : Fld) (v : Nat) : (s.putPast f v).netError = s.netError := rfl
@[simp] theorem State.putPast_wtu (s : State) (f : Fld) (v : Nat) : (s.putPast f v).wtu = s.wtu := rfl
@[simp] theorem State.putPast_cmp (s : State) (f : Fld) (v : Nat) : (s.putPast f v).cmp = s.cmp := rfl
@[simp] theorem State.putPast_rp (s : State) (f : Fld) (v : Nat) : (s.putPast f v).rp = s.rp := rfl
@[simp] theorem State.putPast_ts (s : State) (f : Fld) (v : Nat) : (s.putPast f v).ts = s.ts := rfl
@[simp] theorem State.putPast_nt (s : State) (f : Fld) (v : Nat) : (s.putPast f v).nt = s.nt := rfl
@[simp] theorem State.putPast_ftu (s : State) (f : Fld) (v : Nat) : (s.putPast f v).ftu = s.ftu := rfl
@[simp] theorem State.putPast_dgu (s : State) (f : Fld) (v : Nat) : (s.putPast f v).dgu = s.dgu := rfl
@[simp] theorem State.putPast_cin (s : State) (f : Fld) (v : Nat) : (s.putPast f v).cin = s.cin := rfl
@[simp] theorem State.putPast_ipl (s : State) (f : Fld) (v : Nat) : (s.putPast f v).ipl = s.ipl := rfl
@[simp] theorem State.putPast_rru (s : State) (f : Fld) (v : Nat) : (s.putPast f v).rru = s.rru := rfl
@[simp] theorem State.putPast_dfq (s : State) (f : Fld) (v : Nat) : (s.putPast f v).dfq = s.dfq := rfl
@[simp] theorem State.putPast_fab (s : State) (f : Fld) (v : Nat) : (s.putPast f v).fab = s.fab := rfl
@[simp] theorem State.putPast_eng (s : State) (f : Fld) (v : Nat) : (s.putPast f v).eng = s.eng := rfl
@[simp] theorem State.putPast_emem (s : State) (f : Fld) (v : Nat) : (s.putPast f v).emem = s.emem := rfl
@[simp] theorem State.putPast_evf (s : State) (f : Fld) (v : Nat) : (s.putPast f v).evf = s.evf := rfl
@[simp] theorem State.putPast_dma (s : State) (f : Fld) (v : Nat) : (s.putPast f v).dma = s.dma := rfl
@[simp] theorem State.putPast_mem (s : State) (f : Fld) (v : Nat) : (s.putPast f v).mem = s.mem := rfl
@[simp] theorem State.putPast_fvl (s : State) (f : Fld) (v : Nat) : (s.putPast f v).fvl = s.fvl := rfl
@[simp] theorem State.putPast_hif (s : State) (f : Fld) (v : Nat) : (s.putPast f v).hif = s.hif := rfl
@[simp] theorem State.putPast_net (s : State) (f : Fld) (v : Nat) : (s.putPast f v).net = s.net := rfl
@[simp] theorem State.putPast_twn (s : State) (f : Fld) (v : Nat) : (s.putPast f v).twn = s.twn := rfl
@[simp] theorem State.putPast_pmu (s : State) (f : Fld) (v : Nat) : (s.putPast f v).pmu = s.pmu := rfl
@[simp] theorem State.putPast_sec (s : State) (f : Fld) (v : Nat) : (s.putPast f v).sec = s.sec := rfl
@[simp] theorem State.putPast_cal (s : State) (f : Fld) (v : Nat) : (s.putPast f v).cal = s.cal := rfl
@[simp] theorem State.putPast_pending (s : State) (f : Fld) (v : Nat) : (s.putPast f v).pending = s.pending := rfl

/-! ### emit -/

@[simp] theorem State.emit_tempo (s : State) (o : Out) : (s.emit o).tempo = s.tempo := rfl
@[simp] theorem State.emit_regs (s : State) (o : Out) : (s.emit o).regs = s.regs := rfl
@[simp] theorem State.emit_past (s : State) (o : Out) : (s.emit o).past = s.past := rfl
@[simp] theorem State.emit_latch (s : State) (o : Out) : (s.emit o).latch = s.latch := rfl
@[simp] theorem State.emit_pendLow (s : State) (o : Out) : (s.emit o).pendLow = s.pendLow := rfl
@[simp] theorem State.emit_logs (s : State) (o : Out) : (s.emit o).logs = s.logs := rfl
@[simp] theorem State.emit_logLatch (s : State) (o : Out) : (s.emit o).logLatch = s.logLatch := rfl
@[simp] theorem State.emit_presented (s : State) (o : Out) : (s.emit o).presented = s.presented := rfl
@[simp] theorem State.emit_draws (s : State) (o : Out) : (s.emit o).draws = s.draws := rfl
@[simp] theorem State.emit_boot (s : State) (o : Out) : (s.emit o).boot = s.boot := rfl
@[simp] theorem State.emit_netError (s : State) (o : Out) : (s.emit o).netError = s.netError := rfl
@[simp] theorem State.emit_wtu (s : State) (o : Out) : (s.emit o).wtu = s.wtu := rfl
@[simp] theorem State.emit_cmp (s : State) (o : Out) : (s.emit o).cmp = s.cmp := rfl
@[simp] theorem State.emit_rp (s : State) (o : Out) : (s.emit o).rp = s.rp := rfl
@[simp] theorem State.emit_ts (s : State) (o : Out) : (s.emit o).ts = s.ts := rfl
@[simp] theorem State.emit_nt (s : State) (o : Out) : (s.emit o).nt = s.nt := rfl
@[simp] theorem State.emit_ftu (s : State) (o : Out) : (s.emit o).ftu = s.ftu := rfl
@[simp] theorem State.emit_dgu (s : State) (o : Out) : (s.emit o).dgu = s.dgu := rfl
@[simp] theorem State.emit_cin (s : State) (o : Out) : (s.emit o).cin = s.cin := rfl
@[simp] theorem State.emit_ipl (s : State) (o : Out) : (s.emit o).ipl = s.ipl := rfl
@[simp] theorem State.emit_rru (s : State) (o : Out) : (s.emit o).rru = s.rru := rfl
@[simp] theorem State.emit_dfq (s : State) (o : Out) : (s.emit o).dfq = s.dfq := rfl
@[simp] theorem State.emit_fab (s : State) (o : Out) : (s.emit o).fab = s.fab := rfl
@[simp] theorem State.emit_eng (s : State) (o : Out) : (s.emit o).eng = s.eng := rfl
@[simp] theorem State.emit_emem (s : State) (o : Out) : (s.emit o).emem = s.emem := rfl
@[simp] theorem State.emit_evf (s : State) (o : Out) : (s.emit o).evf = s.evf := rfl
@[simp] theorem State.emit_dma (s : State) (o : Out) : (s.emit o).dma = s.dma := rfl
@[simp] theorem State.emit_mem (s : State) (o : Out) : (s.emit o).mem = s.mem := rfl
@[simp] theorem State.emit_fvl (s : State) (o : Out) : (s.emit o).fvl = s.fvl := rfl
@[simp] theorem State.emit_hif (s : State) (o : Out) : (s.emit o).hif = s.hif := rfl
@[simp] theorem State.emit_net (s : State) (o : Out) : (s.emit o).net = s.net := rfl
@[simp] theorem State.emit_twn (s : State) (o : Out) : (s.emit o).twn = s.twn := rfl
@[simp] theorem State.emit_pmu (s : State) (o : Out) : (s.emit o).pmu = s.pmu := rfl
@[simp] theorem State.emit_sec (s : State) (o : Out) : (s.emit o).sec = s.sec := rfl
@[simp] theorem State.emit_cal (s : State) (o : Out) : (s.emit o).cal = s.cal := rfl
@[simp] theorem State.emit_pending (s : State) (o : Out) : (s.emit o).pending = s.pending := rfl

/-! ### putLow -/

@[simp] theorem State.putLow_tempo (s : State) (who : Requester) (off : Nat) (lo : Option Word) : (s.putLow who off lo).tempo = s.tempo := rfl
@[simp] theorem State.putLow_regs (s : State) (who : Requester) (off : Nat) (lo : Option Word) : (s.putLow who off lo).regs = s.regs := rfl
@[simp] theorem State.putLow_past (s : State) (who : Requester) (off : Nat) (lo : Option Word) : (s.putLow who off lo).past = s.past := rfl
@[simp] theorem State.putLow_latch (s : State) (who : Requester) (off : Nat) (lo : Option Word) : (s.putLow who off lo).latch = s.latch := rfl
@[simp] theorem State.putLow_logs (s : State) (who : Requester) (off : Nat) (lo : Option Word) : (s.putLow who off lo).logs = s.logs := rfl
@[simp] theorem State.putLow_logLatch (s : State) (who : Requester) (off : Nat) (lo : Option Word) : (s.putLow who off lo).logLatch = s.logLatch := rfl
@[simp] theorem State.putLow_presented (s : State) (who : Requester) (off : Nat) (lo : Option Word) : (s.putLow who off lo).presented = s.presented := rfl
@[simp] theorem State.putLow_out (s : State) (who : Requester) (off : Nat) (lo : Option Word) : (s.putLow who off lo).out = s.out := rfl
@[simp] theorem State.putLow_draws (s : State) (who : Requester) (off : Nat) (lo : Option Word) : (s.putLow who off lo).draws = s.draws := rfl
@[simp] theorem State.putLow_boot (s : State) (who : Requester) (off : Nat) (lo : Option Word) : (s.putLow who off lo).boot = s.boot := rfl
@[simp] theorem State.putLow_netError (s : State) (who : Requester) (off : Nat) (lo : Option Word) : (s.putLow who off lo).netError = s.netError := rfl
@[simp] theorem State.putLow_wtu (s : State) (who : Requester) (off : Nat) (lo : Option Word) : (s.putLow who off lo).wtu = s.wtu := rfl
@[simp] theorem State.putLow_cmp (s : State) (who : Requester) (off : Nat) (lo : Option Word) : (s.putLow who off lo).cmp = s.cmp := rfl
@[simp] theorem State.putLow_rp (s : State) (who : Requester) (off : Nat) (lo : Option Word) : (s.putLow who off lo).rp = s.rp := rfl
@[simp] theorem State.putLow_ts (s : State) (who : Requester) (off : Nat) (lo : Option Word) : (s.putLow who off lo).ts = s.ts := rfl
@[simp] theorem State.putLow_nt (s : State) (who : Requester) (off : Nat) (lo : Option Word) : (s.putLow who off lo).nt = s.nt := rfl
@[simp] theorem State.putLow_ftu (s : State) (who : Requester) (off : Nat) (lo : Option Word) : (s.putLow who off lo).ftu = s.ftu := rfl
@[simp] theorem State.putLow_dgu (s : State) (who : Requester) (off : Nat) (lo : Option Word) : (s.putLow who off lo).dgu = s.dgu := rfl
@[simp] theorem State.putLow_cin (s : State) (who : Requester) (off : Nat) (lo : Option Word) : (s.putLow who off lo).cin = s.cin := rfl
@[simp] theorem State.putLow_ipl (s : State) (who : Requester) (off : Nat) (lo : Option Word) : (s.putLow who off lo).ipl = s.ipl := rfl
@[simp] theorem State.putLow_rru (s : State) (who : Requester) (off : Nat) (lo : Option Word) : (s.putLow who off lo).rru = s.rru := rfl
@[simp] theorem State.putLow_dfq (s : State) (who : Requester) (off : Nat) (lo : Option Word) : (s.putLow who off lo).dfq = s.dfq := rfl
@[simp] theorem State.putLow_fab (s : State) (who : Requester) (off : Nat) (lo : Option Word) : (s.putLow who off lo).fab = s.fab := rfl
@[simp] theorem State.putLow_eng (s : State) (who : Requester) (off : Nat) (lo : Option Word) : (s.putLow who off lo).eng = s.eng := rfl
@[simp] theorem State.putLow_emem (s : State) (who : Requester) (off : Nat) (lo : Option Word) : (s.putLow who off lo).emem = s.emem := rfl
@[simp] theorem State.putLow_evf (s : State) (who : Requester) (off : Nat) (lo : Option Word) : (s.putLow who off lo).evf = s.evf := rfl
@[simp] theorem State.putLow_dma (s : State) (who : Requester) (off : Nat) (lo : Option Word) : (s.putLow who off lo).dma = s.dma := rfl
@[simp] theorem State.putLow_mem (s : State) (who : Requester) (off : Nat) (lo : Option Word) : (s.putLow who off lo).mem = s.mem := rfl
@[simp] theorem State.putLow_fvl (s : State) (who : Requester) (off : Nat) (lo : Option Word) : (s.putLow who off lo).fvl = s.fvl := rfl
@[simp] theorem State.putLow_hif (s : State) (who : Requester) (off : Nat) (lo : Option Word) : (s.putLow who off lo).hif = s.hif := rfl
@[simp] theorem State.putLow_net (s : State) (who : Requester) (off : Nat) (lo : Option Word) : (s.putLow who off lo).net = s.net := rfl
@[simp] theorem State.putLow_twn (s : State) (who : Requester) (off : Nat) (lo : Option Word) : (s.putLow who off lo).twn = s.twn := rfl
@[simp] theorem State.putLow_pmu (s : State) (who : Requester) (off : Nat) (lo : Option Word) : (s.putLow who off lo).pmu = s.pmu := rfl
@[simp] theorem State.putLow_sec (s : State) (who : Requester) (off : Nat) (lo : Option Word) : (s.putLow who off lo).sec = s.sec := rfl
@[simp] theorem State.putLow_cal (s : State) (who : Requester) (off : Nat) (lo : Option Word) : (s.putLow who off lo).cal = s.cal := rfl
@[simp] theorem State.putLow_pending (s : State) (who : Requester) (off : Nat) (lo : Option Word) : (s.putLow who off lo).pending = s.pending := rfl

/-! ### latchHigh -/

@[simp] theorem State.latchHigh_tempo (s : State) (who : Requester) (off hi : Nat) : (s.latchHigh who off hi).tempo = s.tempo := rfl
@[simp] theorem State.latchHigh_regs (s : State) (who : Requester) (off hi : Nat) : (s.latchHigh who off hi).regs = s.regs := rfl
@[simp] theorem State.latchHigh_past (s : State) (who : Requester) (off hi : Nat) : (s.latchHigh who off hi).past = s.past := rfl
@[simp] theorem State.latchHigh_pendLow (s : State) (who : Requester) (off hi : Nat) : (s.latchHigh who off hi).pendLow = s.pendLow := rfl
@[simp] theorem State.latchHigh_logs (s : State) (who : Requester) (off hi : Nat) : (s.latchHigh who off hi).logs = s.logs := rfl
@[simp] theorem State.latchHigh_logLatch (s : State) (who : Requester) (off hi : Nat) : (s.latchHigh who off hi).logLatch = s.logLatch := rfl
@[simp] theorem State.latchHigh_presented (s : State) (who : Requester) (off hi : Nat) : (s.latchHigh who off hi).presented = s.presented := rfl
@[simp] theorem State.latchHigh_out (s : State) (who : Requester) (off hi : Nat) : (s.latchHigh who off hi).out = s.out := rfl
@[simp] theorem State.latchHigh_draws (s : State) (who : Requester) (off hi : Nat) : (s.latchHigh who off hi).draws = s.draws := rfl
@[simp] theorem State.latchHigh_boot (s : State) (who : Requester) (off hi : Nat) : (s.latchHigh who off hi).boot = s.boot := rfl
@[simp] theorem State.latchHigh_netError (s : State) (who : Requester) (off hi : Nat) : (s.latchHigh who off hi).netError = s.netError := rfl
@[simp] theorem State.latchHigh_wtu (s : State) (who : Requester) (off hi : Nat) : (s.latchHigh who off hi).wtu = s.wtu := rfl
@[simp] theorem State.latchHigh_cmp (s : State) (who : Requester) (off hi : Nat) : (s.latchHigh who off hi).cmp = s.cmp := rfl
@[simp] theorem State.latchHigh_rp (s : State) (who : Requester) (off hi : Nat) : (s.latchHigh who off hi).rp = s.rp := rfl
@[simp] theorem State.latchHigh_ts (s : State) (who : Requester) (off hi : Nat) : (s.latchHigh who off hi).ts = s.ts := rfl
@[simp] theorem State.latchHigh_nt (s : State) (who : Requester) (off hi : Nat) : (s.latchHigh who off hi).nt = s.nt := rfl
@[simp] theorem State.latchHigh_ftu (s : State) (who : Requester) (off hi : Nat) : (s.latchHigh who off hi).ftu = s.ftu := rfl
@[simp] theorem State.latchHigh_dgu (s : State) (who : Requester) (off hi : Nat) : (s.latchHigh who off hi).dgu = s.dgu := rfl
@[simp] theorem State.latchHigh_cin (s : State) (who : Requester) (off hi : Nat) : (s.latchHigh who off hi).cin = s.cin := rfl
@[simp] theorem State.latchHigh_ipl (s : State) (who : Requester) (off hi : Nat) : (s.latchHigh who off hi).ipl = s.ipl := rfl
@[simp] theorem State.latchHigh_rru (s : State) (who : Requester) (off hi : Nat) : (s.latchHigh who off hi).rru = s.rru := rfl
@[simp] theorem State.latchHigh_dfq (s : State) (who : Requester) (off hi : Nat) : (s.latchHigh who off hi).dfq = s.dfq := rfl
@[simp] theorem State.latchHigh_fab (s : State) (who : Requester) (off hi : Nat) : (s.latchHigh who off hi).fab = s.fab := rfl
@[simp] theorem State.latchHigh_eng (s : State) (who : Requester) (off hi : Nat) : (s.latchHigh who off hi).eng = s.eng := rfl
@[simp] theorem State.latchHigh_emem (s : State) (who : Requester) (off hi : Nat) : (s.latchHigh who off hi).emem = s.emem := rfl
@[simp] theorem State.latchHigh_evf (s : State) (who : Requester) (off hi : Nat) : (s.latchHigh who off hi).evf = s.evf := rfl
@[simp] theorem State.latchHigh_dma (s : State) (who : Requester) (off hi : Nat) : (s.latchHigh who off hi).dma = s.dma := rfl
@[simp] theorem State.latchHigh_mem (s : State) (who : Requester) (off hi : Nat) : (s.latchHigh who off hi).mem = s.mem := rfl
@[simp] theorem State.latchHigh_fvl (s : State) (who : Requester) (off hi : Nat) : (s.latchHigh who off hi).fvl = s.fvl := rfl
@[simp] theorem State.latchHigh_hif (s : State) (who : Requester) (off hi : Nat) : (s.latchHigh who off hi).hif = s.hif := rfl
@[simp] theorem State.latchHigh_net (s : State) (who : Requester) (off hi : Nat) : (s.latchHigh who off hi).net = s.net := rfl
@[simp] theorem State.latchHigh_twn (s : State) (who : Requester) (off hi : Nat) : (s.latchHigh who off hi).twn = s.twn := rfl
@[simp] theorem State.latchHigh_pmu (s : State) (who : Requester) (off hi : Nat) : (s.latchHigh who off hi).pmu = s.pmu := rfl
@[simp] theorem State.latchHigh_sec (s : State) (who : Requester) (off hi : Nat) : (s.latchHigh who off hi).sec = s.sec := rfl
@[simp] theorem State.latchHigh_cal (s : State) (who : Requester) (off hi : Nat) : (s.latchHigh who off hi).cal = s.cal := rfl
@[simp] theorem State.latchHigh_pending (s : State) (who : Requester) (off hi : Nat) : (s.latchHigh who off hi).pending = s.pending := rfl

/-! ### setLaunchSlot -/

@[simp] theorem State.setLaunchSlot_tempo (s : State) (i : Nat) (e : Slot) : (s.setLaunchSlot i e).tempo = s.tempo := rfl
@[simp] theorem State.setLaunchSlot_regs (s : State) (i : Nat) (e : Slot) : (s.setLaunchSlot i e).regs = s.regs := rfl
@[simp] theorem State.setLaunchSlot_past (s : State) (i : Nat) (e : Slot) : (s.setLaunchSlot i e).past = s.past := rfl
@[simp] theorem State.setLaunchSlot_latch (s : State) (i : Nat) (e : Slot) : (s.setLaunchSlot i e).latch = s.latch := rfl
@[simp] theorem State.setLaunchSlot_pendLow (s : State) (i : Nat) (e : Slot) : (s.setLaunchSlot i e).pendLow = s.pendLow := rfl
@[simp] theorem State.setLaunchSlot_logs (s : State) (i : Nat) (e : Slot) : (s.setLaunchSlot i e).logs = s.logs := rfl
@[simp] theorem State.setLaunchSlot_logLatch (s : State) (i : Nat) (e : Slot) : (s.setLaunchSlot i e).logLatch = s.logLatch := rfl
@[simp] theorem State.setLaunchSlot_presented (s : State) (i : Nat) (e : Slot) : (s.setLaunchSlot i e).presented = s.presented := rfl
@[simp] theorem State.setLaunchSlot_out (s : State) (i : Nat) (e : Slot) : (s.setLaunchSlot i e).out = s.out := rfl
@[simp] theorem State.setLaunchSlot_draws (s : State) (i : Nat) (e : Slot) : (s.setLaunchSlot i e).draws = s.draws := rfl
@[simp] theorem State.setLaunchSlot_boot (s : State) (i : Nat) (e : Slot) : (s.setLaunchSlot i e).boot = s.boot := rfl
@[simp] theorem State.setLaunchSlot_netError (s : State) (i : Nat) (e : Slot) : (s.setLaunchSlot i e).netError = s.netError := rfl
@[simp] theorem State.setLaunchSlot_cmp (s : State) (i : Nat) (e : Slot) : (s.setLaunchSlot i e).cmp = s.cmp := rfl
@[simp] theorem State.setLaunchSlot_rp (s : State) (i : Nat) (e : Slot) : (s.setLaunchSlot i e).rp = s.rp := rfl
@[simp] theorem State.setLaunchSlot_ts (s : State) (i : Nat) (e : Slot) : (s.setLaunchSlot i e).ts = s.ts := rfl
@[simp] theorem State.setLaunchSlot_nt (s : State) (i : Nat) (e : Slot) : (s.setLaunchSlot i e).nt = s.nt := rfl
@[simp] theorem State.setLaunchSlot_ftu (s : State) (i : Nat) (e : Slot) : (s.setLaunchSlot i e).ftu = s.ftu := rfl
@[simp] theorem State.setLaunchSlot_dgu (s : State) (i : Nat) (e : Slot) : (s.setLaunchSlot i e).dgu = s.dgu := rfl
@[simp] theorem State.setLaunchSlot_cin (s : State) (i : Nat) (e : Slot) : (s.setLaunchSlot i e).cin = s.cin := rfl
@[simp] theorem State.setLaunchSlot_ipl (s : State) (i : Nat) (e : Slot) : (s.setLaunchSlot i e).ipl = s.ipl := rfl
@[simp] theorem State.setLaunchSlot_rru (s : State) (i : Nat) (e : Slot) : (s.setLaunchSlot i e).rru = s.rru := rfl
@[simp] theorem State.setLaunchSlot_dfq (s : State) (i : Nat) (e : Slot) : (s.setLaunchSlot i e).dfq = s.dfq := rfl
@[simp] theorem State.setLaunchSlot_fab (s : State) (i : Nat) (e : Slot) : (s.setLaunchSlot i e).fab = s.fab := rfl
@[simp] theorem State.setLaunchSlot_eng (s : State) (i : Nat) (e : Slot) : (s.setLaunchSlot i e).eng = s.eng := rfl
@[simp] theorem State.setLaunchSlot_emem (s : State) (i : Nat) (e : Slot) : (s.setLaunchSlot i e).emem = s.emem := rfl
@[simp] theorem State.setLaunchSlot_evf (s : State) (i : Nat) (e : Slot) : (s.setLaunchSlot i e).evf = s.evf := rfl
@[simp] theorem State.setLaunchSlot_dma (s : State) (i : Nat) (e : Slot) : (s.setLaunchSlot i e).dma = s.dma := rfl
@[simp] theorem State.setLaunchSlot_mem (s : State) (i : Nat) (e : Slot) : (s.setLaunchSlot i e).mem = s.mem := rfl
@[simp] theorem State.setLaunchSlot_fvl (s : State) (i : Nat) (e : Slot) : (s.setLaunchSlot i e).fvl = s.fvl := rfl
@[simp] theorem State.setLaunchSlot_hif (s : State) (i : Nat) (e : Slot) : (s.setLaunchSlot i e).hif = s.hif := rfl
@[simp] theorem State.setLaunchSlot_net (s : State) (i : Nat) (e : Slot) : (s.setLaunchSlot i e).net = s.net := rfl
@[simp] theorem State.setLaunchSlot_twn (s : State) (i : Nat) (e : Slot) : (s.setLaunchSlot i e).twn = s.twn := rfl
@[simp] theorem State.setLaunchSlot_pmu (s : State) (i : Nat) (e : Slot) : (s.setLaunchSlot i e).pmu = s.pmu := rfl
@[simp] theorem State.setLaunchSlot_sec (s : State) (i : Nat) (e : Slot) : (s.setLaunchSlot i e).sec = s.sec := rfl
@[simp] theorem State.setLaunchSlot_cal (s : State) (i : Nat) (e : Slot) : (s.setLaunchSlot i e).cal = s.cal := rfl
@[simp] theorem State.setLaunchSlot_pending (s : State) (i : Nat) (e : Slot) : (s.setLaunchSlot i e).pending = s.pending := rfl

/-! ### setDec -/

@[simp] theorem State.setDec_tempo (s : State) (n : Nat) (d : Decoder) : (s.setDec n d).tempo = s.tempo := rfl
@[simp] theorem State.setDec_regs (s : State) (n : Nat) (d : Decoder) : (s.setDec n d).regs = s.regs := rfl
@[simp] theorem State.setDec_past (s : State) (n : Nat) (d : Decoder) : (s.setDec n d).past = s.past := rfl
@[simp] theorem State.setDec_latch (s : State) (n : Nat) (d : Decoder) : (s.setDec n d).latch = s.latch := rfl
@[simp] theorem State.setDec_pendLow (s : State) (n : Nat) (d : Decoder) : (s.setDec n d).pendLow = s.pendLow := rfl
@[simp] theorem State.setDec_logs (s : State) (n : Nat) (d : Decoder) : (s.setDec n d).logs = s.logs := rfl
@[simp] theorem State.setDec_logLatch (s : State) (n : Nat) (d : Decoder) : (s.setDec n d).logLatch = s.logLatch := rfl
@[simp] theorem State.setDec_presented (s : State) (n : Nat) (d : Decoder) : (s.setDec n d).presented = s.presented := rfl
@[simp] theorem State.setDec_out (s : State) (n : Nat) (d : Decoder) : (s.setDec n d).out = s.out := rfl
@[simp] theorem State.setDec_draws (s : State) (n : Nat) (d : Decoder) : (s.setDec n d).draws = s.draws := rfl
@[simp] theorem State.setDec_boot (s : State) (n : Nat) (d : Decoder) : (s.setDec n d).boot = s.boot := rfl
@[simp] theorem State.setDec_netError (s : State) (n : Nat) (d : Decoder) : (s.setDec n d).netError = s.netError := rfl
@[simp] theorem State.setDec_cmp (s : State) (n : Nat) (d : Decoder) : (s.setDec n d).cmp = s.cmp := rfl
@[simp] theorem State.setDec_rp (s : State) (n : Nat) (d : Decoder) : (s.setDec n d).rp = s.rp := rfl
@[simp] theorem State.setDec_ts (s : State) (n : Nat) (d : Decoder) : (s.setDec n d).ts = s.ts := rfl
@[simp] theorem State.setDec_nt (s : State) (n : Nat) (d : Decoder) : (s.setDec n d).nt = s.nt := rfl
@[simp] theorem State.setDec_ftu (s : State) (n : Nat) (d : Decoder) : (s.setDec n d).ftu = s.ftu := rfl
@[simp] theorem State.setDec_dgu (s : State) (n : Nat) (d : Decoder) : (s.setDec n d).dgu = s.dgu := rfl
@[simp] theorem State.setDec_cin (s : State) (n : Nat) (d : Decoder) : (s.setDec n d).cin = s.cin := rfl
@[simp] theorem State.setDec_ipl (s : State) (n : Nat) (d : Decoder) : (s.setDec n d).ipl = s.ipl := rfl
@[simp] theorem State.setDec_rru (s : State) (n : Nat) (d : Decoder) : (s.setDec n d).rru = s.rru := rfl
@[simp] theorem State.setDec_dfq (s : State) (n : Nat) (d : Decoder) : (s.setDec n d).dfq = s.dfq := rfl
@[simp] theorem State.setDec_fab (s : State) (n : Nat) (d : Decoder) : (s.setDec n d).fab = s.fab := rfl
@[simp] theorem State.setDec_eng (s : State) (n : Nat) (d : Decoder) : (s.setDec n d).eng = s.eng := rfl
@[simp] theorem State.setDec_emem (s : State) (n : Nat) (d : Decoder) : (s.setDec n d).emem = s.emem := rfl
@[simp] theorem State.setDec_evf (s : State) (n : Nat) (d : Decoder) : (s.setDec n d).evf = s.evf := rfl
@[simp] theorem State.setDec_dma (s : State) (n : Nat) (d : Decoder) : (s.setDec n d).dma = s.dma := rfl
@[simp] theorem State.setDec_mem (s : State) (n : Nat) (d : Decoder) : (s.setDec n d).mem = s.mem := rfl
@[simp] theorem State.setDec_fvl (s : State) (n : Nat) (d : Decoder) : (s.setDec n d).fvl = s.fvl := rfl
@[simp] theorem State.setDec_hif (s : State) (n : Nat) (d : Decoder) : (s.setDec n d).hif = s.hif := rfl
@[simp] theorem State.setDec_net (s : State) (n : Nat) (d : Decoder) : (s.setDec n d).net = s.net := rfl
@[simp] theorem State.setDec_twn (s : State) (n : Nat) (d : Decoder) : (s.setDec n d).twn = s.twn := rfl
@[simp] theorem State.setDec_pmu (s : State) (n : Nat) (d : Decoder) : (s.setDec n d).pmu = s.pmu := rfl
@[simp] theorem State.setDec_sec (s : State) (n : Nat) (d : Decoder) : (s.setDec n d).sec = s.sec := rfl
@[simp] theorem State.setDec_cal (s : State) (n : Nat) (d : Decoder) : (s.setDec n d).cal = s.cal := rfl
@[simp] theorem State.setDec_pending (s : State) (n : Nat) (d : Decoder) : (s.setDec n d).pending = s.pending := rfl

/-! ### setGen -/

@[simp] theorem State.setGen_tempo (s : State) (g : Nat) (l : LineGen) : (s.setGen g l).tempo = s.tempo := rfl
@[simp] theorem State.setGen_regs (s : State) (g : Nat) (l : LineGen) : (s.setGen g l).regs = s.regs := rfl
@[simp] theorem State.setGen_past (s : State) (g : Nat) (l : LineGen) : (s.setGen g l).past = s.past := rfl
@[simp] theorem State.setGen_latch (s : State) (g : Nat) (l : LineGen) : (s.setGen g l).latch = s.latch := rfl
@[simp] theorem State.setGen_pendLow (s : State) (g : Nat) (l : LineGen) : (s.setGen g l).pendLow = s.pendLow := rfl
@[simp] theorem State.setGen_logs (s : State) (g : Nat) (l : LineGen) : (s.setGen g l).logs = s.logs := rfl
@[simp] theorem State.setGen_logLatch (s : State) (g : Nat) (l : LineGen) : (s.setGen g l).logLatch = s.logLatch := rfl
@[simp] theorem State.setGen_presented (s : State) (g : Nat) (l : LineGen) : (s.setGen g l).presented = s.presented := rfl
@[simp] theorem State.setGen_out (s : State) (g : Nat) (l : LineGen) : (s.setGen g l).out = s.out := rfl
@[simp] theorem State.setGen_draws (s : State) (g : Nat) (l : LineGen) : (s.setGen g l).draws = s.draws := rfl
@[simp] theorem State.setGen_boot (s : State) (g : Nat) (l : LineGen) : (s.setGen g l).boot = s.boot := rfl
@[simp] theorem State.setGen_netError (s : State) (g : Nat) (l : LineGen) : (s.setGen g l).netError = s.netError := rfl
@[simp] theorem State.setGen_cmp (s : State) (g : Nat) (l : LineGen) : (s.setGen g l).cmp = s.cmp := rfl
@[simp] theorem State.setGen_rp (s : State) (g : Nat) (l : LineGen) : (s.setGen g l).rp = s.rp := rfl
@[simp] theorem State.setGen_ts (s : State) (g : Nat) (l : LineGen) : (s.setGen g l).ts = s.ts := rfl
@[simp] theorem State.setGen_nt (s : State) (g : Nat) (l : LineGen) : (s.setGen g l).nt = s.nt := rfl
@[simp] theorem State.setGen_ftu (s : State) (g : Nat) (l : LineGen) : (s.setGen g l).ftu = s.ftu := rfl
@[simp] theorem State.setGen_dgu (s : State) (g : Nat) (l : LineGen) : (s.setGen g l).dgu = s.dgu := rfl
@[simp] theorem State.setGen_cin (s : State) (g : Nat) (l : LineGen) : (s.setGen g l).cin = s.cin := rfl
@[simp] theorem State.setGen_ipl (s : State) (g : Nat) (l : LineGen) : (s.setGen g l).ipl = s.ipl := rfl
@[simp] theorem State.setGen_rru (s : State) (g : Nat) (l : LineGen) : (s.setGen g l).rru = s.rru := rfl
@[simp] theorem State.setGen_dfq (s : State) (g : Nat) (l : LineGen) : (s.setGen g l).dfq = s.dfq := rfl
@[simp] theorem State.setGen_fab (s : State) (g : Nat) (l : LineGen) : (s.setGen g l).fab = s.fab := rfl
@[simp] theorem State.setGen_eng (s : State) (g : Nat) (l : LineGen) : (s.setGen g l).eng = s.eng := rfl
@[simp] theorem State.setGen_emem (s : State) (g : Nat) (l : LineGen) : (s.setGen g l).emem = s.emem := rfl
@[simp] theorem State.setGen_evf (s : State) (g : Nat) (l : LineGen) : (s.setGen g l).evf = s.evf := rfl
@[simp] theorem State.setGen_dma (s : State) (g : Nat) (l : LineGen) : (s.setGen g l).dma = s.dma := rfl
@[simp] theorem State.setGen_mem (s : State) (g : Nat) (l : LineGen) : (s.setGen g l).mem = s.mem := rfl
@[simp] theorem State.setGen_fvl (s : State) (g : Nat) (l : LineGen) : (s.setGen g l).fvl = s.fvl := rfl
@[simp] theorem State.setGen_hif (s : State) (g : Nat) (l : LineGen) : (s.setGen g l).hif = s.hif := rfl
@[simp] theorem State.setGen_net (s : State) (g : Nat) (l : LineGen) : (s.setGen g l).net = s.net := rfl
@[simp] theorem State.setGen_twn (s : State) (g : Nat) (l : LineGen) : (s.setGen g l).twn = s.twn := rfl
@[simp] theorem State.setGen_pmu (s : State) (g : Nat) (l : LineGen) : (s.setGen g l).pmu = s.pmu := rfl
@[simp] theorem State.setGen_sec (s : State) (g : Nat) (l : LineGen) : (s.setGen g l).sec = s.sec := rfl
@[simp] theorem State.setGen_cal (s : State) (g : Nat) (l : LineGen) : (s.setGen g l).cal = s.cal := rfl
@[simp] theorem State.setGen_pending (s : State) (g : Nat) (l : LineGen) : (s.setGen g l).pending = s.pending := rfl

/-! ### setPipe -/

@[simp] theorem State.setPipe_tempo (s : State) (n : Nat) (p : Pipe) : (s.setPipe n p).tempo = s.tempo := rfl
@[simp] theorem State.setPipe_regs (s : State) (n : Nat) (p : Pipe) : (s.setPipe n p).regs = s.regs := rfl
@[simp] theorem State.setPipe_past (s : State) (n : Nat) (p : Pipe) : (s.setPipe n p).past = s.past := rfl
@[simp] theorem State.setPipe_latch (s : State) (n : Nat) (p : Pipe) : (s.setPipe n p).latch = s.latch := rfl
@[simp] theorem State.setPipe_pendLow (s : State) (n : Nat) (p : Pipe) : (s.setPipe n p).pendLow = s.pendLow := rfl
@[simp] theorem State.setPipe_logs (s : State) (n : Nat) (p : Pipe) : (s.setPipe n p).logs = s.logs := rfl
@[simp] theorem State.setPipe_logLatch (s : State) (n : Nat) (p : Pipe) : (s.setPipe n p).logLatch = s.logLatch := rfl
@[simp] theorem State.setPipe_presented (s : State) (n : Nat) (p : Pipe) : (s.setPipe n p).presented = s.presented := rfl
@[simp] theorem State.setPipe_out (s : State) (n : Nat) (p : Pipe) : (s.setPipe n p).out = s.out := rfl
@[simp] theorem State.setPipe_draws (s : State) (n : Nat) (p : Pipe) : (s.setPipe n p).draws = s.draws := rfl
@[simp] theorem State.setPipe_boot (s : State) (n : Nat) (p : Pipe) : (s.setPipe n p).boot = s.boot := rfl
@[simp] theorem State.setPipe_netError (s : State) (n : Nat) (p : Pipe) : (s.setPipe n p).netError = s.netError := rfl
@[simp] theorem State.setPipe_wtu (s : State) (n : Nat) (p : Pipe) : (s.setPipe n p).wtu = s.wtu := rfl
@[simp] theorem State.setPipe_cmp (s : State) (n : Nat) (p : Pipe) : (s.setPipe n p).cmp = s.cmp := rfl
@[simp] theorem State.setPipe_ts (s : State) (n : Nat) (p : Pipe) : (s.setPipe n p).ts = s.ts := rfl
@[simp] theorem State.setPipe_nt (s : State) (n : Nat) (p : Pipe) : (s.setPipe n p).nt = s.nt := rfl
@[simp] theorem State.setPipe_ftu (s : State) (n : Nat) (p : Pipe) : (s.setPipe n p).ftu = s.ftu := rfl
@[simp] theorem State.setPipe_dgu (s : State) (n : Nat) (p : Pipe) : (s.setPipe n p).dgu = s.dgu := rfl
@[simp] theorem State.setPipe_cin (s : State) (n : Nat) (p : Pipe) : (s.setPipe n p).cin = s.cin := rfl
@[simp] theorem State.setPipe_ipl (s : State) (n : Nat) (p : Pipe) : (s.setPipe n p).ipl = s.ipl := rfl
@[simp] theorem State.setPipe_rru (s : State) (n : Nat) (p : Pipe) : (s.setPipe n p).rru = s.rru := rfl
@[simp] theorem State.setPipe_dfq (s : State) (n : Nat) (p : Pipe) : (s.setPipe n p).dfq = s.dfq := rfl
@[simp] theorem State.setPipe_fab (s : State) (n : Nat) (p : Pipe) : (s.setPipe n p).fab = s.fab := rfl
@[simp] theorem State.setPipe_eng (s : State) (n : Nat) (p : Pipe) : (s.setPipe n p).eng = s.eng := rfl
@[simp] theorem State.setPipe_emem (s : State) (n : Nat) (p : Pipe) : (s.setPipe n p).emem = s.emem := rfl
@[simp] theorem State.setPipe_evf (s : State) (n : Nat) (p : Pipe) : (s.setPipe n p).evf = s.evf := rfl
@[simp] theorem State.setPipe_dma (s : State) (n : Nat) (p : Pipe) : (s.setPipe n p).dma = s.dma := rfl
@[simp] theorem State.setPipe_mem (s : State) (n : Nat) (p : Pipe) : (s.setPipe n p).mem = s.mem := rfl
@[simp] theorem State.setPipe_fvl (s : State) (n : Nat) (p : Pipe) : (s.setPipe n p).fvl = s.fvl := rfl
@[simp] theorem State.setPipe_hif (s : State) (n : Nat) (p : Pipe) : (s.setPipe n p).hif = s.hif := rfl
@[simp] theorem State.setPipe_net (s : State) (n : Nat) (p : Pipe) : (s.setPipe n p).net = s.net := rfl
@[simp] theorem State.setPipe_twn (s : State) (n : Nat) (p : Pipe) : (s.setPipe n p).twn = s.twn := rfl
@[simp] theorem State.setPipe_pmu (s : State) (n : Nat) (p : Pipe) : (s.setPipe n p).pmu = s.pmu := rfl
@[simp] theorem State.setPipe_sec (s : State) (n : Nat) (p : Pipe) : (s.setPipe n p).sec = s.sec := rfl
@[simp] theorem State.setPipe_cal (s : State) (n : Nat) (p : Pipe) : (s.setPipe n p).cal = s.cal := rfl
@[simp] theorem State.setPipe_pending (s : State) (n : Nat) (p : Pipe) : (s.setPipe n p).pending = s.pending := rfl

/-! ### setNtCell -/

@[simp] theorem State.setNtCell_tempo (s : State) (i : Nat) (c : Cell) : (s.setNtCell i c).tempo = s.tempo := rfl
@[simp] theorem State.setNtCell_regs (s : State) (i : Nat) (c : Cell) : (s.setNtCell i c).regs = s.regs := rfl
@[simp] theorem State.setNtCell_past (s : State) (i : Nat) (c : Cell) : (s.setNtCell i c).past = s.past := rfl
@[simp] theorem State.setNtCell_latch (s : State) (i : Nat) (c : Cell) : (s.setNtCell i c).latch = s.latch := rfl
@[simp] theorem State.setNtCell_pendLow (s : State) (i : Nat) (c : Cell) : (s.setNtCell i c).pendLow = s.pendLow := rfl
@[simp] theorem State.setNtCell_logs (s : State) (i : Nat) (c : Cell) : (s.setNtCell i c).logs = s.logs := rfl
@[simp] theorem State.setNtCell_logLatch (s : State) (i : Nat) (c : Cell) : (s.setNtCell i c).logLatch = s.logLatch := rfl
@[simp] theorem State.setNtCell_presented (s : State) (i : Nat) (c : Cell) : (s.setNtCell i c).presented = s.presented := rfl
@[simp] theorem State.setNtCell_out (s : State) (i : Nat) (c : Cell) : (s.setNtCell i c).out = s.out := rfl
@[simp] theorem State.setNtCell_draws (s : State) (i : Nat) (c : Cell) : (s.setNtCell i c).draws = s.draws := rfl
@[simp] theorem State.setNtCell_boot (s : State) (i : Nat) (c : Cell) : (s.setNtCell i c).boot = s.boot := rfl
@[simp] theorem State.setNtCell_netError (s : State) (i : Nat) (c : Cell) : (s.setNtCell i c).netError = s.netError := rfl
@[simp] theorem State.setNtCell_wtu (s : State) (i : Nat) (c : Cell) : (s.setNtCell i c).wtu = s.wtu := rfl
@[simp] theorem State.setNtCell_cmp (s : State) (i : Nat) (c : Cell) : (s.setNtCell i c).cmp = s.cmp := rfl
@[simp] theorem State.setNtCell_rp (s : State) (i : Nat) (c : Cell) : (s.setNtCell i c).rp = s.rp := rfl
@[simp] theorem State.setNtCell_ts (s : State) (i : Nat) (c : Cell) : (s.setNtCell i c).ts = s.ts := rfl
@[simp] theorem State.setNtCell_ftu (s : State) (i : Nat) (c : Cell) : (s.setNtCell i c).ftu = s.ftu := rfl
@[simp] theorem State.setNtCell_dgu (s : State) (i : Nat) (c : Cell) : (s.setNtCell i c).dgu = s.dgu := rfl
@[simp] theorem State.setNtCell_cin (s : State) (i : Nat) (c : Cell) : (s.setNtCell i c).cin = s.cin := rfl
@[simp] theorem State.setNtCell_ipl (s : State) (i : Nat) (c : Cell) : (s.setNtCell i c).ipl = s.ipl := rfl
@[simp] theorem State.setNtCell_rru (s : State) (i : Nat) (c : Cell) : (s.setNtCell i c).rru = s.rru := rfl
@[simp] theorem State.setNtCell_dfq (s : State) (i : Nat) (c : Cell) : (s.setNtCell i c).dfq = s.dfq := rfl
@[simp] theorem State.setNtCell_fab (s : State) (i : Nat) (c : Cell) : (s.setNtCell i c).fab = s.fab := rfl
@[simp] theorem State.setNtCell_eng (s : State) (i : Nat) (c : Cell) : (s.setNtCell i c).eng = s.eng := rfl
@[simp] theorem State.setNtCell_emem (s : State) (i : Nat) (c : Cell) : (s.setNtCell i c).emem = s.emem := rfl
@[simp] theorem State.setNtCell_evf (s : State) (i : Nat) (c : Cell) : (s.setNtCell i c).evf = s.evf := rfl
@[simp] theorem State.setNtCell_dma (s : State) (i : Nat) (c : Cell) : (s.setNtCell i c).dma = s.dma := rfl
@[simp] theorem State.setNtCell_mem (s : State) (i : Nat) (c : Cell) : (s.setNtCell i c).mem = s.mem := rfl
@[simp] theorem State.setNtCell_fvl (s : State) (i : Nat) (c : Cell) : (s.setNtCell i c).fvl = s.fvl := rfl
@[simp] theorem State.setNtCell_hif (s : State) (i : Nat) (c : Cell) : (s.setNtCell i c).hif = s.hif := rfl
@[simp] theorem State.setNtCell_net (s : State) (i : Nat) (c : Cell) : (s.setNtCell i c).net = s.net := rfl
@[simp] theorem State.setNtCell_twn (s : State) (i : Nat) (c : Cell) : (s.setNtCell i c).twn = s.twn := rfl
@[simp] theorem State.setNtCell_pmu (s : State) (i : Nat) (c : Cell) : (s.setNtCell i c).pmu = s.pmu := rfl
@[simp] theorem State.setNtCell_sec (s : State) (i : Nat) (c : Cell) : (s.setNtCell i c).sec = s.sec := rfl
@[simp] theorem State.setNtCell_cal (s : State) (i : Nat) (c : Cell) : (s.setNtCell i c).cal = s.cal := rfl
@[simp] theorem State.setNtCell_pending (s : State) (i : Nat) (c : Cell) : (s.setNtCell i c).pending = s.pending := rfl

/-! ### ntSubmit -/

@[simp] theorem State.ntSubmit_tempo (s : State) (i : Nat) (op : NtOp) : (s.ntSubmit i op).tempo = s.tempo := rfl
@[simp] theorem State.ntSubmit_regs (s : State) (i : Nat) (op : NtOp) : (s.ntSubmit i op).regs = s.regs := rfl
@[simp] theorem State.ntSubmit_past (s : State) (i : Nat) (op : NtOp) : (s.ntSubmit i op).past = s.past := rfl
@[simp] theorem State.ntSubmit_latch (s : State) (i : Nat) (op : NtOp) : (s.ntSubmit i op).latch = s.latch := rfl
@[simp] theorem State.ntSubmit_pendLow (s : State) (i : Nat) (op : NtOp) : (s.ntSubmit i op).pendLow = s.pendLow := rfl
@[simp] theorem State.ntSubmit_logs (s : State) (i : Nat) (op : NtOp) : (s.ntSubmit i op).logs = s.logs := rfl
@[simp] theorem State.ntSubmit_logLatch (s : State) (i : Nat) (op : NtOp) : (s.ntSubmit i op).logLatch = s.logLatch := rfl
@[simp] theorem State.ntSubmit_presented (s : State) (i : Nat) (op : NtOp) : (s.ntSubmit i op).presented = s.presented := rfl
@[simp] theorem State.ntSubmit_out (s : State) (i : Nat) (op : NtOp) : (s.ntSubmit i op).out = s.out := rfl
@[simp] theorem State.ntSubmit_draws (s : State) (i : Nat) (op : NtOp) : (s.ntSubmit i op).draws = s.draws := rfl
@[simp] theorem State.ntSubmit_boot (s : State) (i : Nat) (op : NtOp) : (s.ntSubmit i op).boot = s.boot := rfl
@[simp] theorem State.ntSubmit_netError (s : State) (i : Nat) (op : NtOp) : (s.ntSubmit i op).netError = s.netError := rfl
@[simp] theorem State.ntSubmit_wtu (s : State) (i : Nat) (op : NtOp) : (s.ntSubmit i op).wtu = s.wtu := rfl
@[simp] theorem State.ntSubmit_cmp (s : State) (i : Nat) (op : NtOp) : (s.ntSubmit i op).cmp = s.cmp := rfl
@[simp] theorem State.ntSubmit_rp (s : State) (i : Nat) (op : NtOp) : (s.ntSubmit i op).rp = s.rp := rfl
@[simp] theorem State.ntSubmit_ts (s : State) (i : Nat) (op : NtOp) : (s.ntSubmit i op).ts = s.ts := rfl
@[simp] theorem State.ntSubmit_ftu (s : State) (i : Nat) (op : NtOp) : (s.ntSubmit i op).ftu = s.ftu := rfl
@[simp] theorem State.ntSubmit_dgu (s : State) (i : Nat) (op : NtOp) : (s.ntSubmit i op).dgu = s.dgu := rfl
@[simp] theorem State.ntSubmit_cin (s : State) (i : Nat) (op : NtOp) : (s.ntSubmit i op).cin = s.cin := rfl
@[simp] theorem State.ntSubmit_ipl (s : State) (i : Nat) (op : NtOp) : (s.ntSubmit i op).ipl = s.ipl := rfl
@[simp] theorem State.ntSubmit_rru (s : State) (i : Nat) (op : NtOp) : (s.ntSubmit i op).rru = s.rru := rfl
@[simp] theorem State.ntSubmit_dfq (s : State) (i : Nat) (op : NtOp) : (s.ntSubmit i op).dfq = s.dfq := rfl
@[simp] theorem State.ntSubmit_fab (s : State) (i : Nat) (op : NtOp) : (s.ntSubmit i op).fab = s.fab := rfl
@[simp] theorem State.ntSubmit_eng (s : State) (i : Nat) (op : NtOp) : (s.ntSubmit i op).eng = s.eng := rfl
@[simp] theorem State.ntSubmit_emem (s : State) (i : Nat) (op : NtOp) : (s.ntSubmit i op).emem = s.emem := rfl
@[simp] theorem State.ntSubmit_evf (s : State) (i : Nat) (op : NtOp) : (s.ntSubmit i op).evf = s.evf := rfl
@[simp] theorem State.ntSubmit_dma (s : State) (i : Nat) (op : NtOp) : (s.ntSubmit i op).dma = s.dma := rfl
@[simp] theorem State.ntSubmit_mem (s : State) (i : Nat) (op : NtOp) : (s.ntSubmit i op).mem = s.mem := rfl
@[simp] theorem State.ntSubmit_fvl (s : State) (i : Nat) (op : NtOp) : (s.ntSubmit i op).fvl = s.fvl := rfl
@[simp] theorem State.ntSubmit_hif (s : State) (i : Nat) (op : NtOp) : (s.ntSubmit i op).hif = s.hif := rfl
@[simp] theorem State.ntSubmit_net (s : State) (i : Nat) (op : NtOp) : (s.ntSubmit i op).net = s.net := rfl
@[simp] theorem State.ntSubmit_twn (s : State) (i : Nat) (op : NtOp) : (s.ntSubmit i op).twn = s.twn := rfl
@[simp] theorem State.ntSubmit_pmu (s : State) (i : Nat) (op : NtOp) : (s.ntSubmit i op).pmu = s.pmu := rfl
@[simp] theorem State.ntSubmit_sec (s : State) (i : Nat) (op : NtOp) : (s.ntSubmit i op).sec = s.sec := rfl
@[simp] theorem State.ntSubmit_cal (s : State) (i : Nat) (op : NtOp) : (s.ntSubmit i op).cal = s.cal := rfl
@[simp] theorem State.ntSubmit_pending (s : State) (i : Nat) (op : NtOp) : (s.ntSubmit i op).pending = s.pending := rfl

/-! ### setHead -/

@[simp] theorem State.setHead_tempo (s : State) (x : Nat) (h : Head) : (s.setHead x h).tempo = s.tempo := rfl
@[simp] theorem State.setHead_regs (s : State) (x : Nat) (h : Head) : (s.setHead x h).regs = s.regs := rfl
@[simp] theorem State.setHead_past (s : State) (x : Nat) (h : Head) : (s.setHead x h).past = s.past := rfl
@[simp] theorem State.setHead_latch (s : State) (x : Nat) (h : Head) : (s.setHead x h).latch = s.latch := rfl
@[simp] theorem State.setHead_pendLow (s : State) (x : Nat) (h : Head) : (s.setHead x h).pendLow = s.pendLow := rfl
@[simp] theorem State.setHead_logs (s : State) (x : Nat) (h : Head) : (s.setHead x h).logs = s.logs := rfl
@[simp] theorem State.setHead_logLatch (s : State) (x : Nat) (h : Head) : (s.setHead x h).logLatch = s.logLatch := rfl
@[simp] theorem State.setHead_presented (s : State) (x : Nat) (h : Head) : (s.setHead x h).presented = s.presented := rfl
@[simp] theorem State.setHead_out (s : State) (x : Nat) (h : Head) : (s.setHead x h).out = s.out := rfl
@[simp] theorem State.setHead_draws (s : State) (x : Nat) (h : Head) : (s.setHead x h).draws = s.draws := rfl
@[simp] theorem State.setHead_boot (s : State) (x : Nat) (h : Head) : (s.setHead x h).boot = s.boot := rfl
@[simp] theorem State.setHead_netError (s : State) (x : Nat) (h : Head) : (s.setHead x h).netError = s.netError := rfl
@[simp] theorem State.setHead_wtu (s : State) (x : Nat) (h : Head) : (s.setHead x h).wtu = s.wtu := rfl
@[simp] theorem State.setHead_cmp (s : State) (x : Nat) (h : Head) : (s.setHead x h).cmp = s.cmp := rfl
@[simp] theorem State.setHead_rp (s : State) (x : Nat) (h : Head) : (s.setHead x h).rp = s.rp := rfl
@[simp] theorem State.setHead_ts (s : State) (x : Nat) (h : Head) : (s.setHead x h).ts = s.ts := rfl
@[simp] theorem State.setHead_nt (s : State) (x : Nat) (h : Head) : (s.setHead x h).nt = s.nt := rfl
@[simp] theorem State.setHead_dgu (s : State) (x : Nat) (h : Head) : (s.setHead x h).dgu = s.dgu := rfl
@[simp] theorem State.setHead_cin (s : State) (x : Nat) (h : Head) : (s.setHead x h).cin = s.cin := rfl
@[simp] theorem State.setHead_ipl (s : State) (x : Nat) (h : Head) : (s.setHead x h).ipl = s.ipl := rfl
@[simp] theorem State.setHead_rru (s : State) (x : Nat) (h : Head) : (s.setHead x h).rru = s.rru := rfl
@[simp] theorem State.setHead_dfq (s : State) (x : Nat) (h : Head) : (s.setHead x h).dfq = s.dfq := rfl
@[simp] theorem State.setHead_fab (s : State) (x : Nat) (h : Head) : (s.setHead x h).fab = s.fab := rfl
@[simp] theorem State.setHead_eng (s : State) (x : Nat) (h : Head) : (s.setHead x h).eng = s.eng := rfl
@[simp] theorem State.setHead_emem (s : State) (x : Nat) (h : Head) : (s.setHead x h).emem = s.emem := rfl
@[simp] theorem State.setHead_evf (s : State) (x : Nat) (h : Head) : (s.setHead x h).evf = s.evf := rfl
@[simp] theorem State.setHead_dma (s : State) (x : Nat) (h : Head) : (s.setHead x h).dma = s.dma := rfl
@[simp] theorem State.setHead_mem (s : State) (x : Nat) (h : Head) : (s.setHead x h).mem = s.mem := rfl
@[simp] theorem State.setHead_fvl (s : State) (x : Nat) (h : Head) : (s.setHead x h).fvl = s.fvl := rfl
@[simp] theorem State.setHead_hif (s : State) (x : Nat) (h : Head) : (s.setHead x h).hif = s.hif := rfl
@[simp] theorem State.setHead_net (s : State) (x : Nat) (h : Head) : (s.setHead x h).net = s.net := rfl
@[simp] theorem State.setHead_twn (s : State) (x : Nat) (h : Head) : (s.setHead x h).twn = s.twn := rfl
@[simp] theorem State.setHead_pmu (s : State) (x : Nat) (h : Head) : (s.setHead x h).pmu = s.pmu := rfl
@[simp] theorem State.setHead_sec (s : State) (x : Nat) (h : Head) : (s.setHead x h).sec = s.sec := rfl
@[simp] theorem State.setHead_cal (s : State) (x : Nat) (h : Head) : (s.setHead x h).cal = s.cal := rfl
@[simp] theorem State.setHead_pending (s : State) (x : Nat) (h : Head) : (s.setHead x h).pending = s.pending := rfl

/-! ### setBar -/

@[simp] theorem State.setBar_tempo (s : State) (n : Nat) (b : Bar) : (s.setBar n b).tempo = s.tempo := rfl
@[simp] theorem State.setBar_regs (s : State) (n : Nat) (b : Bar) : (s.setBar n b).regs = s.regs := rfl
@[simp] theorem State.setBar_past (s : State) (n : Nat) (b : Bar) : (s.setBar n b).past = s.past := rfl
@[simp] theorem State.setBar_latch (s : State) (n : Nat) (b : Bar) : (s.setBar n b).latch = s.latch := rfl
@[simp] theorem State.setBar_pendLow (s : State) (n : Nat) (b : Bar) : (s.setBar n b).pendLow = s.pendLow := rfl
@[simp] theorem State.setBar_logs (s : State) (n : Nat) (b : Bar) : (s.setBar n b).logs = s.logs := rfl
@[simp] theorem State.setBar_logLatch (s : State) (n : Nat) (b : Bar) : (s.setBar n b).logLatch = s.logLatch := rfl
@[simp] theorem State.setBar_presented (s : State) (n : Nat) (b : Bar) : (s.setBar n b).presented = s.presented := rfl
@[simp] theorem State.setBar_out (s : State) (n : Nat) (b : Bar) : (s.setBar n b).out = s.out := rfl
@[simp] theorem State.setBar_draws (s : State) (n : Nat) (b : Bar) : (s.setBar n b).draws = s.draws := rfl
@[simp] theorem State.setBar_boot (s : State) (n : Nat) (b : Bar) : (s.setBar n b).boot = s.boot := rfl
@[simp] theorem State.setBar_netError (s : State) (n : Nat) (b : Bar) : (s.setBar n b).netError = s.netError := rfl
@[simp] theorem State.setBar_wtu (s : State) (n : Nat) (b : Bar) : (s.setBar n b).wtu = s.wtu := rfl
@[simp] theorem State.setBar_cmp (s : State) (n : Nat) (b : Bar) : (s.setBar n b).cmp = s.cmp := rfl
@[simp] theorem State.setBar_rp (s : State) (n : Nat) (b : Bar) : (s.setBar n b).rp = s.rp := rfl
@[simp] theorem State.setBar_ts (s : State) (n : Nat) (b : Bar) : (s.setBar n b).ts = s.ts := rfl
@[simp] theorem State.setBar_nt (s : State) (n : Nat) (b : Bar) : (s.setBar n b).nt = s.nt := rfl
@[simp] theorem State.setBar_dgu (s : State) (n : Nat) (b : Bar) : (s.setBar n b).dgu = s.dgu := rfl
@[simp] theorem State.setBar_cin (s : State) (n : Nat) (b : Bar) : (s.setBar n b).cin = s.cin := rfl
@[simp] theorem State.setBar_ipl (s : State) (n : Nat) (b : Bar) : (s.setBar n b).ipl = s.ipl := rfl
@[simp] theorem State.setBar_rru (s : State) (n : Nat) (b : Bar) : (s.setBar n b).rru = s.rru := rfl
@[simp] theorem State.setBar_dfq (s : State) (n : Nat) (b : Bar) : (s.setBar n b).dfq = s.dfq := rfl
@[simp] theorem State.setBar_fab (s : State) (n : Nat) (b : Bar) : (s.setBar n b).fab = s.fab := rfl
@[simp] theorem State.setBar_eng (s : State) (n : Nat) (b : Bar) : (s.setBar n b).eng = s.eng := rfl
@[simp] theorem State.setBar_emem (s : State) (n : Nat) (b : Bar) : (s.setBar n b).emem = s.emem := rfl
@[simp] theorem State.setBar_evf (s : State) (n : Nat) (b : Bar) : (s.setBar n b).evf = s.evf := rfl
@[simp] theorem State.setBar_dma (s : State) (n : Nat) (b : Bar) : (s.setBar n b).dma = s.dma := rfl
@[simp] theorem State.setBar_mem (s : State) (n : Nat) (b : Bar) : (s.setBar n b).mem = s.mem := rfl
@[simp] theorem State.setBar_fvl (s : State) (n : Nat) (b : Bar) : (s.setBar n b).fvl = s.fvl := rfl
@[simp] theorem State.setBar_hif (s : State) (n : Nat) (b : Bar) : (s.setBar n b).hif = s.hif := rfl
@[simp] theorem State.setBar_net (s : State) (n : Nat) (b : Bar) : (s.setBar n b).net = s.net := rfl
@[simp] theorem State.setBar_twn (s : State) (n : Nat) (b : Bar) : (s.setBar n b).twn = s.twn := rfl
@[simp] theorem State.setBar_pmu (s : State) (n : Nat) (b : Bar) : (s.setBar n b).pmu = s.pmu := rfl
@[simp] theorem State.setBar_sec (s : State) (n : Nat) (b : Bar) : (s.setBar n b).sec = s.sec := rfl
@[simp] theorem State.setBar_cal (s : State) (n : Nat) (b : Bar) : (s.setBar n b).cal = s.cal := rfl
@[simp] theorem State.setBar_pending (s : State) (n : Nat) (b : Bar) : (s.setBar n b).pending = s.pending := rfl

/-! ### setScan -/

@[simp] theorem State.setScan_tempo (s : State) (i : Nat) (v : Scan) : (s.setScan i v).tempo = s.tempo := rfl
@[simp] theorem State.setScan_regs (s : State) (i : Nat) (v : Scan) : (s.setScan i v).regs = s.regs := rfl
@[simp] theorem State.setScan_past (s : State) (i : Nat) (v : Scan) : (s.setScan i v).past = s.past := rfl
@[simp] theorem State.setScan_latch (s : State) (i : Nat) (v : Scan) : (s.setScan i v).latch = s.latch := rfl
@[simp] theorem State.setScan_pendLow (s : State) (i : Nat) (v : Scan) : (s.setScan i v).pendLow = s.pendLow := rfl
@[simp] theorem State.setScan_logs (s : State) (i : Nat) (v : Scan) : (s.setScan i v).logs = s.logs := rfl
@[simp] theorem State.setScan_logLatch (s : State) (i : Nat) (v : Scan) : (s.setScan i v).logLatch = s.logLatch := rfl
@[simp] theorem State.setScan_presented (s : State) (i : Nat) (v : Scan) : (s.setScan i v).presented = s.presented := rfl
@[simp] theorem State.setScan_out (s : State) (i : Nat) (v : Scan) : (s.setScan i v).out = s.out := rfl
@[simp] theorem State.setScan_draws (s : State) (i : Nat) (v : Scan) : (s.setScan i v).draws = s.draws := rfl
@[simp] theorem State.setScan_boot (s : State) (i : Nat) (v : Scan) : (s.setScan i v).boot = s.boot := rfl
@[simp] theorem State.setScan_netError (s : State) (i : Nat) (v : Scan) : (s.setScan i v).netError = s.netError := rfl
@[simp] theorem State.setScan_wtu (s : State) (i : Nat) (v : Scan) : (s.setScan i v).wtu = s.wtu := rfl
@[simp] theorem State.setScan_cmp (s : State) (i : Nat) (v : Scan) : (s.setScan i v).cmp = s.cmp := rfl
@[simp] theorem State.setScan_rp (s : State) (i : Nat) (v : Scan) : (s.setScan i v).rp = s.rp := rfl
@[simp] theorem State.setScan_ts (s : State) (i : Nat) (v : Scan) : (s.setScan i v).ts = s.ts := rfl
@[simp] theorem State.setScan_nt (s : State) (i : Nat) (v : Scan) : (s.setScan i v).nt = s.nt := rfl
@[simp] theorem State.setScan_ftu (s : State) (i : Nat) (v : Scan) : (s.setScan i v).ftu = s.ftu := rfl
@[simp] theorem State.setScan_cin (s : State) (i : Nat) (v : Scan) : (s.setScan i v).cin = s.cin := rfl
@[simp] theorem State.setScan_ipl (s : State) (i : Nat) (v : Scan) : (s.setScan i v).ipl = s.ipl := rfl
@[simp] theorem State.setScan_rru (s : State) (i : Nat) (v : Scan) : (s.setScan i v).rru = s.rru := rfl
@[simp] theorem State.setScan_dfq (s : State) (i : Nat) (v : Scan) : (s.setScan i v).dfq = s.dfq := rfl
@[simp] theorem State.setScan_fab (s : State) (i : Nat) (v : Scan) : (s.setScan i v).fab = s.fab := rfl
@[simp] theorem State.setScan_eng (s : State) (i : Nat) (v : Scan) : (s.setScan i v).eng = s.eng := rfl
@[simp] theorem State.setScan_emem (s : State) (i : Nat) (v : Scan) : (s.setScan i v).emem = s.emem := rfl
@[simp] theorem State.setScan_evf (s : State) (i : Nat) (v : Scan) : (s.setScan i v).evf = s.evf := rfl
@[simp] theorem State.setScan_dma (s : State) (i : Nat) (v : Scan) : (s.setScan i v).dma = s.dma := rfl
@[simp] theorem State.setScan_mem (s : State) (i : Nat) (v : Scan) : (s.setScan i v).mem = s.mem := rfl
@[simp] theorem State.setScan_fvl (s : State) (i : Nat) (v : Scan) : (s.setScan i v).fvl = s.fvl := rfl
@[simp] theorem State.setScan_hif (s : State) (i : Nat) (v : Scan) : (s.setScan i v).hif = s.hif := rfl
@[simp] theorem State.setScan_net (s : State) (i : Nat) (v : Scan) : (s.setScan i v).net = s.net := rfl
@[simp] theorem State.setScan_twn (s : State) (i : Nat) (v : Scan) : (s.setScan i v).twn = s.twn := rfl
@[simp] theorem State.setScan_pmu (s : State) (i : Nat) (v : Scan) : (s.setScan i v).pmu = s.pmu := rfl
@[simp] theorem State.setScan_sec (s : State) (i : Nat) (v : Scan) : (s.setScan i v).sec = s.sec := rfl
@[simp] theorem State.setScan_cal (s : State) (i : Nat) (v : Scan) : (s.setScan i v).cal = s.cal := rfl
@[simp] theorem State.setScan_pending (s : State) (i : Nat) (v : Scan) : (s.setScan i v).pending = s.pending := rfl

/-! ### setCam -/

@[simp] theorem State.setCam_tempo (s : State) (n : Nat) (c : Cin) : (s.setCam n c).tempo = s.tempo := rfl
@[simp] theorem State.setCam_regs (s : State) (n : Nat) (c : Cin) : (s.setCam n c).regs = s.regs := rfl
@[simp] theorem State.setCam_past (s : State) (n : Nat) (c : Cin) : (s.setCam n c).past = s.past := rfl
@[simp] theorem State.setCam_latch (s : State) (n : Nat) (c : Cin) : (s.setCam n c).latch = s.latch := rfl
@[simp] theorem State.setCam_pendLow (s : State) (n : Nat) (c : Cin) : (s.setCam n c).pendLow = s.pendLow := rfl
@[simp] theorem State.setCam_logs (s : State) (n : Nat) (c : Cin) : (s.setCam n c).logs = s.logs := rfl
@[simp] theorem State.setCam_logLatch (s : State) (n : Nat) (c : Cin) : (s.setCam n c).logLatch = s.logLatch := rfl
@[simp] theorem State.setCam_presented (s : State) (n : Nat) (c : Cin) : (s.setCam n c).presented = s.presented := rfl
@[simp] theorem State.setCam_out (s : State) (n : Nat) (c : Cin) : (s.setCam n c).out = s.out := rfl
@[simp] theorem State.setCam_draws (s : State) (n : Nat) (c : Cin) : (s.setCam n c).draws = s.draws := rfl
@[simp] theorem State.setCam_boot (s : State) (n : Nat) (c : Cin) : (s.setCam n c).boot = s.boot := rfl
@[simp] theorem State.setCam_netError (s : State) (n : Nat) (c : Cin) : (s.setCam n c).netError = s.netError := rfl
@[simp] theorem State.setCam_wtu (s : State) (n : Nat) (c : Cin) : (s.setCam n c).wtu = s.wtu := rfl
@[simp] theorem State.setCam_cmp (s : State) (n : Nat) (c : Cin) : (s.setCam n c).cmp = s.cmp := rfl
@[simp] theorem State.setCam_rp (s : State) (n : Nat) (c : Cin) : (s.setCam n c).rp = s.rp := rfl
@[simp] theorem State.setCam_ts (s : State) (n : Nat) (c : Cin) : (s.setCam n c).ts = s.ts := rfl
@[simp] theorem State.setCam_nt (s : State) (n : Nat) (c : Cin) : (s.setCam n c).nt = s.nt := rfl
@[simp] theorem State.setCam_ftu (s : State) (n : Nat) (c : Cin) : (s.setCam n c).ftu = s.ftu := rfl
@[simp] theorem State.setCam_dgu (s : State) (n : Nat) (c : Cin) : (s.setCam n c).dgu = s.dgu := rfl
@[simp] theorem State.setCam_ipl (s : State) (n : Nat) (c : Cin) : (s.setCam n c).ipl = s.ipl := rfl
@[simp] theorem State.setCam_rru (s : State) (n : Nat) (c : Cin) : (s.setCam n c).rru = s.rru := rfl
@[simp] theorem State.setCam_dfq (s : State) (n : Nat) (c : Cin) : (s.setCam n c).dfq = s.dfq := rfl
@[simp] theorem State.setCam_fab (s : State) (n : Nat) (c : Cin) : (s.setCam n c).fab = s.fab := rfl
@[simp] theorem State.setCam_eng (s : State) (n : Nat) (c : Cin) : (s.setCam n c).eng = s.eng := rfl
@[simp] theorem State.setCam_emem (s : State) (n : Nat) (c : Cin) : (s.setCam n c).emem = s.emem := rfl
@[simp] theorem State.setCam_evf (s : State) (n : Nat) (c : Cin) : (s.setCam n c).evf = s.evf := rfl
@[simp] theorem State.setCam_dma (s : State) (n : Nat) (c : Cin) : (s.setCam n c).dma = s.dma := rfl
@[simp] theorem State.setCam_mem (s : State) (n : Nat) (c : Cin) : (s.setCam n c).mem = s.mem := rfl
@[simp] theorem State.setCam_fvl (s : State) (n : Nat) (c : Cin) : (s.setCam n c).fvl = s.fvl := rfl
@[simp] theorem State.setCam_hif (s : State) (n : Nat) (c : Cin) : (s.setCam n c).hif = s.hif := rfl
@[simp] theorem State.setCam_net (s : State) (n : Nat) (c : Cin) : (s.setCam n c).net = s.net := rfl
@[simp] theorem State.setCam_twn (s : State) (n : Nat) (c : Cin) : (s.setCam n c).twn = s.twn := rfl
@[simp] theorem State.setCam_pmu (s : State) (n : Nat) (c : Cin) : (s.setCam n c).pmu = s.pmu := rfl
@[simp] theorem State.setCam_sec (s : State) (n : Nat) (c : Cin) : (s.setCam n c).sec = s.sec := rfl
@[simp] theorem State.setCam_cal (s : State) (n : Nat) (c : Cin) : (s.setCam n c).cal = s.cal := rfl
@[simp] theorem State.setCam_pending (s : State) (n : Nat) (c : Cin) : (s.setCam n c).pending = s.pending := rfl

/-! ### setPush -/

@[simp] theorem State.setPush_tempo (s : State) (r : Nat) (p : Push) : (s.setPush r p).tempo = s.tempo := rfl
@[simp] theorem State.setPush_regs (s : State) (r : Nat) (p : Push) : (s.setPush r p).regs = s.regs := rfl
@[simp] theorem State.setPush_past (s : State) (r : Nat) (p : Push) : (s.setPush r p).past = s.past := rfl
@[simp] theorem State.setPush_latch (s : State) (r : Nat) (p : Push) : (s.setPush r p).latch = s.latch := rfl
@[simp] theorem State.setPush_pendLow (s : State) (r : Nat) (p : Push) : (s.setPush r p).pendLow = s.pendLow := rfl
@[simp] theorem State.setPush_logs (s : State) (r : Nat) (p : Push) : (s.setPush r p).logs = s.logs := rfl
@[simp] theorem State.setPush_logLatch (s : State) (r : Nat) (p : Push) : (s.setPush r p).logLatch = s.logLatch := rfl
@[simp] theorem State.setPush_presented (s : State) (r : Nat) (p : Push) : (s.setPush r p).presented = s.presented := rfl
@[simp] theorem State.setPush_out (s : State) (r : Nat) (p : Push) : (s.setPush r p).out = s.out := rfl
@[simp] theorem State.setPush_draws (s : State) (r : Nat) (p : Push) : (s.setPush r p).draws = s.draws := rfl
@[simp] theorem State.setPush_boot (s : State) (r : Nat) (p : Push) : (s.setPush r p).boot = s.boot := rfl
@[simp] theorem State.setPush_netError (s : State) (r : Nat) (p : Push) : (s.setPush r p).netError = s.netError := rfl
@[simp] theorem State.setPush_wtu (s : State) (r : Nat) (p : Push) : (s.setPush r p).wtu = s.wtu := rfl
@[simp] theorem State.setPush_cmp (s : State) (r : Nat) (p : Push) : (s.setPush r p).cmp = s.cmp := rfl
@[simp] theorem State.setPush_rp (s : State) (r : Nat) (p : Push) : (s.setPush r p).rp = s.rp := rfl
@[simp] theorem State.setPush_ts (s : State) (r : Nat) (p : Push) : (s.setPush r p).ts = s.ts := rfl
@[simp] theorem State.setPush_nt (s : State) (r : Nat) (p : Push) : (s.setPush r p).nt = s.nt := rfl
@[simp] theorem State.setPush_ftu (s : State) (r : Nat) (p : Push) : (s.setPush r p).ftu = s.ftu := rfl
@[simp] theorem State.setPush_dgu (s : State) (r : Nat) (p : Push) : (s.setPush r p).dgu = s.dgu := rfl
@[simp] theorem State.setPush_cin (s : State) (r : Nat) (p : Push) : (s.setPush r p).cin = s.cin := rfl
@[simp] theorem State.setPush_ipl (s : State) (r : Nat) (p : Push) : (s.setPush r p).ipl = s.ipl := rfl
@[simp] theorem State.setPush_rru (s : State) (r : Nat) (p : Push) : (s.setPush r p).rru = s.rru := rfl
@[simp] theorem State.setPush_fab (s : State) (r : Nat) (p : Push) : (s.setPush r p).fab = s.fab := rfl
@[simp] theorem State.setPush_eng (s : State) (r : Nat) (p : Push) : (s.setPush r p).eng = s.eng := rfl
@[simp] theorem State.setPush_emem (s : State) (r : Nat) (p : Push) : (s.setPush r p).emem = s.emem := rfl
@[simp] theorem State.setPush_evf (s : State) (r : Nat) (p : Push) : (s.setPush r p).evf = s.evf := rfl
@[simp] theorem State.setPush_dma (s : State) (r : Nat) (p : Push) : (s.setPush r p).dma = s.dma := rfl
@[simp] theorem State.setPush_mem (s : State) (r : Nat) (p : Push) : (s.setPush r p).mem = s.mem := rfl
@[simp] theorem State.setPush_fvl (s : State) (r : Nat) (p : Push) : (s.setPush r p).fvl = s.fvl := rfl
@[simp] theorem State.setPush_hif (s : State) (r : Nat) (p : Push) : (s.setPush r p).hif = s.hif := rfl
@[simp] theorem State.setPush_net (s : State) (r : Nat) (p : Push) : (s.setPush r p).net = s.net := rfl
@[simp] theorem State.setPush_twn (s : State) (r : Nat) (p : Push) : (s.setPush r p).twn = s.twn := rfl
@[simp] theorem State.setPush_pmu (s : State) (r : Nat) (p : Push) : (s.setPush r p).pmu = s.pmu := rfl
@[simp] theorem State.setPush_sec (s : State) (r : Nat) (p : Push) : (s.setPush r p).sec = s.sec := rfl
@[simp] theorem State.setPush_cal (s : State) (r : Nat) (p : Push) : (s.setPush r p).cal = s.cal := rfl
@[simp] theorem State.setPush_pending (s : State) (r : Nat) (p : Push) : (s.setPush r p).pending = s.pending := rfl

/-! ### setEngine -/

@[simp] theorem State.setEngine_tempo (s : State) (e : Nat) (g : Engine) : (s.setEngine e g).tempo = s.tempo := rfl
@[simp] theorem State.setEngine_regs (s : State) (e : Nat) (g : Engine) : (s.setEngine e g).regs = s.regs := rfl
@[simp] theorem State.setEngine_past (s : State) (e : Nat) (g : Engine) : (s.setEngine e g).past = s.past := rfl
@[simp] theorem State.setEngine_latch (s : State) (e : Nat) (g : Engine) : (s.setEngine e g).latch = s.latch := rfl
@[simp] theorem State.setEngine_pendLow (s : State) (e : Nat) (g : Engine) : (s.setEngine e g).pendLow = s.pendLow := rfl
@[simp] theorem State.setEngine_logs (s : State) (e : Nat) (g : Engine) : (s.setEngine e g).logs = s.logs := rfl
@[simp] theorem State.setEngine_logLatch (s : State) (e : Nat) (g : Engine) : (s.setEngine e g).logLatch = s.logLatch := rfl
@[simp] theorem State.setEngine_presented (s : State) (e : Nat) (g : Engine) : (s.setEngine e g).presented = s.presented := rfl
@[simp] theorem State.setEngine_out (s : State) (e : Nat) (g : Engine) : (s.setEngine e g).out = s.out := rfl
@[simp] theorem State.setEngine_draws (s : State) (e : Nat) (g : Engine) : (s.setEngine e g).draws = s.draws := rfl
@[simp] theorem State.setEngine_boot (s : State) (e : Nat) (g : Engine) : (s.setEngine e g).boot = s.boot := rfl
@[simp] theorem State.setEngine_netError (s : State) (e : Nat) (g : Engine) : (s.setEngine e g).netError = s.netError := rfl
@[simp] theorem State.setEngine_wtu (s : State) (e : Nat) (g : Engine) : (s.setEngine e g).wtu = s.wtu := rfl
@[simp] theorem State.setEngine_cmp (s : State) (e : Nat) (g : Engine) : (s.setEngine e g).cmp = s.cmp := rfl
@[simp] theorem State.setEngine_rp (s : State) (e : Nat) (g : Engine) : (s.setEngine e g).rp = s.rp := rfl
@[simp] theorem State.setEngine_ts (s : State) (e : Nat) (g : Engine) : (s.setEngine e g).ts = s.ts := rfl
@[simp] theorem State.setEngine_nt (s : State) (e : Nat) (g : Engine) : (s.setEngine e g).nt = s.nt := rfl
@[simp] theorem State.setEngine_ftu (s : State) (e : Nat) (g : Engine) : (s.setEngine e g).ftu = s.ftu := rfl
@[simp] theorem State.setEngine_dgu (s : State) (e : Nat) (g : Engine) : (s.setEngine e g).dgu = s.dgu := rfl
@[simp] theorem State.setEngine_cin (s : State) (e : Nat) (g : Engine) : (s.setEngine e g).cin = s.cin := rfl
@[simp] theorem State.setEngine_ipl (s : State) (e : Nat) (g : Engine) : (s.setEngine e g).ipl = s.ipl := rfl
@[simp] theorem State.setEngine_rru (s : State) (e : Nat) (g : Engine) : (s.setEngine e g).rru = s.rru := rfl
@[simp] theorem State.setEngine_dfq (s : State) (e : Nat) (g : Engine) : (s.setEngine e g).dfq = s.dfq := rfl
@[simp] theorem State.setEngine_fab (s : State) (e : Nat) (g : Engine) : (s.setEngine e g).fab = s.fab := rfl
@[simp] theorem State.setEngine_emem (s : State) (e : Nat) (g : Engine) : (s.setEngine e g).emem = s.emem := rfl
@[simp] theorem State.setEngine_evf (s : State) (e : Nat) (g : Engine) : (s.setEngine e g).evf = s.evf := rfl
@[simp] theorem State.setEngine_dma (s : State) (e : Nat) (g : Engine) : (s.setEngine e g).dma = s.dma := rfl
@[simp] theorem State.setEngine_mem (s : State) (e : Nat) (g : Engine) : (s.setEngine e g).mem = s.mem := rfl
@[simp] theorem State.setEngine_fvl (s : State) (e : Nat) (g : Engine) : (s.setEngine e g).fvl = s.fvl := rfl
@[simp] theorem State.setEngine_hif (s : State) (e : Nat) (g : Engine) : (s.setEngine e g).hif = s.hif := rfl
@[simp] theorem State.setEngine_net (s : State) (e : Nat) (g : Engine) : (s.setEngine e g).net = s.net := rfl
@[simp] theorem State.setEngine_twn (s : State) (e : Nat) (g : Engine) : (s.setEngine e g).twn = s.twn := rfl
@[simp] theorem State.setEngine_pmu (s : State) (e : Nat) (g : Engine) : (s.setEngine e g).pmu = s.pmu := rfl
@[simp] theorem State.setEngine_sec (s : State) (e : Nat) (g : Engine) : (s.setEngine e g).sec = s.sec := rfl
@[simp] theorem State.setEngine_cal (s : State) (e : Nat) (g : Engine) : (s.setEngine e g).cal = s.cal := rfl
@[simp] theorem State.setEngine_pending (s : State) (e : Nat) (g : Engine) : (s.setEngine e g).pending = s.pending := rfl

/-! ### setDma -/

@[simp] theorem State.setDma_tempo (s : State) (c : Nat) (d : DmaChan) : (s.setDma c d).tempo = s.tempo := rfl
@[simp] theorem State.setDma_regs (s : State) (c : Nat) (d : DmaChan) : (s.setDma c d).regs = s.regs := rfl
@[simp] theorem State.setDma_past (s : State) (c : Nat) (d : DmaChan) : (s.setDma c d).past = s.past := rfl
@[simp] theorem State.setDma_latch (s : State) (c : Nat) (d : DmaChan) : (s.setDma c d).latch = s.latch := rfl
@[simp] theorem State.setDma_pendLow (s : State) (c : Nat) (d : DmaChan) : (s.setDma c d).pendLow = s.pendLow := rfl
@[simp] theorem State.setDma_logs (s : State) (c : Nat) (d : DmaChan) : (s.setDma c d).logs = s.logs := rfl
@[simp] theorem State.setDma_logLatch (s : State) (c : Nat) (d : DmaChan) : (s.setDma c d).logLatch = s.logLatch := rfl
@[simp] theorem State.setDma_presented (s : State) (c : Nat) (d : DmaChan) : (s.setDma c d).presented = s.presented := rfl
@[simp] theorem State.setDma_out (s : State) (c : Nat) (d : DmaChan) : (s.setDma c d).out = s.out := rfl
@[simp] theorem State.setDma_draws (s : State) (c : Nat) (d : DmaChan) : (s.setDma c d).draws = s.draws := rfl
@[simp] theorem State.setDma_boot (s : State) (c : Nat) (d : DmaChan) : (s.setDma c d).boot = s.boot := rfl
@[simp] theorem State.setDma_netError (s : State) (c : Nat) (d : DmaChan) : (s.setDma c d).netError = s.netError := rfl
@[simp] theorem State.setDma_wtu (s : State) (c : Nat) (d : DmaChan) : (s.setDma c d).wtu = s.wtu := rfl
@[simp] theorem State.setDma_cmp (s : State) (c : Nat) (d : DmaChan) : (s.setDma c d).cmp = s.cmp := rfl
@[simp] theorem State.setDma_rp (s : State) (c : Nat) (d : DmaChan) : (s.setDma c d).rp = s.rp := rfl
@[simp] theorem State.setDma_ts (s : State) (c : Nat) (d : DmaChan) : (s.setDma c d).ts = s.ts := rfl
@[simp] theorem State.setDma_nt (s : State) (c : Nat) (d : DmaChan) : (s.setDma c d).nt = s.nt := rfl
@[simp] theorem State.setDma_ftu (s : State) (c : Nat) (d : DmaChan) : (s.setDma c d).ftu = s.ftu := rfl
@[simp] theorem State.setDma_dgu (s : State) (c : Nat) (d : DmaChan) : (s.setDma c d).dgu = s.dgu := rfl
@[simp] theorem State.setDma_cin (s : State) (c : Nat) (d : DmaChan) : (s.setDma c d).cin = s.cin := rfl
@[simp] theorem State.setDma_ipl (s : State) (c : Nat) (d : DmaChan) : (s.setDma c d).ipl = s.ipl := rfl
@[simp] theorem State.setDma_rru (s : State) (c : Nat) (d : DmaChan) : (s.setDma c d).rru = s.rru := rfl
@[simp] theorem State.setDma_dfq (s : State) (c : Nat) (d : DmaChan) : (s.setDma c d).dfq = s.dfq := rfl
@[simp] theorem State.setDma_fab (s : State) (c : Nat) (d : DmaChan) : (s.setDma c d).fab = s.fab := rfl
@[simp] theorem State.setDma_eng (s : State) (c : Nat) (d : DmaChan) : (s.setDma c d).eng = s.eng := rfl
@[simp] theorem State.setDma_emem (s : State) (c : Nat) (d : DmaChan) : (s.setDma c d).emem = s.emem := rfl
@[simp] theorem State.setDma_evf (s : State) (c : Nat) (d : DmaChan) : (s.setDma c d).evf = s.evf := rfl
@[simp] theorem State.setDma_mem (s : State) (c : Nat) (d : DmaChan) : (s.setDma c d).mem = s.mem := rfl
@[simp] theorem State.setDma_fvl (s : State) (c : Nat) (d : DmaChan) : (s.setDma c d).fvl = s.fvl := rfl
@[simp] theorem State.setDma_hif (s : State) (c : Nat) (d : DmaChan) : (s.setDma c d).hif = s.hif := rfl
@[simp] theorem State.setDma_net (s : State) (c : Nat) (d : DmaChan) : (s.setDma c d).net = s.net := rfl
@[simp] theorem State.setDma_twn (s : State) (c : Nat) (d : DmaChan) : (s.setDma c d).twn = s.twn := rfl
@[simp] theorem State.setDma_pmu (s : State) (c : Nat) (d : DmaChan) : (s.setDma c d).pmu = s.pmu := rfl
@[simp] theorem State.setDma_sec (s : State) (c : Nat) (d : DmaChan) : (s.setDma c d).sec = s.sec := rfl
@[simp] theorem State.setDma_cal (s : State) (c : Nat) (d : DmaChan) : (s.setDma c d).cal = s.cal := rfl
@[simp] theorem State.setDma_pending (s : State) (c : Nat) (d : DmaChan) : (s.setDma c d).pending = s.pending := rfl

/-! ### setChan -/

@[simp] theorem State.setChan_tempo (s : State) (n : Nat) (c : MemChan) : (s.setChan n c).tempo = s.tempo := rfl
@[simp] theorem State.setChan_regs (s : State) (n : Nat) (c : MemChan) : (s.setChan n c).regs = s.regs := rfl
@[simp] theorem State.setChan_past (s : State) (n : Nat) (c : MemChan) : (s.setChan n c).past = s.past := rfl
@[simp] theorem State.setChan_latch (s : State) (n : Nat) (c : MemChan) : (s.setChan n c).latch = s.latch := rfl
@[simp] theorem State.setChan_pendLow (s : State) (n : Nat) (c : MemChan) : (s.setChan n c).pendLow = s.pendLow := rfl
@[simp] theorem State.setChan_logs (s : State) (n : Nat) (c : MemChan) : (s.setChan n c).logs = s.logs := rfl
@[simp] theorem State.setChan_logLatch (s : State) (n : Nat) (c : MemChan) : (s.setChan n c).logLatch = s.logLatch := rfl
@[simp] theorem State.setChan_presented (s : State) (n : Nat) (c : MemChan) : (s.setChan n c).presented = s.presented := rfl
@[simp] theorem State.setChan_out (s : State) (n : Nat) (c : MemChan) : (s.setChan n c).out = s.out := rfl
@[simp] theorem State.setChan_draws (s : State) (n : Nat) (c : MemChan) : (s.setChan n c).draws = s.draws := rfl
@[simp] theorem State.setChan_boot (s : State) (n : Nat) (c : MemChan) : (s.setChan n c).boot = s.boot := rfl
@[simp] theorem State.setChan_netError (s : State) (n : Nat) (c : MemChan) : (s.setChan n c).netError = s.netError := rfl
@[simp] theorem State.setChan_wtu (s : State) (n : Nat) (c : MemChan) : (s.setChan n c).wtu = s.wtu := rfl
@[simp] theorem State.setChan_cmp (s : State) (n : Nat) (c : MemChan) : (s.setChan n c).cmp = s.cmp := rfl
@[simp] theorem State.setChan_rp (s : State) (n : Nat) (c : MemChan) : (s.setChan n c).rp = s.rp := rfl
@[simp] theorem State.setChan_ts (s : State) (n : Nat) (c : MemChan) : (s.setChan n c).ts = s.ts := rfl
@[simp] theorem State.setChan_nt (s : State) (n : Nat) (c : MemChan) : (s.setChan n c).nt = s.nt := rfl
@[simp] theorem State.setChan_ftu (s : State) (n : Nat) (c : MemChan) : (s.setChan n c).ftu = s.ftu := rfl
@[simp] theorem State.setChan_dgu (s : State) (n : Nat) (c : MemChan) : (s.setChan n c).dgu = s.dgu := rfl
@[simp] theorem State.setChan_cin (s : State) (n : Nat) (c : MemChan) : (s.setChan n c).cin = s.cin := rfl
@[simp] theorem State.setChan_ipl (s : State) (n : Nat) (c : MemChan) : (s.setChan n c).ipl = s.ipl := rfl
@[simp] theorem State.setChan_rru (s : State) (n : Nat) (c : MemChan) : (s.setChan n c).rru = s.rru := rfl
@[simp] theorem State.setChan_dfq (s : State) (n : Nat) (c : MemChan) : (s.setChan n c).dfq = s.dfq := rfl
@[simp] theorem State.setChan_fab (s : State) (n : Nat) (c : MemChan) : (s.setChan n c).fab = s.fab := rfl
@[simp] theorem State.setChan_eng (s : State) (n : Nat) (c : MemChan) : (s.setChan n c).eng = s.eng := rfl
@[simp] theorem State.setChan_emem (s : State) (n : Nat) (c : MemChan) : (s.setChan n c).emem = s.emem := rfl
@[simp] theorem State.setChan_evf (s : State) (n : Nat) (c : MemChan) : (s.setChan n c).evf = s.evf := rfl
@[simp] theorem State.setChan_dma (s : State) (n : Nat) (c : MemChan) : (s.setChan n c).dma = s.dma := rfl
@[simp] theorem State.setChan_fvl (s : State) (n : Nat) (c : MemChan) : (s.setChan n c).fvl = s.fvl := rfl
@[simp] theorem State.setChan_hif (s : State) (n : Nat) (c : MemChan) : (s.setChan n c).hif = s.hif := rfl
@[simp] theorem State.setChan_net (s : State) (n : Nat) (c : MemChan) : (s.setChan n c).net = s.net := rfl
@[simp] theorem State.setChan_twn (s : State) (n : Nat) (c : MemChan) : (s.setChan n c).twn = s.twn := rfl
@[simp] theorem State.setChan_pmu (s : State) (n : Nat) (c : MemChan) : (s.setChan n c).pmu = s.pmu := rfl
@[simp] theorem State.setChan_sec (s : State) (n : Nat) (c : MemChan) : (s.setChan n c).sec = s.sec := rfl
@[simp] theorem State.setChan_cal (s : State) (n : Nat) (c : MemChan) : (s.setChan n c).cal = s.cal := rfl
@[simp] theorem State.setChan_pending (s : State) (n : Nat) (c : MemChan) : (s.setChan n c).pending = s.pending := rfl

/-! ### setFlaw -/

@[simp] theorem State.setFlaw_tempo (s : State) (b : Nat) (f : Flaw) : (s.setFlaw b f).tempo = s.tempo := rfl
@[simp] theorem State.setFlaw_regs (s : State) (b : Nat) (f : Flaw) : (s.setFlaw b f).regs = s.regs := rfl
@[simp] theorem State.setFlaw_past (s : State) (b : Nat) (f : Flaw) : (s.setFlaw b f).past = s.past := rfl
@[simp] theorem State.setFlaw_latch (s : State) (b : Nat) (f : Flaw) : (s.setFlaw b f).latch = s.latch := rfl
@[simp] theorem State.setFlaw_pendLow (s : State) (b : Nat) (f : Flaw) : (s.setFlaw b f).pendLow = s.pendLow := rfl
@[simp] theorem State.setFlaw_logs (s : State) (b : Nat) (f : Flaw) : (s.setFlaw b f).logs = s.logs := rfl
@[simp] theorem State.setFlaw_logLatch (s : State) (b : Nat) (f : Flaw) : (s.setFlaw b f).logLatch = s.logLatch := rfl
@[simp] theorem State.setFlaw_presented (s : State) (b : Nat) (f : Flaw) : (s.setFlaw b f).presented = s.presented := rfl
@[simp] theorem State.setFlaw_out (s : State) (b : Nat) (f : Flaw) : (s.setFlaw b f).out = s.out := rfl
@[simp] theorem State.setFlaw_draws (s : State) (b : Nat) (f : Flaw) : (s.setFlaw b f).draws = s.draws := rfl
@[simp] theorem State.setFlaw_boot (s : State) (b : Nat) (f : Flaw) : (s.setFlaw b f).boot = s.boot := rfl
@[simp] theorem State.setFlaw_netError (s : State) (b : Nat) (f : Flaw) : (s.setFlaw b f).netError = s.netError := rfl
@[simp] theorem State.setFlaw_wtu (s : State) (b : Nat) (f : Flaw) : (s.setFlaw b f).wtu = s.wtu := rfl
@[simp] theorem State.setFlaw_cmp (s : State) (b : Nat) (f : Flaw) : (s.setFlaw b f).cmp = s.cmp := rfl
@[simp] theorem State.setFlaw_rp (s : State) (b : Nat) (f : Flaw) : (s.setFlaw b f).rp = s.rp := rfl
@[simp] theorem State.setFlaw_ts (s : State) (b : Nat) (f : Flaw) : (s.setFlaw b f).ts = s.ts := rfl
@[simp] theorem State.setFlaw_nt (s : State) (b : Nat) (f : Flaw) : (s.setFlaw b f).nt = s.nt := rfl
@[simp] theorem State.setFlaw_ftu (s : State) (b : Nat) (f : Flaw) : (s.setFlaw b f).ftu = s.ftu := rfl
@[simp] theorem State.setFlaw_dgu (s : State) (b : Nat) (f : Flaw) : (s.setFlaw b f).dgu = s.dgu := rfl
@[simp] theorem State.setFlaw_cin (s : State) (b : Nat) (f : Flaw) : (s.setFlaw b f).cin = s.cin := rfl
@[simp] theorem State.setFlaw_ipl (s : State) (b : Nat) (f : Flaw) : (s.setFlaw b f).ipl = s.ipl := rfl
@[simp] theorem State.setFlaw_rru (s : State) (b : Nat) (f : Flaw) : (s.setFlaw b f).rru = s.rru := rfl
@[simp] theorem State.setFlaw_dfq (s : State) (b : Nat) (f : Flaw) : (s.setFlaw b f).dfq = s.dfq := rfl
@[simp] theorem State.setFlaw_fab (s : State) (b : Nat) (f : Flaw) : (s.setFlaw b f).fab = s.fab := rfl
@[simp] theorem State.setFlaw_eng (s : State) (b : Nat) (f : Flaw) : (s.setFlaw b f).eng = s.eng := rfl
@[simp] theorem State.setFlaw_emem (s : State) (b : Nat) (f : Flaw) : (s.setFlaw b f).emem = s.emem := rfl
@[simp] theorem State.setFlaw_evf (s : State) (b : Nat) (f : Flaw) : (s.setFlaw b f).evf = s.evf := rfl
@[simp] theorem State.setFlaw_dma (s : State) (b : Nat) (f : Flaw) : (s.setFlaw b f).dma = s.dma := rfl
@[simp] theorem State.setFlaw_fvl (s : State) (b : Nat) (f : Flaw) : (s.setFlaw b f).fvl = s.fvl := rfl
@[simp] theorem State.setFlaw_hif (s : State) (b : Nat) (f : Flaw) : (s.setFlaw b f).hif = s.hif := rfl
@[simp] theorem State.setFlaw_net (s : State) (b : Nat) (f : Flaw) : (s.setFlaw b f).net = s.net := rfl
@[simp] theorem State.setFlaw_twn (s : State) (b : Nat) (f : Flaw) : (s.setFlaw b f).twn = s.twn := rfl
@[simp] theorem State.setFlaw_pmu (s : State) (b : Nat) (f : Flaw) : (s.setFlaw b f).pmu = s.pmu := rfl
@[simp] theorem State.setFlaw_sec (s : State) (b : Nat) (f : Flaw) : (s.setFlaw b f).sec = s.sec := rfl
@[simp] theorem State.setFlaw_cal (s : State) (b : Nat) (f : Flaw) : (s.setFlaw b f).cal = s.cal := rfl
@[simp] theorem State.setFlaw_pending (s : State) (b : Nat) (f : Flaw) : (s.setFlaw b f).pending = s.pending := rfl

/-! ### setByte -/

@[simp] theorem State.setByte_tempo (s : State) (d : Nat) (v : Byte) : (s.setByte d v).tempo = s.tempo := rfl
@[simp] theorem State.setByte_regs (s : State) (d : Nat) (v : Byte) : (s.setByte d v).regs = s.regs := rfl
@[simp] theorem State.setByte_past (s : State) (d : Nat) (v : Byte) : (s.setByte d v).past = s.past := rfl
@[simp] theorem State.setByte_latch (s : State) (d : Nat) (v : Byte) : (s.setByte d v).latch = s.latch := rfl
@[simp] theorem State.setByte_pendLow (s : State) (d : Nat) (v : Byte) : (s.setByte d v).pendLow = s.pendLow := rfl
@[simp] theorem State.setByte_logs (s : State) (d : Nat) (v : Byte) : (s.setByte d v).logs = s.logs := rfl
@[simp] theorem State.setByte_logLatch (s : State) (d : Nat) (v : Byte) : (s.setByte d v).logLatch = s.logLatch := rfl
@[simp] theorem State.setByte_presented (s : State) (d : Nat) (v : Byte) : (s.setByte d v).presented = s.presented := rfl
@[simp] theorem State.setByte_out (s : State) (d : Nat) (v : Byte) : (s.setByte d v).out = s.out := rfl
@[simp] theorem State.setByte_draws (s : State) (d : Nat) (v : Byte) : (s.setByte d v).draws = s.draws := rfl
@[simp] theorem State.setByte_boot (s : State) (d : Nat) (v : Byte) : (s.setByte d v).boot = s.boot := rfl
@[simp] theorem State.setByte_netError (s : State) (d : Nat) (v : Byte) : (s.setByte d v).netError = s.netError := rfl
@[simp] theorem State.setByte_wtu (s : State) (d : Nat) (v : Byte) : (s.setByte d v).wtu = s.wtu := rfl
@[simp] theorem State.setByte_cmp (s : State) (d : Nat) (v : Byte) : (s.setByte d v).cmp = s.cmp := rfl
@[simp] theorem State.setByte_rp (s : State) (d : Nat) (v : Byte) : (s.setByte d v).rp = s.rp := rfl
@[simp] theorem State.setByte_ts (s : State) (d : Nat) (v : Byte) : (s.setByte d v).ts = s.ts := rfl
@[simp] theorem State.setByte_nt (s : State) (d : Nat) (v : Byte) : (s.setByte d v).nt = s.nt := rfl
@[simp] theorem State.setByte_ftu (s : State) (d : Nat) (v : Byte) : (s.setByte d v).ftu = s.ftu := rfl
@[simp] theorem State.setByte_dgu (s : State) (d : Nat) (v : Byte) : (s.setByte d v).dgu = s.dgu := rfl
@[simp] theorem State.setByte_cin (s : State) (d : Nat) (v : Byte) : (s.setByte d v).cin = s.cin := rfl
@[simp] theorem State.setByte_ipl (s : State) (d : Nat) (v : Byte) : (s.setByte d v).ipl = s.ipl := rfl
@[simp] theorem State.setByte_rru (s : State) (d : Nat) (v : Byte) : (s.setByte d v).rru = s.rru := rfl
@[simp] theorem State.setByte_dfq (s : State) (d : Nat) (v : Byte) : (s.setByte d v).dfq = s.dfq := rfl
@[simp] theorem State.setByte_fab (s : State) (d : Nat) (v : Byte) : (s.setByte d v).fab = s.fab := rfl
@[simp] theorem State.setByte_eng (s : State) (d : Nat) (v : Byte) : (s.setByte d v).eng = s.eng := rfl
@[simp] theorem State.setByte_emem (s : State) (d : Nat) (v : Byte) : (s.setByte d v).emem = s.emem := rfl
@[simp] theorem State.setByte_evf (s : State) (d : Nat) (v : Byte) : (s.setByte d v).evf = s.evf := rfl
@[simp] theorem State.setByte_dma (s : State) (d : Nat) (v : Byte) : (s.setByte d v).dma = s.dma := rfl
@[simp] theorem State.setByte_fvl (s : State) (d : Nat) (v : Byte) : (s.setByte d v).fvl = s.fvl := rfl
@[simp] theorem State.setByte_hif (s : State) (d : Nat) (v : Byte) : (s.setByte d v).hif = s.hif := rfl
@[simp] theorem State.setByte_net (s : State) (d : Nat) (v : Byte) : (s.setByte d v).net = s.net := rfl
@[simp] theorem State.setByte_twn (s : State) (d : Nat) (v : Byte) : (s.setByte d v).twn = s.twn := rfl
@[simp] theorem State.setByte_pmu (s : State) (d : Nat) (v : Byte) : (s.setByte d v).pmu = s.pmu := rfl
@[simp] theorem State.setByte_sec (s : State) (d : Nat) (v : Byte) : (s.setByte d v).sec = s.sec := rfl
@[simp] theorem State.setByte_cal (s : State) (d : Nat) (v : Byte) : (s.setByte d v).cal = s.cal := rfl
@[simp] theorem State.setByte_pending (s : State) (d : Nat) (v : Byte) : (s.setByte d v).pending = s.pending := rfl

/-! ### setFvPort -/

@[simp] theorem State.setFvPort_tempo (s : State) (p : Nat) (v : FvlPort) : (s.setFvPort p v).tempo = s.tempo := rfl
@[simp] theorem State.setFvPort_regs (s : State) (p : Nat) (v : FvlPort) : (s.setFvPort p v).regs = s.regs := rfl
@[simp] theorem State.setFvPort_past (s : State) (p : Nat) (v : FvlPort) : (s.setFvPort p v).past = s.past := rfl
@[simp] theorem State.setFvPort_latch (s : State) (p : Nat) (v : FvlPort) : (s.setFvPort p v).latch = s.latch := rfl
@[simp] theorem State.setFvPort_pendLow (s : State) (p : Nat) (v : FvlPort) : (s.setFvPort p v).pendLow = s.pendLow := rfl
@[simp] theorem State.setFvPort_logs (s : State) (p : Nat) (v : FvlPort) : (s.setFvPort p v).logs = s.logs := rfl
@[simp] theorem State.setFvPort_logLatch (s : State) (p : Nat) (v : FvlPort) : (s.setFvPort p v).logLatch = s.logLatch := rfl
@[simp] theorem State.setFvPort_presented (s : State) (p : Nat) (v : FvlPort) : (s.setFvPort p v).presented = s.presented := rfl
@[simp] theorem State.setFvPort_out (s : State) (p : Nat) (v : FvlPort) : (s.setFvPort p v).out = s.out := rfl
@[simp] theorem State.setFvPort_draws (s : State) (p : Nat) (v : FvlPort) : (s.setFvPort p v).draws = s.draws := rfl
@[simp] theorem State.setFvPort_boot (s : State) (p : Nat) (v : FvlPort) : (s.setFvPort p v).boot = s.boot := rfl
@[simp] theorem State.setFvPort_netError (s : State) (p : Nat) (v : FvlPort) : (s.setFvPort p v).netError = s.netError := rfl
@[simp] theorem State.setFvPort_wtu (s : State) (p : Nat) (v : FvlPort) : (s.setFvPort p v).wtu = s.wtu := rfl
@[simp] theorem State.setFvPort_cmp (s : State) (p : Nat) (v : FvlPort) : (s.setFvPort p v).cmp = s.cmp := rfl
@[simp] theorem State.setFvPort_rp (s : State) (p : Nat) (v : FvlPort) : (s.setFvPort p v).rp = s.rp := rfl
@[simp] theorem State.setFvPort_ts (s : State) (p : Nat) (v : FvlPort) : (s.setFvPort p v).ts = s.ts := rfl
@[simp] theorem State.setFvPort_nt (s : State) (p : Nat) (v : FvlPort) : (s.setFvPort p v).nt = s.nt := rfl
@[simp] theorem State.setFvPort_ftu (s : State) (p : Nat) (v : FvlPort) : (s.setFvPort p v).ftu = s.ftu := rfl
@[simp] theorem State.setFvPort_dgu (s : State) (p : Nat) (v : FvlPort) : (s.setFvPort p v).dgu = s.dgu := rfl
@[simp] theorem State.setFvPort_cin (s : State) (p : Nat) (v : FvlPort) : (s.setFvPort p v).cin = s.cin := rfl
@[simp] theorem State.setFvPort_ipl (s : State) (p : Nat) (v : FvlPort) : (s.setFvPort p v).ipl = s.ipl := rfl
@[simp] theorem State.setFvPort_rru (s : State) (p : Nat) (v : FvlPort) : (s.setFvPort p v).rru = s.rru := rfl
@[simp] theorem State.setFvPort_dfq (s : State) (p : Nat) (v : FvlPort) : (s.setFvPort p v).dfq = s.dfq := rfl
@[simp] theorem State.setFvPort_fab (s : State) (p : Nat) (v : FvlPort) : (s.setFvPort p v).fab = s.fab := rfl
@[simp] theorem State.setFvPort_eng (s : State) (p : Nat) (v : FvlPort) : (s.setFvPort p v).eng = s.eng := rfl
@[simp] theorem State.setFvPort_emem (s : State) (p : Nat) (v : FvlPort) : (s.setFvPort p v).emem = s.emem := rfl
@[simp] theorem State.setFvPort_evf (s : State) (p : Nat) (v : FvlPort) : (s.setFvPort p v).evf = s.evf := rfl
@[simp] theorem State.setFvPort_dma (s : State) (p : Nat) (v : FvlPort) : (s.setFvPort p v).dma = s.dma := rfl
@[simp] theorem State.setFvPort_mem (s : State) (p : Nat) (v : FvlPort) : (s.setFvPort p v).mem = s.mem := rfl
@[simp] theorem State.setFvPort_hif (s : State) (p : Nat) (v : FvlPort) : (s.setFvPort p v).hif = s.hif := rfl
@[simp] theorem State.setFvPort_net (s : State) (p : Nat) (v : FvlPort) : (s.setFvPort p v).net = s.net := rfl
@[simp] theorem State.setFvPort_twn (s : State) (p : Nat) (v : FvlPort) : (s.setFvPort p v).twn = s.twn := rfl
@[simp] theorem State.setFvPort_pmu (s : State) (p : Nat) (v : FvlPort) : (s.setFvPort p v).pmu = s.pmu := rfl
@[simp] theorem State.setFvPort_sec (s : State) (p : Nat) (v : FvlPort) : (s.setFvPort p v).sec = s.sec := rfl
@[simp] theorem State.setFvPort_cal (s : State) (p : Nat) (v : FvlPort) : (s.setFvPort p v).cal = s.cal := rfl
@[simp] theorem State.setFvPort_pending (s : State) (p : Nat) (v : FvlPort) : (s.setFvPort p v).pending = s.pending := rfl

/-! ### put -/

@[simp] theorem State.put_tempo (s : State) (f : Fld) (v : Nat) : (s.put f v).tempo = s.tempo := by unfold State.put; split <;> rfl
@[simp] theorem State.put_past (s : State) (f : Fld) (v : Nat) : (s.put f v).past = s.past := by unfold State.put; split <;> rfl
@[simp] theorem State.put_latch (s : State) (f : Fld) (v : Nat) : (s.put f v).latch = s.latch := by unfold State.put; split <;> rfl
@[simp] theorem State.put_pendLow (s : State) (f : Fld) (v : Nat) : (s.put f v).pendLow = s.pendLow := by unfold State.put; split <;> rfl
@[simp] theorem State.put_logs (s : State) (f : Fld) (v : Nat) : (s.put f v).logs = s.logs := by unfold State.put; split <;> rfl
@[simp] theorem State.put_logLatch (s : State) (f : Fld) (v : Nat) : (s.put f v).logLatch = s.logLatch := by unfold State.put; split <;> rfl
@[simp] theorem State.put_presented (s : State) (f : Fld) (v : Nat) : (s.put f v).presented = s.presented := by unfold State.put; split <;> rfl
@[simp] theorem State.put_out (s : State) (f : Fld) (v : Nat) : (s.put f v).out = s.out := by unfold State.put; split <;> rfl
@[simp] theorem State.put_draws (s : State) (f : Fld) (v : Nat) : (s.put f v).draws = s.draws := by unfold State.put; split <;> rfl
@[simp] theorem State.put_boot (s : State) (f : Fld) (v : Nat) : (s.put f v).boot = s.boot := by unfold State.put; split <;> rfl
@[simp] theorem State.put_netError (s : State) (f : Fld) (v : Nat) : (s.put f v).netError = s.netError := by unfold State.put; split <;> rfl
@[simp] theorem State.put_wtu (s : State) (f : Fld) (v : Nat) : (s.put f v).wtu = s.wtu := by unfold State.put; split <;> rfl
@[simp] theorem State.put_cmp (s : State) (f : Fld) (v : Nat) : (s.put f v).cmp = s.cmp := by unfold State.put; split <;> rfl
@[simp] theorem State.put_rp (s : State) (f : Fld) (v : Nat) : (s.put f v).rp = s.rp := by unfold State.put; split <;> rfl
@[simp] theorem State.put_ts (s : State) (f : Fld) (v : Nat) : (s.put f v).ts = s.ts := by unfold State.put; split <;> rfl
@[simp] theorem State.put_nt (s : State) (f : Fld) (v : Nat) : (s.put f v).nt = s.nt := by unfold State.put; split <;> rfl
@[simp] theorem State.put_ftu (s : State) (f : Fld) (v : Nat) : (s.put f v).ftu = s.ftu := by unfold State.put; split <;> rfl
@[simp] theorem State.put_dgu (s : State) (f : Fld) (v : Nat) : (s.put f v).dgu = s.dgu := by unfold State.put; split <;> rfl
@[simp] theorem State.put_cin (s : State) (f : Fld) (v : Nat) : (s.put f v).cin = s.cin := by unfold State.put; split <;> rfl
@[simp] theorem State.put_ipl (s : State) (f : Fld) (v : Nat) : (s.put f v).ipl = s.ipl := by unfold State.put; split <;> rfl
@[simp] theorem State.put_rru (s : State) (f : Fld) (v : Nat) : (s.put f v).rru = s.rru := by unfold State.put; split <;> rfl
@[simp] theorem State.put_dfq (s : State) (f : Fld) (v : Nat) : (s.put f v).dfq = s.dfq := by unfold State.put; split <;> rfl
@[simp] theorem State.put_fab (s : State) (f : Fld) (v : Nat) : (s.put f v).fab = s.fab := by unfold State.put; split <;> rfl
@[simp] theorem State.put_eng (s : State) (f : Fld) (v : Nat) : (s.put f v).eng = s.eng := by unfold State.put; split <;> rfl
@[simp] theorem State.put_emem (s : State) (f : Fld) (v : Nat) : (s.put f v).emem = s.emem := by unfold State.put; split <;> rfl
@[simp] theorem State.put_evf (s : State) (f : Fld) (v : Nat) : (s.put f v).evf = s.evf := by unfold State.put; split <;> rfl
@[simp] theorem State.put_dma (s : State) (f : Fld) (v : Nat) : (s.put f v).dma = s.dma := by unfold State.put; split <;> rfl
@[simp] theorem State.put_mem (s : State) (f : Fld) (v : Nat) : (s.put f v).mem = s.mem := by unfold State.put; split <;> rfl
@[simp] theorem State.put_fvl (s : State) (f : Fld) (v : Nat) : (s.put f v).fvl = s.fvl := by unfold State.put; split <;> rfl
@[simp] theorem State.put_hif (s : State) (f : Fld) (v : Nat) : (s.put f v).hif = s.hif := by unfold State.put; split <;> rfl
@[simp] theorem State.put_net (s : State) (f : Fld) (v : Nat) : (s.put f v).net = s.net := by unfold State.put; split <;> rfl
@[simp] theorem State.put_twn (s : State) (f : Fld) (v : Nat) : (s.put f v).twn = s.twn := by unfold State.put; split <;> rfl
@[simp] theorem State.put_pmu (s : State) (f : Fld) (v : Nat) : (s.put f v).pmu = s.pmu := by unfold State.put; split <;> rfl
@[simp] theorem State.put_sec (s : State) (f : Fld) (v : Nat) : (s.put f v).sec = s.sec := by unfold State.put; split <;> rfl
@[simp] theorem State.put_cal (s : State) (f : Fld) (v : Nat) : (s.put f v).cal = s.cal := by unfold State.put; split <;> rfl
@[simp] theorem State.put_pending (s : State) (f : Fld) (v : Nat) : (s.put f v).pending = s.pending := by unfold State.put; split <;> rfl

/-! ### bump and draw -/

@[simp] theorem State.bump_tempo (s : State) (f : Fld) (n : Nat) : (s.bump f n).tempo = s.tempo := State.put_tempo _ _ _
@[simp] theorem State.bump_past (s : State) (f : Fld) (n : Nat) : (s.bump f n).past = s.past := State.put_past _ _ _
@[simp] theorem State.bump_latch (s : State) (f : Fld) (n : Nat) : (s.bump f n).latch = s.latch := State.put_latch _ _ _
@[simp] theorem State.bump_pendLow (s : State) (f : Fld) (n : Nat) : (s.bump f n).pendLow = s.pendLow := State.put_pendLow _ _ _
@[simp] theorem State.bump_logs (s : State) (f : Fld) (n : Nat) : (s.bump f n).logs = s.logs := State.put_logs _ _ _
@[simp] theorem State.bump_logLatch (s : State) (f : Fld) (n : Nat) : (s.bump f n).logLatch = s.logLatch := State.put_logLatch _ _ _
@[simp] theorem State.bump_presented (s : State) (f : Fld) (n : Nat) : (s.bump f n).presented = s.presented := State.put_presented _ _ _
@[simp] theorem State.bump_out (s : State) (f : Fld) (n : Nat) : (s.bump f n).out = s.out := State.put_out _ _ _
@[simp] theorem State.bump_draws (s : State) (f : Fld) (n : Nat) : (s.bump f n).draws = s.draws := State.put_draws _ _ _
@[simp] theorem State.bump_boot (s : State) (f : Fld) (n : Nat) : (s.bump f n).boot = s.boot := State.put_boot _ _ _
@[simp] theorem State.bump_netError (s : State) (f : Fld) (n : Nat) : (s.bump f n).netError = s.netError := State.put_netError _ _ _
@[simp] theorem State.bump_wtu (s : State) (f : Fld) (n : Nat) : (s.bump f n).wtu = s.wtu := State.put_wtu _ _ _
@[simp] theorem State.bump_cmp (s : State) (f : Fld) (n : Nat) : (s.bump f n).cmp = s.cmp := State.put_cmp _ _ _
@[simp] theorem State.bump_rp (s : State) (f : Fld) (n : Nat) : (s.bump f n).rp = s.rp := State.put_rp _ _ _
@[simp] theorem State.bump_ts (s : State) (f : Fld) (n : Nat) : (s.bump f n).ts = s.ts := State.put_ts _ _ _
@[simp] theorem State.bump_nt (s : State) (f : Fld) (n : Nat) : (s.bump f n).nt = s.nt := State.put_nt _ _ _
@[simp] theorem State.bump_ftu (s : State) (f : Fld) (n : Nat) : (s.bump f n).ftu = s.ftu := State.put_ftu _ _ _
@[simp] theorem State.bump_dgu (s : State) (f : Fld) (n : Nat) : (s.bump f n).dgu = s.dgu := State.put_dgu _ _ _
@[simp] theorem State.bump_cin (s : State) (f : Fld) (n : Nat) : (s.bump f n).cin = s.cin := State.put_cin _ _ _
@[simp] theorem State.bump_ipl (s : State) (f : Fld) (n : Nat) : (s.bump f n).ipl = s.ipl := State.put_ipl _ _ _
@[simp] theorem State.bump_rru (s : State) (f : Fld) (n : Nat) : (s.bump f n).rru = s.rru := State.put_rru _ _ _
@[simp] theorem State.bump_dfq (s : State) (f : Fld) (n : Nat) : (s.bump f n).dfq = s.dfq := State.put_dfq _ _ _
@[simp] theorem State.bump_fab (s : State) (f : Fld) (n : Nat) : (s.bump f n).fab = s.fab := State.put_fab _ _ _
@[simp] theorem State.bump_eng (s : State) (f : Fld) (n : Nat) : (s.bump f n).eng = s.eng := State.put_eng _ _ _
@[simp] theorem State.bump_emem (s : State) (f : Fld) (n : Nat) : (s.bump f n).emem = s.emem := State.put_emem _ _ _
@[simp] theorem State.bump_evf (s : State) (f : Fld) (n : Nat) : (s.bump f n).evf = s.evf := State.put_evf _ _ _
@[simp] theorem State.bump_dma (s : State) (f : Fld) (n : Nat) : (s.bump f n).dma = s.dma := State.put_dma _ _ _
@[simp] theorem State.bump_mem (s : State) (f : Fld) (n : Nat) : (s.bump f n).mem = s.mem := State.put_mem _ _ _
@[simp] theorem State.bump_fvl (s : State) (f : Fld) (n : Nat) : (s.bump f n).fvl = s.fvl := State.put_fvl _ _ _
@[simp] theorem State.bump_hif (s : State) (f : Fld) (n : Nat) : (s.bump f n).hif = s.hif := State.put_hif _ _ _
@[simp] theorem State.bump_net (s : State) (f : Fld) (n : Nat) : (s.bump f n).net = s.net := State.put_net _ _ _
@[simp] theorem State.bump_twn (s : State) (f : Fld) (n : Nat) : (s.bump f n).twn = s.twn := State.put_twn _ _ _
@[simp] theorem State.bump_pmu (s : State) (f : Fld) (n : Nat) : (s.bump f n).pmu = s.pmu := State.put_pmu _ _ _
@[simp] theorem State.bump_sec (s : State) (f : Fld) (n : Nat) : (s.bump f n).sec = s.sec := State.put_sec _ _ _
@[simp] theorem State.bump_cal (s : State) (f : Fld) (n : Nat) : (s.bump f n).cal = s.cal := State.put_cal _ _ _
@[simp] theorem State.bump_pending (s : State) (f : Fld) (n : Nat) : (s.bump f n).pending = s.pending := State.put_pending _ _ _
@[simp] theorem State.flag_tempo (s : State) (f : Fld) : (s.flag f).tempo = s.tempo := State.put_tempo _ _ _
@[simp] theorem State.flagBits_tempo (s : State) (f : Fld) (m : Nat) : (s.flagBits f m).tempo = s.tempo := State.put_tempo _ _ _
@[simp] theorem State.flag_latch (s : State) (f : Fld) : (s.flag f).latch = s.latch := State.put_latch _ _ _
@[simp] theorem State.flagBits_latch (s : State) (f : Fld) (m : Nat) : (s.flagBits f m).latch = s.latch := State.put_latch _ _ _
@[simp] theorem State.flag_pendLow (s : State) (f : Fld) : (s.flag f).pendLow = s.pendLow := State.put_pendLow _ _ _
@[simp] theorem State.flagBits_pendLow (s : State) (f : Fld) (m : Nat) : (s.flagBits f m).pendLow = s.pendLow := State.put_pendLow _ _ _
@[simp] theorem State.flag_logs (s : State) (f : Fld) : (s.flag f).logs = s.logs := State.put_logs _ _ _
@[simp] theorem State.flagBits_logs (s : State) (f : Fld) (m : Nat) : (s.flagBits f m).logs = s.logs := State.put_logs _ _ _
@[simp] theorem State.flag_logLatch (s : State) (f : Fld) : (s.flag f).logLatch = s.logLatch := State.put_logLatch _ _ _
@[simp] theorem State.flagBits_logLatch (s : State) (f : Fld) (m : Nat) : (s.flagBits f m).logLatch = s.logLatch := State.put_logLatch _ _ _
@[simp] theorem State.flag_presented (s : State) (f : Fld) : (s.flag f).presented = s.presented := State.put_presented _ _ _
@[simp] theorem State.flagBits_presented (s : State) (f : Fld) (m : Nat) : (s.flagBits f m).presented = s.presented := State.put_presented _ _ _
@[simp] theorem State.flag_out (s : State) (f : Fld) : (s.flag f).out = s.out := State.put_out _ _ _
@[simp] theorem State.flagBits_out (s : State) (f : Fld) (m : Nat) : (s.flagBits f m).out = s.out := State.put_out _ _ _
@[simp] theorem State.flag_draws (s : State) (f : Fld) : (s.flag f).draws = s.draws := State.put_draws _ _ _
@[simp] theorem State.flagBits_draws (s : State) (f : Fld) (m : Nat) : (s.flagBits f m).draws = s.draws := State.put_draws _ _ _
@[simp] theorem State.flag_boot (s : State) (f : Fld) : (s.flag f).boot = s.boot := State.put_boot _ _ _
@[simp] theorem State.flagBits_boot (s : State) (f : Fld) (m : Nat) : (s.flagBits f m).boot = s.boot := State.put_boot _ _ _
@[simp] theorem State.flag_netError (s : State) (f : Fld) : (s.flag f).netError = s.netError := State.put_netError _ _ _
@[simp] theorem State.flagBits_netError (s : State) (f : Fld) (m : Nat) : (s.flagBits f m).netError = s.netError := State.put_netError _ _ _
@[simp] theorem State.flag_wtu (s : State) (f : Fld) : (s.flag f).wtu = s.wtu := State.put_wtu _ _ _
@[simp] theorem State.flagBits_wtu (s : State) (f : Fld) (m : Nat) : (s.flagBits f m).wtu = s.wtu := State.put_wtu _ _ _
@[simp] theorem State.flag_cmp (s : State) (f : Fld) : (s.flag f).cmp = s.cmp := State.put_cmp _ _ _
@[simp] theorem State.flagBits_cmp (s : State) (f : Fld) (m : Nat) : (s.flagBits f m).cmp = s.cmp := State.put_cmp _ _ _
@[simp] theorem State.flag_rp (s : State) (f : Fld) : (s.flag f).rp = s.rp := State.put_rp _ _ _
@[simp] theorem State.flagBits_rp (s : State) (f : Fld) (m : Nat) : (s.flagBits f m).rp = s.rp := State.put_rp _ _ _
@[simp] theorem State.flag_ts (s : State) (f : Fld) : (s.flag f).ts = s.ts := State.put_ts _ _ _
@[simp] theorem State.flagBits_ts (s : State) (f : Fld) (m : Nat) : (s.flagBits f m).ts = s.ts := State.put_ts _ _ _
@[simp] theorem State.flag_nt (s : State) (f : Fld) : (s.flag f).nt = s.nt := State.put_nt _ _ _
@[simp] theorem State.flagBits_nt (s : State) (f : Fld) (m : Nat) : (s.flagBits f m).nt = s.nt := State.put_nt _ _ _
@[simp] theorem State.flag_ftu (s : State) (f : Fld) : (s.flag f).ftu = s.ftu := State.put_ftu _ _ _
@[simp] theorem State.flagBits_ftu (s : State) (f : Fld) (m : Nat) : (s.flagBits f m).ftu = s.ftu := State.put_ftu _ _ _
@[simp] theorem State.flag_dgu (s : State) (f : Fld) : (s.flag f).dgu = s.dgu := State.put_dgu _ _ _
@[simp] theorem State.flagBits_dgu (s : State) (f : Fld) (m : Nat) : (s.flagBits f m).dgu = s.dgu := State.put_dgu _ _ _
@[simp] theorem State.flag_cin (s : State) (f : Fld) : (s.flag f).cin = s.cin := State.put_cin _ _ _
@[simp] theorem State.flagBits_cin (s : State) (f : Fld) (m : Nat) : (s.flagBits f m).cin = s.cin := State.put_cin _ _ _
@[simp] theorem State.flag_ipl (s : State) (f : Fld) : (s.flag f).ipl = s.ipl := State.put_ipl _ _ _
@[simp] theorem State.flagBits_ipl (s : State) (f : Fld) (m : Nat) : (s.flagBits f m).ipl = s.ipl := State.put_ipl _ _ _
@[simp] theorem State.flag_rru (s : State) (f : Fld) : (s.flag f).rru = s.rru := State.put_rru _ _ _
@[simp] theorem State.flagBits_rru (s : State) (f : Fld) (m : Nat) : (s.flagBits f m).rru = s.rru := State.put_rru _ _ _
@[simp] theorem State.flag_dfq (s : State) (f : Fld) : (s.flag f).dfq = s.dfq := State.put_dfq _ _ _
@[simp] theorem State.flagBits_dfq (s : State) (f : Fld) (m : Nat) : (s.flagBits f m).dfq = s.dfq := State.put_dfq _ _ _
@[simp] theorem State.flag_fab (s : State) (f : Fld) : (s.flag f).fab = s.fab := State.put_fab _ _ _
@[simp] theorem State.flagBits_fab (s : State) (f : Fld) (m : Nat) : (s.flagBits f m).fab = s.fab := State.put_fab _ _ _
@[simp] theorem State.flag_eng (s : State) (f : Fld) : (s.flag f).eng = s.eng := State.put_eng _ _ _
@[simp] theorem State.flagBits_eng (s : State) (f : Fld) (m : Nat) : (s.flagBits f m).eng = s.eng := State.put_eng _ _ _
@[simp] theorem State.flag_emem (s : State) (f : Fld) : (s.flag f).emem = s.emem := State.put_emem _ _ _
@[simp] theorem State.flagBits_emem (s : State) (f : Fld) (m : Nat) : (s.flagBits f m).emem = s.emem := State.put_emem _ _ _
@[simp] theorem State.flag_evf (s : State) (f : Fld) : (s.flag f).evf = s.evf := State.put_evf _ _ _
@[simp] theorem State.flagBits_evf (s : State) (f : Fld) (m : Nat) : (s.flagBits f m).evf = s.evf := State.put_evf _ _ _
@[simp] theorem State.flag_dma (s : State) (f : Fld) : (s.flag f).dma = s.dma := State.put_dma _ _ _
@[simp] theorem State.flagBits_dma (s : State) (f : Fld) (m : Nat) : (s.flagBits f m).dma = s.dma := State.put_dma _ _ _
@[simp] theorem State.flag_mem (s : State) (f : Fld) : (s.flag f).mem = s.mem := State.put_mem _ _ _
@[simp] theorem State.flagBits_mem (s : State) (f : Fld) (m : Nat) : (s.flagBits f m).mem = s.mem := State.put_mem _ _ _
@[simp] theorem State.flag_fvl (s : State) (f : Fld) : (s.flag f).fvl = s.fvl := State.put_fvl _ _ _
@[simp] theorem State.flagBits_fvl (s : State) (f : Fld) (m : Nat) : (s.flagBits f m).fvl = s.fvl := State.put_fvl _ _ _
@[simp] theorem State.flag_hif (s : State) (f : Fld) : (s.flag f).hif = s.hif := State.put_hif _ _ _
@[simp] theorem State.flagBits_hif (s : State) (f : Fld) (m : Nat) : (s.flagBits f m).hif = s.hif := State.put_hif _ _ _
@[simp] theorem State.flag_net (s : State) (f : Fld) : (s.flag f).net = s.net := State.put_net _ _ _
@[simp] theorem State.flagBits_net (s : State) (f : Fld) (m : Nat) : (s.flagBits f m).net = s.net := State.put_net _ _ _
@[simp] theorem State.flag_twn (s : State) (f : Fld) : (s.flag f).twn = s.twn := State.put_twn _ _ _
@[simp] theorem State.flagBits_twn (s : State) (f : Fld) (m : Nat) : (s.flagBits f m).twn = s.twn := State.put_twn _ _ _
@[simp] theorem State.flag_pmu (s : State) (f : Fld) : (s.flag f).pmu = s.pmu := State.put_pmu _ _ _
@[simp] theorem State.flagBits_pmu (s : State) (f : Fld) (m : Nat) : (s.flagBits f m).pmu = s.pmu := State.put_pmu _ _ _
@[simp] theorem State.flag_sec (s : State) (f : Fld) : (s.flag f).sec = s.sec := State.put_sec _ _ _
@[simp] theorem State.flagBits_sec (s : State) (f : Fld) (m : Nat) : (s.flagBits f m).sec = s.sec := State.put_sec _ _ _
@[simp] theorem State.flag_cal (s : State) (f : Fld) : (s.flag f).cal = s.cal := State.put_cal _ _ _
@[simp] theorem State.flagBits_cal (s : State) (f : Fld) (m : Nat) : (s.flagBits f m).cal = s.cal := State.put_cal _ _ _
@[simp] theorem State.flag_pending (s : State) (f : Fld) : (s.flag f).pending = s.pending := State.put_pending _ _ _
@[simp] theorem State.flagBits_pending (s : State) (f : Fld) (m : Nat) : (s.flagBits f m).pending = s.pending := State.put_pending _ _ _
@[simp] theorem State.draw_tempo (s : State) : s.draw.2.tempo = s.tempo := rfl
@[simp] theorem State.draw_regs (s : State) : s.draw.2.regs = s.regs := rfl
@[simp] theorem State.draw_past (s : State) : s.draw.2.past = s.past := rfl
@[simp] theorem State.draw_latch (s : State) : s.draw.2.latch = s.latch := rfl
@[simp] theorem State.draw_pendLow (s : State) : s.draw.2.pendLow = s.pendLow := rfl
@[simp] theorem State.draw_logs (s : State) : s.draw.2.logs = s.logs := rfl
@[simp] theorem State.draw_logLatch (s : State) : s.draw.2.logLatch = s.logLatch := rfl
@[simp] theorem State.draw_presented (s : State) : s.draw.2.presented = s.presented := rfl
@[simp] theorem State.draw_out (s : State) : s.draw.2.out = s.out := rfl
@[simp] theorem State.draw_boot (s : State) : s.draw.2.boot = s.boot := rfl
@[simp] theorem State.draw_netError (s : State) : s.draw.2.netError = s.netError := rfl
@[simp] theorem State.draw_wtu (s : State) : s.draw.2.wtu = s.wtu := rfl
@[simp] theorem State.draw_cmp (s : State) : s.draw.2.cmp = s.cmp := rfl
@[simp] theorem State.draw_rp (s : State) : s.draw.2.rp = s.rp := rfl
@[simp] theorem State.draw_ts (s : State) : s.draw.2.ts = s.ts := rfl
@[simp] theorem State.draw_nt (s : State) : s.draw.2.nt = s.nt := rfl
@[simp] theorem State.draw_ftu (s : State) : s.draw.2.ftu = s.ftu := rfl
@[simp] theorem State.draw_dgu (s : State) : s.draw.2.dgu = s.dgu := rfl
@[simp] theorem State.draw_cin (s : State) : s.draw.2.cin = s.cin := rfl
@[simp] theorem State.draw_ipl (s : State) : s.draw.2.ipl = s.ipl := rfl
@[simp] theorem State.draw_rru (s : State) : s.draw.2.rru = s.rru := rfl
@[simp] theorem State.draw_dfq (s : State) : s.draw.2.dfq = s.dfq := rfl
@[simp] theorem State.draw_fab (s : State) : s.draw.2.fab = s.fab := rfl
@[simp] theorem State.draw_eng (s : State) : s.draw.2.eng = s.eng := rfl
@[simp] theorem State.draw_emem (s : State) : s.draw.2.emem = s.emem := rfl
@[simp] theorem State.draw_evf (s : State) : s.draw.2.evf = s.evf := rfl
@[simp] theorem State.draw_dma (s : State) : s.draw.2.dma = s.dma := rfl
@[simp] theorem State.draw_mem (s : State) : s.draw.2.mem = s.mem := rfl
@[simp] theorem State.draw_fvl (s : State) : s.draw.2.fvl = s.fvl := rfl
@[simp] theorem State.draw_hif (s : State) : s.draw.2.hif = s.hif := rfl
@[simp] theorem State.draw_net (s : State) : s.draw.2.net = s.net := rfl
@[simp] theorem State.draw_twn (s : State) : s.draw.2.twn = s.twn := rfl
@[simp] theorem State.draw_pmu (s : State) : s.draw.2.pmu = s.pmu := rfl
@[simp] theorem State.draw_sec (s : State) : s.draw.2.sec = s.sec := rfl
@[simp] theorem State.draw_cal (s : State) : s.draw.2.cal = s.cal := rfl
@[simp] theorem State.draw_pending (s : State) : s.draw.2.pending = s.pending := rfl

end Sys2Proof.Machine
end

