-- ==== Sys2Proof/Laws/Ops.lean ====
section
/-! SUPPORT. What the named operations do: registers and their fields read back what was put there and every other one stays;
an event and an error change the registers, the events presented, the logs and the NET's error bit, and nothing else. -/

namespace Sys2Proof.Machine

/-! ### Register words and fields -/

theorem State.word_lt (s : State) (off : Nat) : s.word off < 2 ^ 32 := (Sparse.get regReset s.regs off).isLt

theorem State.word_setWord (s : State) (off v j : Nat) :
    (s.setWord off v).word j = if j = off then v % 2 ^ 32 else s.word j := by
  unfold State.word State.setWord
  rw [Sparse.get_set]
  by_cases h : j = off <;> simp [h]

theorem State.word_setWord_other (s : State) (off v j : Nat) (h : j ≠ off) : (s.setWord off v).word j = s.word j := by
  simp [State.word_setWord, h]

/-- Whether the word at `j` holds part of a field. -/
def Fld.covers (f : Fld) (j : Nat) : Bool := j == f.off || (decide (32 ≤ f.hi) && j == f.off + 4)

/-- A word that holds no part of the field stays. -/
theorem State.word_put_other (s : State) (f : Fld) (v j : Nat) (h : f.covers j = false) : (s.put f v).word j = s.word j := by
  simp [Fld.covers] at h
  unfold State.put
  by_cases hw : f.hi < 32
  · simp [hw, State.word_setWord, h.1]
  · have h2 : j ≠ f.off + 4 := h.2 (by omega)
    simp [hw, State.word_setWord, h.1, h2]

/-- A field in other words reads as before. -/
theorem State.get_put_other (s : State) (f g : Fld) (v : Nat) (h1 : f.covers g.off = false)
    (h2 : 32 ≤ g.hi → f.covers (g.off + 4) = false) : (s.put f v).get g = s.get g := by
  unfold State.get State.raw
  rw [State.word_put_other s f v g.off h1]
  by_cases hg : g.hi < 32
  · simp [hg]
  · simp only [hg, if_false]
    rw [State.word_put_other s f v (g.off + 4) (h2 (by omega))]

/-- A field within one word reads back the low bits of what was put there. -/
theorem State.get_put_same (s : State) (f : Fld) (v : Nat) (hl : f.lo ≤ f.hi) (hh : f.hi < 32) :
    (s.put f v).get f = v % 2 ^ (f.hi - f.lo + 1) := by
  have hlt := setBits_lt (s.raw f) f.hi f.lo v hl 32 hh (by simp only [State.raw, hh, if_true]; exact s.word_lt _)
  unfold State.put State.get
  simp only [hh, if_true]
  rw [State.raw]
  simp only [hh, if_true]
  rw [State.word_setWord]
  simp only [if_true]
  rw [Nat.mod_eq_of_lt hlt, bits_setBits_same _ _ _ _ hl]

/-- A field that reaches into the high word reads back the low bits of what was put there. -/
theorem State.get_put_same_wide (s : State) (f : Fld) (v : Nat) (hl : f.lo ≤ f.hi) (hh : ¬ f.hi < 32) (h64 : f.hi < 64) :
    (s.put f v).get f = v % 2 ^ (f.hi - f.lo + 1) := by
  have hraw : s.raw f < 2 ^ 64 := by
    have a := s.word_lt f.off
    have b := s.word_lt (f.off + 4)
    simp only [State.raw, hh, if_false]; omega
  have hlt := setBits_lt (s.raw f) f.hi f.lo v hl 64 h64 hraw
  unfold State.put State.get
  simp only [hh, if_false]
  generalize hw : setBits (s.raw f) f.hi f.lo v = w at hlt ⊢
  have e : ((s.setWord f.off (w % 2 ^ 32)).setWord (f.off + 4) (w / 2 ^ 32)).raw f = w := by
    unfold State.raw
    simp only [hh, if_false, State.word_setWord]
    have : f.off ≠ f.off + 4 := by omega
    simp only [this, if_true, if_false]
    omega
  rw [e, ← hw, bits_setBits_same _ _ _ _ hl]

/-- A field above, in the same word, reads as before. -/
theorem State.get_put_above (s : State) (f g : Fld) (v : Nat) (ho : g.off = f.off) (hl : f.lo ≤ f.hi) (hf : f.hi < g.lo)
    (hh : f.hi < 32) (hg : g.hi < 32) : (s.put f v).get g = s.get g := by
  have hlt := setBits_lt (s.raw f) f.hi f.lo v hl 32 hh (by simp only [State.raw, hh, if_true]; exact s.word_lt _)
  unfold State.put State.get
  simp only [hh, if_true]
  have e : (s.setWord f.off (setBits (s.raw f) f.hi f.lo v)).raw g = setBits (s.raw f) f.hi f.lo v := by
    simp only [State.raw, hg, if_true, State.word_setWord, ho]
    exact Nat.mod_eq_of_lt hlt
  rw [e, bits_setBits_above _ _ _ _ _ _ hl hf]
  simp only [State.raw, hh, hg, if_true, ho]

/-- A field below, in the same word, reads as before. -/
theorem State.get_put_below (s : State) (f g : Fld) (v : Nat) (ho : g.off = f.off) (hl : f.lo ≤ f.hi) (hf : g.hi < f.lo)
    (hh : f.hi < 32) (hgl : g.lo ≤ g.hi) : (s.put f v).get g = s.get g := by
  have hg : g.hi < 32 := by omega
  have hlt := setBits_lt (s.raw f) f.hi f.lo v hl 32 hh (by simp only [State.raw, hh, if_true]; exact s.word_lt _)
  unfold State.put State.get
  simp only [hh, if_true]
  have e : (s.setWord f.off (setBits (s.raw f) f.hi f.lo v)).raw g = setBits (s.raw f) f.hi f.lo v := by
    simp only [State.raw, hg, if_true, State.word_setWord, ho]
    exact Nat.mod_eq_of_lt hlt
  rw [e, bits_setBits_below _ _ _ _ _ _ hl hf hgl]
  simp only [State.raw, hh, hg, if_true, ho]

/-- A one-bit field that was set is on. -/
theorem State.on_put_one (s : State) (f : Fld) (h : f.hi = f.lo) (hh : f.hi < 32) : (s.put f 1).on f = true := by
  unfold State.on
  rw [State.get_put_same s f 1 (by omega) hh]
  simp [h]

/-- A one-bit field that was cleared is off. -/
theorem State.on_put_zero (s : State) (f : Fld) (h : f.hi = f.lo) (hh : f.hi < 32) : (s.put f 0).on f = false := by
  unfold State.on
  rw [State.get_put_same s f 0 (by omega) hh]
  simp

/-! A flag set by hardware is the field put to 1; what stood before the cycle is no register. -/

theorem State.word_putPast (s : State) (f : Fld) (v j : Nat) : (s.putPast f v).word j = s.word j := rfl

theorem State.word_flag (s : State) (f : Fld) (j : Nat) : (s.flag f).word j = (s.put f 1).word j := rfl

theorem State.get_flag (s : State) (f g : Fld) : (s.flag f).get g = (s.put f 1).get g := rfl

theorem State.on_flag (s : State) (f g : Fld) : (s.flag f).on g = (s.put f 1).on g := rfl

theorem State.word_flag_other (s : State) (f : Fld) (j : Nat) (h : f.covers j = false) : (s.flag f).word j = s.word j :=
  State.word_put_other s f 1 j h

/-- The register file keeps its canonical form. -/
theorem State.setWord_regs_wf (s : State) (off v : Nat) (h : Sparse.wf regReset s.regs = true) :
    Sparse.wf regReset (s.setWord off v).regs = true := Sparse.wf_set _ _ _ _ h

theorem State.put_regs_wf (s : State) (f : Fld) (v : Nat) (h : Sparse.wf regReset s.regs = true) :
    Sparse.wf regReset (s.put f v).regs = true := by
  unfold State.put
  split
  · exact State.setWord_regs_wf _ _ _ h
  · exact State.setWord_regs_wf _ _ _ (State.setWord_regs_wf _ _ _ h)

/-! ### Events -/

/-- A state that differs from another in its registers, their past and presented events only. -/
def State.Raised (s t : State) : Prop := ∃ p r q, t = { s with presented := p, regs := r, past := q }

theorem State.Raised.rfl' (s : State) : s.Raised s := ⟨s.presented, s.regs, s.past, rfl⟩

theorem State.Raised.trans {a b c : State} (h : a.Raised b) (k : b.Raised c) : a.Raised c := by
  obtain ⟨p, r, q, rfl⟩ := h
  obtain ⟨p', r', q', rfl⟩ := k
  exact ⟨p', r', q', rfl⟩

theorem State.Raised.put (s : State) (f : Fld) (v : Nat) : s.Raised (s.put f v) := by
  refine ⟨s.presented, (s.put f v).regs, s.past, ?_⟩
  unfold State.put
  split <;> rfl

theorem State.Raised.putPast (s : State) (f : Fld) (v : Nat) : s.Raised (s.putPast f v) :=
  ⟨s.presented, s.regs, (s.putPast f v).past, rfl⟩

theorem State.Raised.flag (s : State) (f : Fld) : s.Raised (s.flag f) :=
  (State.Raised.put _ _ _).trans (State.Raised.putPast _ _ _)

theorem State.Raised.flagBits (s : State) (f : Fld) (m : Nat) : s.Raised (s.flagBits f m) :=
  (State.Raised.put _ _ _).trans (State.Raised.putPast _ _ _)

theorem State.Raised.foldl {α : Type} (f : State → α → State) (h : ∀ s a, State.Raised s (f s a)) (l : List α) (s : State) :
    s.Raised (l.foldl f s) := by
  induction l generalizing s with
  | nil => exact State.Raised.rfl' s
  | cons a l ih => exact (h s a).trans (ih _)

theorem State.Raised.raiseAux (n : Nat) (s : State) (src : Nat) : s.Raised (s.raiseAux n src) := by
  induction n generalizing s src with
  | zero =>
    unfold State.raiseAux
    split
    · exact State.Raised.rfl' s
    · exact ⟨_, s.regs, s.past, rfl⟩
  | succ n ih =>
    unfold State.raiseAux
    split
    · exact State.Raised.rfl' s
    · refine State.Raised.trans (b := { s with presented := s.presented ++ [(src, s.now)] }) ⟨_, s.regs, s.past, rfl⟩ ?_
      apply State.Raised.foldl
      intro s c
      dsimp only
      split
      · exact ((State.Raised.put _ _ _).trans (State.Raised.flagBits _ _ _)).trans (ih _ _)
      · exact State.Raised.put _ _ _

/-- What an event does: it is presented, and PMU counters may count it; nothing else changes. -/
theorem State.Raised.raise (s : State) (src : Nat) : s.Raised (s.raise src) := State.Raised.raiseAux 33 s src

theorem State.Raised.bump (s : State) (f : Fld) (n : Nat) : s.Raised (s.bump f n) := State.Raised.put _ _ _

theorem State.Raised.pmuWrap (s : State) (c : Nat) : s.Raised (s.pmuWrap c) :=
  ((State.Raised.put _ _ _).trans (State.Raised.flagBits _ _ _)).trans (State.Raised.raise _ _)

theorem State.Raised.tally (s : State) (u i e n : Nat) : s.Raised (s.tally u i e n) := by
  unfold State.tally
  apply State.Raised.foldl
  intro s c
  dsimp only
  split
  · exact (State.Raised.pmuWrap _ _).trans (State.Raised.put _ _ _)
  · exact State.Raised.put _ _ _

/-! ### Errors -/

/-- A state that differs from another in its registers, their past, presented events, logs and the NET's error bit only. -/
def State.Logged (s t : State) : Prop :=
  ∃ p r l n q, t = { s with presented := p, regs := r, logs := l, netError := n, past := q }

theorem State.Logged.rfl' (s : State) : s.Logged s := ⟨s.presented, s.regs, s.logs, s.netError, s.past, rfl⟩

theorem State.Logged.trans {a b c : State} (h : a.Logged b) (k : b.Logged c) : a.Logged c := by
  obtain ⟨p, r, l, n, q, rfl⟩ := h
  obtain ⟨p', r', l', n', q', rfl⟩ := k
  exact ⟨p', r', l', n', q', rfl⟩

theorem State.Raised.logged {a b : State} (h : a.Raised b) : a.Logged b := by
  obtain ⟨p, r, q, rfl⟩ := h
  exact ⟨p, r, a.logs, a.netError, q, rfl⟩

theorem State.Logged.put (s : State) (f : Fld) (v : Nat) : s.Logged (s.put f v) := (State.Raised.put s f v).logged

theorem State.Logged.logPush (s : State) (ring cyc code tempo : Nat) (d : List Nat) : s.Logged (s.logPush ring cyc code tempo d) := by
  have h : ∀ l q, s.Logged { s with logs := l, past := q } := fun l q => ⟨s.presented, s.regs, l, s.netError, q, rfl⟩
  unfold State.logPush
  dsimp only
  split
  · exact (((h _ _).trans (State.Raised.bump _ _ _).logged).trans (State.Raised.flag _ _).logged).trans (State.Raised.bump _ _ _).logged
  · exact (h _ _).trans (State.Raised.bump _ _ _).logged

/-- What an error does: status bit, log entry and event; nothing but registers, events, logs and the NET's bit changes. -/
theorem State.Logged.logErr (s : State) (e : Site) (cls cause : Nat) (d : List Nat) : s.Logged (s.logErr e cls cause d) := by
  unfold State.logErr
  dsimp only
  refine State.Logged.trans ?_ (State.Raised.raise _ _).logged
  refine State.Logged.trans ?_ (State.Logged.logPush _ _ _ _ _ _)
  split
  · exact (State.Raised.flag _ _).logged
  · exact ⟨s.presented, s.regs, s.logs, true, s.past, rfl⟩

/-! ### What an event, a count and an error leave alone, field by field -/

@[simp] theorem State.raise_tempo (s : State) (src : Nat) : (s.raise src).tempo = s.tempo := by
  obtain ⟨_, _, _, h⟩ := State.Raised.raise s src; rw [h]
@[simp] theorem State.raise_latch (s : State) (src : Nat) : (s.raise src).latch = s.latch := by
  obtain ⟨_, _, _, h⟩ := State.Raised.raise s src; rw [h]
@[simp] theorem State.raise_pendLow (s : State) (src : Nat) : (s.raise src).pendLow = s.pendLow := by
  obtain ⟨_, _, _, h⟩ := State.Raised.raise s src; rw [h]
@[simp] theorem State.raise_logs (s : State) (src : Nat) : (s.raise src).logs = s.logs := by
  obtain ⟨_, _, _, h⟩ := State.Raised.raise s src; rw [h]
@[simp] theorem State.raise_logLatch (s : State) (src : Nat) : (s.raise src).logLatch = s.logLatch := by
  obtain ⟨_, _, _, h⟩ := State.Raised.raise s src; rw [h]
@[simp] theorem State.raise_out (s : State) (src : Nat) : (s.raise src).out = s.out := by
  obtain ⟨_, _, _, h⟩ := State.Raised.raise s src; rw [h]
@[simp] theorem State.raise_draws (s : State) (src : Nat) : (s.raise src).draws = s.draws := by
  obtain ⟨_, _, _, h⟩ := State.Raised.raise s src; rw [h]
@[simp] theorem State.raise_boot (s : State) (src : Nat) : (s.raise src).boot = s.boot := by
  obtain ⟨_, _, _, h⟩ := State.Raised.raise s src; rw [h]
@[simp] theorem State.raise_netError (s : State) (src : Nat) : (s.raise src).netError = s.netError := by
  obtain ⟨_, _, _, h⟩ := State.Raised.raise s src; rw [h]
@[simp] theorem State.raise_wtu (s : State) (src : Nat) : (s.raise src).wtu = s.wtu := by
  obtain ⟨_, _, _, h⟩ := State.Raised.raise s src; rw [h]
@[simp] theorem State.raise_cmp (s : State) (src : Nat) : (s.raise src).cmp = s.cmp := by
  obtain ⟨_, _, _, h⟩ := State.Raised.raise s src; rw [h]
@[simp] theorem State.raise_rp (s : State) (src : Nat) : (s.raise src).rp = s.rp := by
  obtain ⟨_, _, _, h⟩ := State.Raised.raise s src; rw [h]
@[simp] theorem State.raise_ts (s : State) (src : Nat) : (s.raise src).ts = s.ts := by
  obtain ⟨_, _, _, h⟩ := State.Raised.raise s src; rw [h]
@[simp] theorem State.raise_nt (s : State) (src : Nat) : (s.raise src).nt = s.nt := by
  obtain ⟨_, _, _, h⟩ := State.Raised.raise s src; rw [h]
@[simp] theorem State.raise_ftu (s : State) (src : Nat) : (s.raise src).ftu = s.ftu := by
  obtain ⟨_, _, _, h⟩ := State.Raised.raise s src; rw [h]
@[simp] theorem State.raise_dgu (s : State) (src : Nat) : (s.raise src).dgu = s.dgu := by
  obtain ⟨_, _, _, h⟩ := State.Raised.raise s src; rw [h]
@[simp] theorem State.raise_cin (s : State) (src : Nat) : (s.raise src).cin = s.cin := by
  obtain ⟨_, _, _, h⟩ := State.Raised.raise s src; rw [h]
@[simp] theorem State.raise_ipl (s : State) (src : Nat) : (s.raise src).ipl = s.ipl := by
  obtain ⟨_, _, _, h⟩ := State.Raised.raise s src; rw [h]
@[simp] theorem State.raise_rru (s : State) (src : Nat) : (s.raise src).rru = s.rru := by
  obtain ⟨_, _, _, h⟩ := State.Raised.raise s src; rw [h]
@[simp] theorem State.raise_dfq (s : State) (src : Nat) : (s.raise src).dfq = s.dfq := by
  obtain ⟨_, _, _, h⟩ := State.Raised.raise s src; rw [h]
@[simp] theorem State.raise_fab (s : State) (src : Nat) : (s.raise src).fab = s.fab := by
  obtain ⟨_, _, _, h⟩ := State.Raised.raise s src; rw [h]
@[simp] theorem State.raise_eng (s : State) (src : Nat) : (s.raise src).eng = s.eng := by
  obtain ⟨_, _, _, h⟩ := State.Raised.raise s src; rw [h]
@[simp] theorem State.raise_emem (s : State) (src : Nat) : (s.raise src).emem = s.emem := by
  obtain ⟨_, _, _, h⟩ := State.Raised.raise s src; rw [h]
@[simp] theorem State.raise_evf (s : State) (src : Nat) : (s.raise src).evf = s.evf := by
  obtain ⟨_, _, _, h⟩ := State.Raised.raise s src; rw [h]
@[simp] theorem State.raise_dma (s : State) (src : Nat) : (s.raise src).dma = s.dma := by
  obtain ⟨_, _, _, h⟩ := State.Raised.raise s src; rw [h]
@[simp] theorem State.raise_mem (s : State) (src : Nat) : (s.raise src).mem = s.mem := by
  obtain ⟨_, _, _, h⟩ := State.Raised.raise s src; rw [h]
@[simp] theorem State.raise_fvl (s : State) (src : Nat) : (s.raise src).fvl = s.fvl := by
  obtain ⟨_, _, _, h⟩ := State.Raised.raise s src; rw [h]
@[simp] theorem State.raise_hif (s : State) (src : Nat) : (s.raise src).hif = s.hif := by
  obtain ⟨_, _, _, h⟩ := State.Raised.raise s src; rw [h]
@[simp] theorem State.raise_net (s : State) (src : Nat) : (s.raise src).net = s.net := by
  obtain ⟨_, _, _, h⟩ := State.Raised.raise s src; rw [h]
@[simp] theorem State.raise_twn (s : State) (src : Nat) : (s.raise src).twn = s.twn := by
  obtain ⟨_, _, _, h⟩ := State.Raised.raise s src; rw [h]
@[simp] theorem State.raise_pmu (s : State) (src : Nat) : (s.raise src).pmu = s.pmu := by
  obtain ⟨_, _, _, h⟩ := State.Raised.raise s src; rw [h]
@[simp] theorem State.raise_sec (s : State) (src : Nat) : (s.raise src).sec = s.sec := by
  obtain ⟨_, _, _, h⟩ := State.Raised.raise s src; rw [h]
@[simp] theorem State.raise_cal (s : State) (src : Nat) : (s.raise src).cal = s.cal := by
  obtain ⟨_, _, _, h⟩ := State.Raised.raise s src; rw [h]
@[simp] theorem State.raise_pending (s : State) (src : Nat) : (s.raise src).pending = s.pending := by
  obtain ⟨_, _, _, h⟩ := State.Raised.raise s src; rw [h]
@[simp] theorem State.tally_tempo (s : State) (u i e n : Nat) : (s.tally u i e n).tempo = s.tempo := by
  obtain ⟨_, _, _, h⟩ := State.Raised.tally s u i e n; rw [h]
@[simp] theorem State.tally_latch (s : State) (u i e n : Nat) : (s.tally u i e n).latch = s.latch := by
  obtain ⟨_, _, _, h⟩ := State.Raised.tally s u i e n; rw [h]
@[simp] theorem State.tally_pendLow (s : State) (u i e n : Nat) : (s.tally u i e n).pendLow = s.pendLow := by
  obtain ⟨_, _, _, h⟩ := State.Raised.tally s u i e n; rw [h]
@[simp] theorem State.tally_logs (s : State) (u i e n : Nat) : (s.tally u i e n).logs = s.logs := by
  obtain ⟨_, _, _, h⟩ := State.Raised.tally s u i e n; rw [h]
@[simp] theorem State.tally_logLatch (s : State) (u i e n : Nat) : (s.tally u i e n).logLatch = s.logLatch := by
  obtain ⟨_, _, _, h⟩ := State.Raised.tally s u i e n; rw [h]
@[simp] theorem State.tally_out (s : State) (u i e n : Nat) : (s.tally u i e n).out = s.out := by
  obtain ⟨_, _, _, h⟩ := State.Raised.tally s u i e n; rw [h]
@[simp] theorem State.tally_draws (s : State) (u i e n : Nat) : (s.tally u i e n).draws = s.draws := by
  obtain ⟨_, _, _, h⟩ := State.Raised.tally s u i e n; rw [h]
@[simp] theorem State.tally_boot (s : State) (u i e n : Nat) : (s.tally u i e n).boot = s.boot := by
  obtain ⟨_, _, _, h⟩ := State.Raised.tally s u i e n; rw [h]
@[simp] theorem State.tally_netError (s : State) (u i e n : Nat) : (s.tally u i e n).netError = s.netError := by
  obtain ⟨_, _, _, h⟩ := State.Raised.tally s u i e n; rw [h]
@[simp] theorem State.tally_wtu (s : State) (u i e n : Nat) : (s.tally u i e n).wtu = s.wtu := by
  obtain ⟨_, _, _, h⟩ := State.Raised.tally s u i e n; rw [h]
@[simp] theorem State.tally_cmp (s : State) (u i e n : Nat) : (s.tally u i e n).cmp = s.cmp := by
  obtain ⟨_, _, _, h⟩ := State.Raised.tally s u i e n; rw [h]
@[simp] theorem State.tally_rp (s : State) (u i e n : Nat) : (s.tally u i e n).rp = s.rp := by
  obtain ⟨_, _, _, h⟩ := State.Raised.tally s u i e n; rw [h]
@[simp] theorem State.tally_ts (s : State) (u i e n : Nat) : (s.tally u i e n).ts = s.ts := by
  obtain ⟨_, _, _, h⟩ := State.Raised.tally s u i e n; rw [h]
@[simp] theorem State.tally_nt (s : State) (u i e n : Nat) : (s.tally u i e n).nt = s.nt := by
  obtain ⟨_, _, _, h⟩ := State.Raised.tally s u i e n; rw [h]
@[simp] theorem State.tally_ftu (s : State) (u i e n : Nat) : (s.tally u i e n).ftu = s.ftu := by
  obtain ⟨_, _, _, h⟩ := State.Raised.tally s u i e n; rw [h]
@[simp] theorem State.tally_dgu (s : State) (u i e n : Nat) : (s.tally u i e n).dgu = s.dgu := by
  obtain ⟨_, _, _, h⟩ := State.Raised.tally s u i e n; rw [h]
@[simp] theorem State.tally_cin (s : State) (u i e n : Nat) : (s.tally u i e n).cin = s.cin := by
  obtain ⟨_, _, _, h⟩ := State.Raised.tally s u i e n; rw [h]
@[simp] theorem State.tally_ipl (s : State) (u i e n : Nat) : (s.tally u i e n).ipl = s.ipl := by
  obtain ⟨_, _, _, h⟩ := State.Raised.tally s u i e n; rw [h]
@[simp] theorem State.tally_rru (s : State) (u i e n : Nat) : (s.tally u i e n).rru = s.rru := by
  obtain ⟨_, _, _, h⟩ := State.Raised.tally s u i e n; rw [h]
@[simp] theorem State.tally_dfq (s : State) (u i e n : Nat) : (s.tally u i e n).dfq = s.dfq := by
  obtain ⟨_, _, _, h⟩ := State.Raised.tally s u i e n; rw [h]
@[simp] theorem State.tally_fab (s : State) (u i e n : Nat) : (s.tally u i e n).fab = s.fab := by
  obtain ⟨_, _, _, h⟩ := State.Raised.tally s u i e n; rw [h]
@[simp] theorem State.tally_eng (s : State) (u i e n : Nat) : (s.tally u i e n).eng = s.eng := by
  obtain ⟨_, _, _, h⟩ := State.Raised.tally s u i e n; rw [h]
@[simp] theorem State.tally_emem (s : State) (u i e n : Nat) : (s.tally u i e n).emem = s.emem := by
  obtain ⟨_, _, _, h⟩ := State.Raised.tally s u i e n; rw [h]
@[simp] theorem State.tally_evf (s : State) (u i e n : Nat) : (s.tally u i e n).evf = s.evf := by
  obtain ⟨_, _, _, h⟩ := State.Raised.tally s u i e n; rw [h]
@[simp] theorem State.tally_dma (s : State) (u i e n : Nat) : (s.tally u i e n).dma = s.dma := by
  obtain ⟨_, _, _, h⟩ := State.Raised.tally s u i e n; rw [h]
@[simp] theorem State.tally_mem (s : State) (u i e n : Nat) : (s.tally u i e n).mem = s.mem := by
  obtain ⟨_, _, _, h⟩ := State.Raised.tally s u i e n; rw [h]
@[simp] theorem State.tally_fvl (s : State) (u i e n : Nat) : (s.tally u i e n).fvl = s.fvl := by
  obtain ⟨_, _, _, h⟩ := State.Raised.tally s u i e n; rw [h]
@[simp] theorem State.tally_hif (s : State) (u i e n : Nat) : (s.tally u i e n).hif = s.hif := by
  obtain ⟨_, _, _, h⟩ := State.Raised.tally s u i e n; rw [h]
@[simp] theorem State.tally_net (s : State) (u i e n : Nat) : (s.tally u i e n).net = s.net := by
  obtain ⟨_, _, _, h⟩ := State.Raised.tally s u i e n; rw [h]
@[simp] theorem State.tally_twn (s : State) (u i e n : Nat) : (s.tally u i e n).twn = s.twn := by
  obtain ⟨_, _, _, h⟩ := State.Raised.tally s u i e n; rw [h]
@[simp] theorem State.tally_pmu (s : State) (u i e n : Nat) : (s.tally u i e n).pmu = s.pmu := by
  obtain ⟨_, _, _, h⟩ := State.Raised.tally s u i e n; rw [h]
@[simp] theorem State.tally_sec (s : State) (u i e n : Nat) : (s.tally u i e n).sec = s.sec := by
  obtain ⟨_, _, _, h⟩ := State.Raised.tally s u i e n; rw [h]
@[simp] theorem State.tally_cal (s : State) (u i e n : Nat) : (s.tally u i e n).cal = s.cal := by
  obtain ⟨_, _, _, h⟩ := State.Raised.tally s u i e n; rw [h]
@[simp] theorem State.tally_pending (s : State) (u i e n : Nat) : (s.tally u i e n).pending = s.pending := by
  obtain ⟨_, _, _, h⟩ := State.Raised.tally s u i e n; rw [h]
@[simp] theorem State.logErr_tempo (s : State) (e : Site) (c k : Nat) (d : List Nat) : (s.logErr e c k d).tempo = s.tempo := by
  obtain ⟨_, _, _, _, _, h⟩ := State.Logged.logErr s e c k d; rw [h]
@[simp] theorem State.logErr_latch (s : State) (e : Site) (c k : Nat) (d : List Nat) : (s.logErr e c k d).latch = s.latch := by
  obtain ⟨_, _, _, _, _, h⟩ := State.Logged.logErr s e c k d; rw [h]
@[simp] theorem State.logErr_pendLow (s : State) (e : Site) (c k : Nat) (d : List Nat) : (s.logErr e c k d).pendLow = s.pendLow := by
  obtain ⟨_, _, _, _, _, h⟩ := State.Logged.logErr s e c k d; rw [h]
@[simp] theorem State.logErr_logLatch (s : State) (e : Site) (c k : Nat) (d : List Nat) : (s.logErr e c k d).logLatch = s.logLatch := by
  obtain ⟨_, _, _, _, _, h⟩ := State.Logged.logErr s e c k d; rw [h]
@[simp] theorem State.logErr_out (s : State) (e : Site) (c k : Nat) (d : List Nat) : (s.logErr e c k d).out = s.out := by
  obtain ⟨_, _, _, _, _, h⟩ := State.Logged.logErr s e c k d; rw [h]
@[simp] theorem State.logErr_draws (s : State) (e : Site) (c k : Nat) (d : List Nat) : (s.logErr e c k d).draws = s.draws := by
  obtain ⟨_, _, _, _, _, h⟩ := State.Logged.logErr s e c k d; rw [h]
@[simp] theorem State.logErr_boot (s : State) (e : Site) (c k : Nat) (d : List Nat) : (s.logErr e c k d).boot = s.boot := by
  obtain ⟨_, _, _, _, _, h⟩ := State.Logged.logErr s e c k d; rw [h]
@[simp] theorem State.logErr_wtu (s : State) (e : Site) (c k : Nat) (d : List Nat) : (s.logErr e c k d).wtu = s.wtu := by
  obtain ⟨_, _, _, _, _, h⟩ := State.Logged.logErr s e c k d; rw [h]
@[simp] theorem State.logErr_cmp (s : State) (e : Site) (c k : Nat) (d : List Nat) : (s.logErr e c k d).cmp = s.cmp := by
  obtain ⟨_, _, _, _, _, h⟩ := State.Logged.logErr s e c k d; rw [h]
@[simp] theorem State.logErr_rp (s : State) (e : Site) (c k : Nat) (d : List Nat) : (s.logErr e c k d).rp = s.rp := by
  obtain ⟨_, _, _, _, _, h⟩ := State.Logged.logErr s e c k d; rw [h]
@[simp] theorem State.logErr_ts (s : State) (e : Site) (c k : Nat) (d : List Nat) : (s.logErr e c k d).ts = s.ts := by
  obtain ⟨_, _, _, _, _, h⟩ := State.Logged.logErr s e c k d; rw [h]
@[simp] theorem State.logErr_nt (s : State) (e : Site) (c k : Nat) (d : List Nat) : (s.logErr e c k d).nt = s.nt := by
  obtain ⟨_, _, _, _, _, h⟩ := State.Logged.logErr s e c k d; rw [h]
@[simp] theorem State.logErr_ftu (s : State) (e : Site) (c k : Nat) (d : List Nat) : (s.logErr e c k d).ftu = s.ftu := by
  obtain ⟨_, _, _, _, _, h⟩ := State.Logged.logErr s e c k d; rw [h]
@[simp] theorem State.logErr_dgu (s : State) (e : Site) (c k : Nat) (d : List Nat) : (s.logErr e c k d).dgu = s.dgu := by
  obtain ⟨_, _, _, _, _, h⟩ := State.Logged.logErr s e c k d; rw [h]
@[simp] theorem State.logErr_cin (s : State) (e : Site) (c k : Nat) (d : List Nat) : (s.logErr e c k d).cin = s.cin := by
  obtain ⟨_, _, _, _, _, h⟩ := State.Logged.logErr s e c k d; rw [h]
@[simp] theorem State.logErr_ipl (s : State) (e : Site) (c k : Nat) (d : List Nat) : (s.logErr e c k d).ipl = s.ipl := by
  obtain ⟨_, _, _, _, _, h⟩ := State.Logged.logErr s e c k d; rw [h]
@[simp] theorem State.logErr_rru (s : State) (e : Site) (c k : Nat) (d : List Nat) : (s.logErr e c k d).rru = s.rru := by
  obtain ⟨_, _, _, _, _, h⟩ := State.Logged.logErr s e c k d; rw [h]
@[simp] theorem State.logErr_dfq (s : State) (e : Site) (c k : Nat) (d : List Nat) : (s.logErr e c k d).dfq = s.dfq := by
  obtain ⟨_, _, _, _, _, h⟩ := State.Logged.logErr s e c k d; rw [h]
@[simp] theorem State.logErr_fab (s : State) (e : Site) (c k : Nat) (d : List Nat) : (s.logErr e c k d).fab = s.fab := by
  obtain ⟨_, _, _, _, _, h⟩ := State.Logged.logErr s e c k d; rw [h]
@[simp] theorem State.logErr_eng (s : State) (e : Site) (c k : Nat) (d : List Nat) : (s.logErr e c k d).eng = s.eng := by
  obtain ⟨_, _, _, _, _, h⟩ := State.Logged.logErr s e c k d; rw [h]
@[simp] theorem State.logErr_emem (s : State) (e : Site) (c k : Nat) (d : List Nat) : (s.logErr e c k d).emem = s.emem := by
  obtain ⟨_, _, _, _, _, h⟩ := State.Logged.logErr s e c k d; rw [h]
@[simp] theorem State.logErr_evf (s : State) (e : Site) (c k : Nat) (d : List Nat) : (s.logErr e c k d).evf = s.evf := by
  obtain ⟨_, _, _, _, _, h⟩ := State.Logged.logErr s e c k d; rw [h]
@[simp] theorem State.logErr_dma (s : State) (e : Site) (c k : Nat) (d : List Nat) : (s.logErr e c k d).dma = s.dma := by
  obtain ⟨_, _, _, _, _, h⟩ := State.Logged.logErr s e c k d; rw [h]
@[simp] theorem State.logErr_mem (s : State) (e : Site) (c k : Nat) (d : List Nat) : (s.logErr e c k d).mem = s.mem := by
  obtain ⟨_, _, _, _, _, h⟩ := State.Logged.logErr s e c k d; rw [h]
@[simp] theorem State.logErr_fvl (s : State) (e : Site) (c k : Nat) (d : List Nat) : (s.logErr e c k d).fvl = s.fvl := by
  obtain ⟨_, _, _, _, _, h⟩ := State.Logged.logErr s e c k d; rw [h]
@[simp] theorem State.logErr_hif (s : State) (e : Site) (c k : Nat) (d : List Nat) : (s.logErr e c k d).hif = s.hif := by
  obtain ⟨_, _, _, _, _, h⟩ := State.Logged.logErr s e c k d; rw [h]
@[simp] theorem State.logErr_net (s : State) (e : Site) (c k : Nat) (d : List Nat) : (s.logErr e c k d).net = s.net := by
  obtain ⟨_, _, _, _, _, h⟩ := State.Logged.logErr s e c k d; rw [h]
@[simp] theorem State.logErr_twn (s : State) (e : Site) (c k : Nat) (d : List Nat) : (s.logErr e c k d).twn = s.twn := by
  obtain ⟨_, _, _, _, _, h⟩ := State.Logged.logErr s e c k d; rw [h]
@[simp] theorem State.logErr_pmu (s : State) (e : Site) (c k : Nat) (d : List Nat) : (s.logErr e c k d).pmu = s.pmu := by
  obtain ⟨_, _, _, _, _, h⟩ := State.Logged.logErr s e c k d; rw [h]
@[simp] theorem State.logErr_sec (s : State) (e : Site) (c k : Nat) (d : List Nat) : (s.logErr e c k d).sec = s.sec := by
  obtain ⟨_, _, _, _, _, h⟩ := State.Logged.logErr s e c k d; rw [h]
@[simp] theorem State.logErr_cal (s : State) (e : Site) (c k : Nat) (d : List Nat) : (s.logErr e c k d).cal = s.cal := by
  obtain ⟨_, _, _, _, _, h⟩ := State.Logged.logErr s e c k d; rw [h]
@[simp] theorem State.logErr_pending (s : State) (e : Site) (c k : Nat) (d : List Nat) : (s.logErr e c k d).pending = s.pending := by
  obtain ⟨_, _, _, _, _, h⟩ := State.Logged.logErr s e c k d; rw [h]

/-! ### The passing of Tempo -/

/-- A state that differs from another at most in what the passing of Tempo changes: Tempo, the registers and their past, events,
logs, the NET's error bit, what has gone out, the HIF and the WTU. -/
def State.Waited (s t : State) : Prop :=
  ∃ a p o h r e l n w, t = { s with tempo := a, past := p, out := o, hif := h, regs := r, presented := e, logs := l, netError := n, wtu := w }

theorem State.Waited.rfl' (s : State) : s.Waited s :=
  ⟨s.tempo, s.past, s.out, s.hif, s.regs, s.presented, s.logs, s.netError, s.wtu, rfl⟩

theorem State.Waited.trans {a b c : State} (h : a.Waited b) (k : b.Waited c) : a.Waited c := by
  obtain ⟨x1, x2, x3, x4, x5, x6, x7, x8, x9, rfl⟩ := h
  obtain ⟨y1, y2, y3, y4, y5, y6, y7, y8, y9, rfl⟩ := k
  exact ⟨y1, y2, y3, y4, y5, y6, y7, y8, y9, rfl⟩

theorem State.Logged.waited {a b : State} (h : a.Logged b) : a.Waited b := by
  obtain ⟨p, r, l, n, q, rfl⟩ := h
  exact ⟨a.tempo, q, a.out, a.hif, r, p, l, n, a.wtu, rfl⟩

theorem State.Raised.waited {a b : State} (h : a.Raised b) : a.Waited b := h.logged.waited

theorem State.Waited.pass (s : State) (dt : Nat) : s.Waited (s.pass dt) :=
  ⟨_, _, _, _, s.regs, s.presented, s.logs, s.netError, s.wtu, rfl⟩

theorem State.Waited.setDec (s : State) (n : Nat) (d : Decoder) : s.Waited (s.setDec n d) :=
  ⟨s.tempo, s.past, s.out, s.hif, s.regs, s.presented, s.logs, s.netError, _, rfl⟩

/-- What a change of a decoder's motion state does: registers and events alone change. -/
theorem State.Raised.setMotion (s : State) (n m : Nat) : s.Raised (s.setMotion n m) := by
  unfold State.setMotion
  dsimp only
  have h : ∀ t : State, s.Raised t → s.Raised (if n = t.src then t.put F.WTU_STATUS_STATE m else t) := by
    intro t ht
    split
    · exact ht.trans (State.Raised.put _ _ _)
    · exact ht
  have k := h _ (State.Raised.put s (F.WTU_ENC_STAT_STATE n) m)
  generalize (if n = (s.put (F.WTU_ENC_STAT_STATE n) m).src then (s.put (F.WTU_ENC_STAT_STATE n) m).put F.WTU_STATUS_STATE m
    else s.put (F.WTU_ENC_STAT_STATE n) m) = t at k
  repeat' split
  all_goals first | exact k.trans (State.Raised.raise _ _) | exact k

theorem State.Waited.overRate (s : State) (n : Nat) : s.Waited (s.overRate n) := by
  unfold State.overRate
  dsimp only
  have h : s.Waited (s.decError n (F.WTU_ENC_STAT_OVER_RATE n) 0x03 0x020) := by
    unfold State.decError
    exact (State.Raised.put _ _ _).waited.trans ((State.Logged.logErr _ _ _ _ _).waited.trans (State.Raised.raise _ _).waited)
  split
  · exact (h.trans (State.Waited.setDec _ _ _)).trans (State.Raised.setMotion _ _ _).waited
  · exact h.trans (State.Waited.setDec _ _ _)

theorem State.Waited.rejectPulse (s : State) (n : Nat) (i : EncInput) : s.Waited (s.rejectPulse n i) := by
  unfold State.rejectPulse State.reject
  dsimp only
  split
  · exact (State.Waited.setDec _ _ _).trans (State.Raised.bump _ _ _).waited
  · have h := (State.Waited.setDec s n ((s.dec n).setLine i
      { ((s.dec n).line i).seen s.now with rejects := (((s.dec n).line i).seen s.now).rejects + 1 })).trans
      (State.Raised.bump _ (F.WTU_ENC_GLITCH_COUNT n) 1).waited
    split
    · exact h.trans (State.Waited.overRate _ _)
    · exact h

theorem State.Waited.passTo (fuel : Nat) (s : State) (t : Nat) : s.Waited (s.passTo fuel t) := by
  induction fuel generalizing s with
  | zero => exact State.Waited.pass _ _
  | succ fuel ih =>
    unfold State.passTo
    split
    · split
      · exact ((State.Waited.pass _ _).trans (State.Waited.rejectPulse _ _ _)).trans (ih _)
      · exact State.Waited.pass _ _
    · exact State.Waited.pass _ _

/-- What the passing of Tempo does: see `State.Waited`. -/
theorem State.Waited.wait (s : State) (dt : Nat) : s.Waited (s.wait dt) := by
  unfold State.wait
  split
  · exact State.Waited.pass _ _
  · exact State.Waited.passTo _ _ _

@[simp] theorem State.wait_latch (s : State) (dt : Nat) : (s.wait dt).latch = s.latch := by
  obtain ⟨_, _, _, _, _, _, _, _, _, h⟩ := State.Waited.wait s dt; rw [h]
@[simp] theorem State.wait_pendLow (s : State) (dt : Nat) : (s.wait dt).pendLow = s.pendLow := by
  obtain ⟨_, _, _, _, _, _, _, _, _, h⟩ := State.Waited.wait s dt; rw [h]
@[simp] theorem State.wait_logLatch (s : State) (dt : Nat) : (s.wait dt).logLatch = s.logLatch := by
  obtain ⟨_, _, _, _, _, _, _, _, _, h⟩ := State.Waited.wait s dt; rw [h]
@[simp] theorem State.wait_draws (s : State) (dt : Nat) : (s.wait dt).draws = s.draws := by
  obtain ⟨_, _, _, _, _, _, _, _, _, h⟩ := State.Waited.wait s dt; rw [h]
@[simp] theorem State.wait_boot (s : State) (dt : Nat) : (s.wait dt).boot = s.boot := by
  obtain ⟨_, _, _, _, _, _, _, _, _, h⟩ := State.Waited.wait s dt; rw [h]
@[simp] theorem State.wait_cmp (s : State) (dt : Nat) : (s.wait dt).cmp = s.cmp := by
  obtain ⟨_, _, _, _, _, _, _, _, _, h⟩ := State.Waited.wait s dt; rw [h]
@[simp] theorem State.wait_rp (s : State) (dt : Nat) : (s.wait dt).rp = s.rp := by
  obtain ⟨_, _, _, _, _, _, _, _, _, h⟩ := State.Waited.wait s dt; rw [h]
@[simp] theorem State.wait_ts (s : State) (dt : Nat) : (s.wait dt).ts = s.ts := by
  obtain ⟨_, _, _, _, _, _, _, _, _, h⟩ := State.Waited.wait s dt; rw [h]
@[simp] theorem State.wait_nt (s : State) (dt : Nat) : (s.wait dt).nt = s.nt := by
  obtain ⟨_, _, _, _, _, _, _, _, _, h⟩ := State.Waited.wait s dt; rw [h]
@[simp] theorem State.wait_ftu (s : State) (dt : Nat) : (s.wait dt).ftu = s.ftu := by
  obtain ⟨_, _, _, _, _, _, _, _, _, h⟩ := State.Waited.wait s dt; rw [h]
@[simp] theorem State.wait_dgu (s : State) (dt : Nat) : (s.wait dt).dgu = s.dgu := by
  obtain ⟨_, _, _, _, _, _, _, _, _, h⟩ := State.Waited.wait s dt; rw [h]
@[simp] theorem State.wait_cin (s : State) (dt : Nat) : (s.wait dt).cin = s.cin := by
  obtain ⟨_, _, _, _, _, _, _, _, _, h⟩ := State.Waited.wait s dt; rw [h]
@[simp] theorem State.wait_ipl (s : State) (dt : Nat) : (s.wait dt).ipl = s.ipl := by
  obtain ⟨_, _, _, _, _, _, _, _, _, h⟩ := State.Waited.wait s dt; rw [h]
@[simp] theorem State.wait_rru (s : State) (dt : Nat) : (s.wait dt).rru = s.rru := by
  obtain ⟨_, _, _, _, _, _, _, _, _, h⟩ := State.Waited.wait s dt; rw [h]
@[simp] theorem State.wait_dfq (s : State) (dt : Nat) : (s.wait dt).dfq = s.dfq := by
  obtain ⟨_, _, _, _, _, _, _, _, _, h⟩ := State.Waited.wait s dt; rw [h]
@[simp] theorem State.wait_fab (s : State) (dt : Nat) : (s.wait dt).fab = s.fab := by
  obtain ⟨_, _, _, _, _, _, _, _, _, h⟩ := State.Waited.wait s dt; rw [h]
@[simp] theorem State.wait_eng (s : State) (dt : Nat) : (s.wait dt).eng = s.eng := by
  obtain ⟨_, _, _, _, _, _, _, _, _, h⟩ := State.Waited.wait s dt; rw [h]
@[simp] theorem State.wait_emem (s : State) (dt : Nat) : (s.wait dt).emem = s.emem := by
  obtain ⟨_, _, _, _, _, _, _, _, _, h⟩ := State.Waited.wait s dt; rw [h]
@[simp] theorem State.wait_evf (s : State) (dt : Nat) : (s.wait dt).evf = s.evf := by
  obtain ⟨_, _, _, _, _, _, _, _, _, h⟩ := State.Waited.wait s dt; rw [h]
@[simp] theorem State.wait_dma (s : State) (dt : Nat) : (s.wait dt).dma = s.dma := by
  obtain ⟨_, _, _, _, _, _, _, _, _, h⟩ := State.Waited.wait s dt; rw [h]
@[simp] theorem State.wait_mem (s : State) (dt : Nat) : (s.wait dt).mem = s.mem := by
  obtain ⟨_, _, _, _, _, _, _, _, _, h⟩ := State.Waited.wait s dt; rw [h]
@[simp] theorem State.wait_fvl (s : State) (dt : Nat) : (s.wait dt).fvl = s.fvl := by
  obtain ⟨_, _, _, _, _, _, _, _, _, h⟩ := State.Waited.wait s dt; rw [h]
@[simp] theorem State.wait_net (s : State) (dt : Nat) : (s.wait dt).net = s.net := by
  obtain ⟨_, _, _, _, _, _, _, _, _, h⟩ := State.Waited.wait s dt; rw [h]
@[simp] theorem State.wait_twn (s : State) (dt : Nat) : (s.wait dt).twn = s.twn := by
  obtain ⟨_, _, _, _, _, _, _, _, _, h⟩ := State.Waited.wait s dt; rw [h]
@[simp] theorem State.wait_pmu (s : State) (dt : Nat) : (s.wait dt).pmu = s.pmu := by
  obtain ⟨_, _, _, _, _, _, _, _, _, h⟩ := State.Waited.wait s dt; rw [h]
@[simp] theorem State.wait_sec (s : State) (dt : Nat) : (s.wait dt).sec = s.sec := by
  obtain ⟨_, _, _, _, _, _, _, _, _, h⟩ := State.Waited.wait s dt; rw [h]
@[simp] theorem State.wait_cal (s : State) (dt : Nat) : (s.wait dt).cal = s.cal := by
  obtain ⟨_, _, _, _, _, _, _, _, _, h⟩ := State.Waited.wait s dt; rw [h]
@[simp] theorem State.wait_pending (s : State) (dt : Nat) : (s.wait dt).pending = s.pending := by
  obtain ⟨_, _, _, _, _, _, _, _, _, h⟩ := State.Waited.wait s dt; rw [h]

end Sys2Proof.Machine
end

