-- ==== Sys2Proof/Laws/Mem.lean ====
section
/-! SUPPORT. Device memory: a byte reads back what was stored, every other byte stays, and every operation on memory keeps its
canonical form. -/

namespace Sys2Proof.Machine

/-! ### Registers that events, counts and errors leave alone -/

/-- Whether an offset lies in the range of the PMU. -/
def inPmu (j : Nat) : Bool := decide (0x01500000 ≤ j) && decide (j < 0x01600000)

theorem State.foldl_word {α : Type} (f : State → α → State) (l : List α) (j : Nat) (s : State)
    (h : ∀ s, ∀ a ∈ l, (f s a).word j = s.word j) : (l.foldl f s).word j = s.word j := by
  induction l generalizing s with
  | nil => rfl
  | cons a l ih =>
    rw [List.foldl_cons, ih _ (fun s b hb => h s b (by simp [hb])), h s a (by simp)]

theorem State.pmuFor_lt (s : State) (u i e c : Nat) (h : c ∈ s.pmuFor u i e) : c < 32 := by
  unfold State.pmuFor at h
  obtain ⟨p, hp, hc⟩ := List.mem_filterMap.1 h
  have h2 : p.1 = c := by
    split at hc
    · simpa using hc
    · cases hc
  unfold State.pmuCounters at hp
  split at hp
  · cases hp
  · obtain ⟨q, _, hq⟩ := List.mem_filterMap.1 hp
    split at hq
    · rename_i hcond
      simp at hcond hq
      subst hq
      simp at h2
      omega
    · cases hq

theorem State.put_cnt_word (s : State) (c v j : Nat) (hc : c < 32) (hj : inPmu j = false) :
    (s.put (F.PMU_CNT_VALUE c) v).word j = s.word j := by
  apply State.word_put_other
  simp [inPmu] at hj
  simp [Fld.covers, F.PMU_CNT_VALUE]
  omega

theorem State.put_ovf_word (s : State) (v j : Nat) (hj : inPmu j = false) : (s.flagBits F.PMU_OVF v).word j = s.word j := by
  refine State.word_put_other _ _ _ _ ?_
  simp [inPmu] at hj
  simp [Fld.covers, F.PMU_OVF]
  omega

theorem State.raiseAux_word (n : Nat) (s : State) (src j : Nat) (hj : inPmu j = false) : (s.raiseAux n src).word j = s.word j := by
  induction n generalizing s src with
  | zero => unfold State.raiseAux; split <;> rfl
  | succ n ih =>
    unfold State.raiseAux
    split
    · rfl
    · have := State.foldl_word (fun (s : State) c =>
        let v := s.get (F.PMU_CNT_VALUE c) + 1
        if 2 ^ 48 ≤ v then
          ((s.put (F.PMU_CNT_VALUE c) 0).flagBits F.PMU_OVF (2 ^ c)).raiseAux n (1088 + c)
        else s.put (F.PMU_CNT_VALUE c) v) (s.pmuFor (src / 64) 0 (0x80 + src % 64)) j
        { s with presented := s.presented ++ [(src, s.now)] } ?_
      · exact this
      · intro t c hc
        have hc' := State.pmuFor_lt _ _ _ _ _ hc
        dsimp only
        split
        · rw [ih, State.put_ovf_word _ _ _ hj, State.put_cnt_word _ _ _ _ hc' hj]
        · exact State.put_cnt_word _ _ _ _ hc' hj

/-- An event changes no register outside the PMU. -/
theorem State.raise_word (s : State) (src j : Nat) (hj : inPmu j = false) : (s.raise src).word j = s.word j :=
  State.raiseAux_word 33 s src j hj

theorem State.raise_get (s : State) (src : Nat) (f : Fld) (h1 : inPmu f.off = false) (h2 : inPmu (f.off + 4) = false) :
    (s.raise src).get f = s.get f := by
  unfold State.get State.raw
  rw [State.raise_word _ _ _ h1, State.raise_word _ _ _ h2]

/-- A count changes no register outside the PMU. -/
theorem State.tally_word (s : State) (u i e n j : Nat) (hj : inPmu j = false) : (s.tally u i e n).word j = s.word j := by
  unfold State.tally
  apply State.foldl_word
  intro t c hc
  have hc' := State.pmuFor_lt _ _ _ _ _ hc
  dsimp only
  split
  · unfold State.pmuWrap
    rw [State.put_cnt_word _ _ _ _ hc' hj, State.raise_word _ _ _ hj, State.put_ovf_word _ _ _ hj,
      State.put_cnt_word _ _ _ _ hc' hj]
  · exact State.put_cnt_word _ _ _ _ hc' hj

/-- An error entry changes no register outside its ring. -/
theorem State.logPush_word (s : State) (ring cyc code tempo : Nat) (d : List Nat) (j : Nat) (hj : j < ring ∨ ring + 0x14 ≤ j) :
    (s.logPush ring cyc code tempo d).word j = s.word j := by
  unfold State.logPush
  dsimp only
  have hw : (F.LOG_WR ring).covers j = false := by simp [Fld.covers, F.LOG_WR]; omega
  have hl : (F.LOG_LOST ring).covers j = false := by simp [Fld.covers, F.LOG_LOST]; omega
  have ho : (F.LOG_OVERWRITE ring).covers j = false := by simp [Fld.covers, F.LOG_OVERWRITE]; omega
  unfold State.bump
  split
  · rw [State.word_put_other _ _ _ _ hw, State.word_flag_other _ _ _ ho, State.word_put_other _ _ _ _ hl]; rfl
  · rw [State.word_put_other _ _ _ _ hw]; rfl

/-- An error changes no register but its status bit, its ring and the PMU's. -/
theorem State.logErr_word (s : State) (e : Site) (c k : Nat) (d : List Nat) (j : Nat) (hj : inPmu j = false)
    (hr : j < e.ring ∨ e.ring + 0x14 ≤ j) (hf : ∀ f, e.flag = some f → f.covers j = false) :
    (s.logErr e c k d).word j = s.word j := by
  unfold State.logErr
  dsimp only
  rw [State.raise_word _ _ _ hj, State.logPush_word _ _ _ _ _ _ _ hr]
  split
  · rename_i f hfl
    exact State.word_flag_other _ _ _ (hf f hfl)
  · rfl

/-! ### What an unlisted address reads as -/

/-- Two states under which unlisted addresses read the same: the map, the channels' generations and the resets agree. -/
structure State.SameMap (s t : State) : Prop where
  lo : t.word 0x00E08018 = s.word 0x00E08018
  list : t.word 0x00E08020 = s.word 0x00E08020
  listHi : t.word 0x00E08024 = s.word 0x00E08024
  gen : ∀ n, (t.chan n).gen = (s.chan n).gen
  zeroed : t.mem.zeroed = s.mem.zeroed
  resets : t.mem.resets = s.mem.resets

theorem State.SameMap.rfl' (s : State) : s.SameMap s := ⟨rfl, rfl, rfl, fun _ => rfl, rfl, rfl⟩

theorem State.SameMap.trans {a b c : State} (h : a.SameMap b) (k : b.SameMap c) : a.SameMap c :=
  ⟨k.lo.trans h.lo, k.list.trans h.list, k.listHi.trans h.listHi, fun n => (k.gen n).trans (h.gen n),
    k.zeroed.trans h.zeroed, k.resets.trans h.resets⟩

theorem State.SameMap.channelOf {s t : State} (h : s.SameMap t) (d : Nat) : t.channelOf d = s.channelOf d := by
  have e1 : t.get F.MEM_CHMAP_CH_LOG2 = s.get F.MEM_CHMAP_CH_LOG2 := by
    simp [State.get, State.raw, F.MEM_CHMAP_CH_LOG2, h.lo]
  have e2 : t.get F.MEM_CHMAP_LIST = s.get F.MEM_CHMAP_LIST := by
    simp [State.get, State.raw, F.MEM_CHMAP_LIST, h.list, h.listHi]
  simp [State.channelOf, State.chLog2, e1, e2]

theorem State.SameMap.byteDefault {s t : State} (h : s.SameMap t) : t.byteDefault = s.byteDefault := by
  funext d
  simp [State.byteDefault, h.channelOf, h.gen, h.zeroed, h.resets]

theorem State.SameMap.flawDefault {s t : State} (h : s.SameMap t) : t.flawDefault = s.flawDefault := by
  funext d
  simp [State.flawDefault, h.channelOf, h.gen, h.zeroed]

/-- A change outside memory and its map keeps what unlisted addresses read as. -/
theorem State.SameMap.of_words {s t : State} (hm : t.mem = s.mem)
    (hw : ∀ j, j = 0x00E08018 ∨ j = 0x00E08020 ∨ j = 0x00E08024 → t.word j = s.word j) : s.SameMap t := by
  refine ⟨hw _ (by simp), hw _ (by simp), hw _ (by simp), fun n => ?_, by rw [hm], by rw [hm]⟩
  simp [State.chan, hm]

/-! ### The canonical form -/

theorem Memory.wf_iff (s : State) :
    Memory.wf s = true ↔ Sparse.wf s.byteDefault s.mem.bytes = true ∧ Sparse.wf s.flawDefault s.mem.flaws = true := by
  simp [Memory.wf]

/-- A change that keeps the lists and the map keeps the canonical form. -/
theorem Memory.wf_same {s t : State} (h : s.SameMap t) (hb : t.mem.bytes = s.mem.bytes) (hf : t.mem.flaws = s.mem.flaws)
    (hs : Memory.wf s = true) : Memory.wf t = true := by
  rw [Memory.wf_iff] at *
  rw [h.byteDefault, h.flawDefault, hb, hf]
  exact hs

/-- Kept by an operation on memory: the map, and the canonical form. -/
def State.Keeps (s t : State) : Prop := s.SameMap t ∧ (Memory.wf s = true → Memory.wf t = true)

theorem State.Keeps.rfl' (s : State) : s.Keeps s := ⟨State.SameMap.rfl' s, id⟩

theorem State.Keeps.trans {a b c : State} (h : a.Keeps b) (k : b.Keeps c) : a.Keeps c :=
  ⟨h.1.trans k.1, fun w => k.2 (h.2 w)⟩

theorem State.Keeps.of_words {s t : State} (hm : t.mem = s.mem)
    (hw : ∀ j, j = 0x00E08018 ∨ j = 0x00E08020 ∨ j = 0x00E08024 → t.word j = s.word j) : s.Keeps t :=
  ⟨State.SameMap.of_words hm hw, Memory.wf_same (State.SameMap.of_words hm hw) (by rw [hm]) (by rw [hm])⟩

theorem State.Keeps.setByte (s : State) (d : Nat) (v : Byte) : s.Keeps (s.setByte d v) := by
  have h : s.SameMap (s.setByte d v) := ⟨rfl, rfl, rfl, fun _ => rfl, rfl, rfl⟩
  refine ⟨h, fun w => ?_⟩
  rw [Memory.wf_iff] at *
  rw [h.byteDefault, h.flawDefault]
  exact ⟨Sparse.wf_set _ _ _ _ w.1, w.2⟩

theorem State.Keeps.setBytes (s : State) (d : Nat) (vs : List Byte) : s.Keeps (s.setBytes d vs) := by
  induction vs generalizing s d with
  | nil => exact State.Keeps.rfl' s
  | cons v vs ih => exact (State.Keeps.setByte s d v).trans (ih _ _)

theorem State.Keeps.setFlaw (s : State) (b : Nat) (f : Flaw) : s.Keeps (s.setFlaw b f) := by
  have h : s.SameMap (s.setFlaw b f) := ⟨rfl, rfl, rfl, fun _ => rfl, rfl, rfl⟩
  refine ⟨h, fun w => ?_⟩
  rw [Memory.wf_iff] at *
  rw [h.byteDefault, h.flawDefault]
  exact ⟨w.1, Sparse.wf_set _ _ _ _ w.2⟩

/-- A change of a channel that is not of its generation. -/
theorem State.Keeps.setChan (s : State) (n : Nat) (c : MemChan) (h : c.gen = (s.chan n).gen) : s.Keeps (s.setChan n c) := by
  have hm : s.SameMap (s.setChan n c) := by
    refine ⟨rfl, rfl, rfl, fun m => ?_, rfl, rfl⟩
    show (Sparse.get (fun _ => {}) (Sparse.set (fun _ => {}) s.mem.chan n c) m).gen = _
    rw [Sparse.get_set]
    by_cases e : m = n
    · subst e; simp [h]
    · simp [e, State.chan]
  exact ⟨hm, Memory.wf_same hm rfl rfl⟩

theorem State.Keeps.tally (s : State) (u i e n : Nat) : s.Keeps (s.tally u i e n) := by
  refine State.Keeps.of_words (State.tally_mem s u i e n) ?_
  rintro j (rfl | rfl | rfl) <;> exact State.tally_word _ _ _ _ _ _ (by decide)

theorem State.Keeps.draw (s : State) : s.Keeps s.draw.2 := ⟨⟨rfl, rfl, rfl, fun _ => rfl, rfl, rfl⟩, id⟩

theorem State.Keeps.logMem (s : State) (n c k : Nat) (d : List Nat) : s.Keeps (s.logErr (siteMem n) c k d) := by
  refine State.Keeps.of_words (State.logErr_mem _ _ _ _ _) ?_
  have hf : ∀ j, j = 0x00E08018 ∨ j = 0x00E08020 ∨ j = 0x00E08024 → ∀ f, (siteMem n).flag = some f → f.covers j = false := by
    intro j hj f h
    have hf : f = F.MEM_ERR := (Option.some.inj h).symm
    subst hf
    rcases hj with rfl | rfl | rfl <;> decide
  intro j hj
  refine State.logErr_word _ _ _ _ _ _ ?_ ?_ (hf j hj)
  · rcases hj with rfl | rfl | rfl <;> decide
  · left; show j < 0x00E08F00; omega

/-- A field of a channel's registers is no part of the map. -/
theorem State.Keeps.putMc (s : State) (f : Fld) (v : Nat) (h : f.off % 0x10000 < 0x1000) : s.Keeps (s.put f v) := by
  refine State.Keeps.of_words (State.put_mem _ _ _) ?_
  intro j hj
  apply State.word_put_other
  simp [Fld.covers]
  omega

theorem State.Keeps.wakeChannel (s : State) (n : Nat) : s.Keeps (s.wakeChannel n) := by
  have hsr : ∀ (t : State), t.Keeps (t.put (F.MC_STAT_SR n) 0) := by
    intro t
    refine State.Keeps.putMc t _ _ ?_
    show (0x00E00000 + 0x10000 * n) % 0x10000 < 0x1000; omega
  have hen : ∀ (v : Nat), s.Keeps (s.put (F.MC_SR_ENTRIES n) v) := by
    intro v
    refine State.Keeps.putMc s _ _ ?_
    show (0x00E00030 + 0x10000 * n) % 0x10000 < 0x1000; omega
  unfold State.wakeChannel
  dsimp only
  split
  · exact ((hen _).trans (hsr _)).trans (State.Keeps.setChan _ n _ rfl)
  · exact (hsr _).trans (State.Keeps.setChan _ n _ rfl)

/-- Row counters are no part of the map, and keep the channels. -/
theorem State.Keeps.bumpRow (s : State) (n k : Nat) (f : Fld)
    (h : f.off = 0x00E00034 + 0x10000 * n ∨ f.off = 0x00E00038 + 0x10000 * n ∨ f.off = 0x00E0002C + 0x10000 * n
      ∨ f.off = 0x00E0003C + 0x10000 * n) : s.Keeps (s.bump f k) := by
  refine State.Keeps.putMc _ _ _ ?_
  omega

theorem State.rowCounts_mem (s : State) (n : Nat) (hit full capped : Bool) : (s.rowCounts n hit full capped).mem = s.mem := by
  cases hit <;> cases full <;> cases capped <;> simp [State.rowCounts, State.bump, State.put_mem]

theorem State.Keeps.rowCounts (s : State) (n : Nat) (hit full capped : Bool) : s.Keeps (s.rowCounts n hit full capped) := by
  have h1 : s.Keeps (s.bump (if hit then F.MC_ROW_HITS n else F.MC_ROW_MISSES n)) := by
    cases hit
    · exact State.Keeps.bumpRow s n 1 (F.MC_ROW_MISSES n) (Or.inr (Or.inl rfl))
    · exact State.Keeps.bumpRow s n 1 (F.MC_ROW_HITS n) (Or.inl rfl)
  have h2 : ∀ t : State, t.Keeps (t.bump (F.MC_RD_REFRESHES n)) :=
    fun t => State.Keeps.bumpRow t n 1 (F.MC_RD_REFRESHES n) (Or.inr (Or.inr (Or.inl rfl)))
  have h3 : ∀ t : State, t.Keeps (t.bump (F.MC_CAP_EVENTS n)) :=
    fun t => State.Keeps.bumpRow t n 1 (F.MC_CAP_EVENTS n) (Or.inr (Or.inr (Or.inr rfl)))
  cases full <;> cases capped
  · exact h1
  · exact h1.trans (h3 _)
  · exact h1.trans (h2 _)
  · exact (h1.trans (h2 _)).trans (h3 _)

theorem State.Keeps.access (s : State) (n b row : Nat) (q : RowQueue) : s.Keeps (s.access n b row q).2 := by
  refine (State.Keeps.rowCounts s n _ _ _).trans (State.Keeps.setChan _ n _ ?_)
  simp only [State.chan, State.rowCounts_mem]
  rfl

theorem State.Keeps.rowQueue (s : State) (q : Option RowQueue) : s.Keeps (s.rowQueue q).2 := by
  cases q
  · exact State.Keeps.draw s
  · exact State.Keeps.rfl' s

theorem State.Keeps.memAccess (s : State) (d k : Nat) (q : Option RowQueue) : s.Keeps (s.memAccess d k q) :=
  ((State.Keeps.rowQueue s q).trans ((State.Keeps.wakeChannel _ _).trans ((State.Keeps.tally _ _ _ _ _).trans
    (State.Keeps.access _ _ _ _ _)))).trans (State.Keeps.tally _ _ _ _ _)

theorem State.Keeps.turnAway (s : State) (d : Nat) : s.Keeps (s.turnAway d) := by
  unfold State.turnAway
  dsimp only
  generalize s.channelOf d = n
  have h1 : s.Keeps (s.bump (F.MC_FENCED_ACC n)) := by
    refine State.Keeps.putMc _ _ _ ?_
    show (0x00E00040 + 0x10000 * n) % 0x10000 < 0x1000
    omega
  generalize s.bump (F.MC_FENCED_ACC n) = t at h1 ⊢
  split
  · refine (h1.trans (State.Keeps.setChan t n { t.chan n with fencedLogged := true } ?_)).trans (State.Keeps.logMem _ _ _ _ _)
    rfl
  · exact h1

theorem State.Keeps.findFlaw (s : State) (b : Nat) : s.Keeps (s.findFlaw b).2 := by
  unfold State.findFlaw
  split
  · exact (State.Keeps.draw s).trans (State.Keeps.setFlaw _ _ _)
  · exact State.Keeps.rfl' s

theorem State.Keeps.readBlock (s : State) (b : Nat) (q : Option RowQueue) : s.Keeps (s.readBlock b q).2 := by
  have hc : ∀ (t : State) (n k : Nat), t.Keeps (t.bump (F.MC_ECC_CORR n) k) := by
    intro t n k
    refine State.Keeps.putMc _ _ _ ?_
    show (0x00E00008 + 0x10000 * n) % 0x10000 < 0x1000
    omega
  have hu : ∀ (t : State) (n v : Nat), t.Keeps ((t.bump (F.MC_ECC_UNCORR n)).put (F.MC_LAST_UNCORR n) v) := by
    intro t n v
    refine State.Keeps.trans (State.Keeps.putMc _ _ _ ?_) (State.Keeps.putMc _ _ _ ?_)
    · show (0x00E0000C + 0x10000 * n) % 0x10000 < 0x1000; omega
    · show (0x00E00010 + 0x10000 * n) % 0x10000 < 0x1000; omega
  unfold State.readBlock
  dsimp only
  split
  · exact State.Keeps.rfl' s
  · split
    · exact State.Keeps.turnAway s _
    · have ha := State.Keeps.memAccess s (64 * b) 0 q
      revert ha
      generalize s.memAccess (64 * b) 0 q = t
      intro ha
      split
      · exact ha
      · replace ha := ha.trans (State.Keeps.findFlaw t b)
        revert ha
        generalize t.findFlaw b = u
        intro ha
        split
        · exact ha
        · exact ha
        · exact (ha).trans (hc _ _ _)
        · exact (ha).trans (hc _ _ _)
        · exact (ha).trans (hc _ _ _)
        · exact ((ha).trans (hu _ _ _)).trans (State.Keeps.logMem _ _ _ _ _)
        · exact ((ha).trans (hu _ _ _)).trans (State.Keeps.logMem _ _ _ _ _)
        · exact (ha).trans (hu _ _ _)

theorem State.Keeps.countBytes (s : State) (p n : Nat) : s.Keeps (s.countBytes p n) := by
  unfold State.countBytes
  split
  · exact ⟨⟨rfl, rfl, rfl, fun _ => rfl, rfl, rfl⟩, id⟩
  · exact State.Keeps.rfl' s

theorem State.Keeps.memGet (s : State) (port d n : Nat) (q : Option RowQueue) : s.Keeps (s.memGet port d n q).2 := by
  unfold State.memGet
  dsimp only
  have h : ∀ (l : List Nat) (a : Bool × State), s.Keeps a.2 →
      s.Keeps (l.foldl (fun (a : Bool × State) b => ((a.1 && (a.2.readBlock b q).1), (a.2.readBlock b q).2)) a).2 := by
    intro l
    induction l with
    | nil => intro a ha; exact ha
    | cons b l ih => intro a ha; exact ih _ (ha.trans (State.Keeps.readBlock _ _ _))
  exact h _ _ (State.Keeps.countBytes s _ _)

theorem State.Keeps.checkWrite (s : State) (d : Nat) (full poison : Bool) :
    s.Keeps (s.checkWrite d full poison) := by
  have hp : ∀ t : State, t.Keeps (t.poisonWrite d) := fun t => (State.Keeps.setFlaw t _ _).trans (State.Keeps.logMem _ _ _ _ _)
  have hf := State.Keeps.findFlaw s (d / 64)
  unfold State.checkWrite
  dsimp only
  split
  · exact State.Keeps.rfl' s
  · split
    · exact State.Keeps.setFlaw s _ _
    · split
      · exact State.Keeps.setFlaw s _ _
      · split
        · exact hf.trans (hp _)
        · exact hf.trans (hp _)
        · exact hf.trans (hp _)
        · exact hf.trans (State.Keeps.setFlaw _ _ _)

theorem State.Keeps.writeBlock (s : State) (d : Nat) (vs : List Byte) (p : Bool) : s.Keeps (s.writeBlock d vs p).2 := by
  unfold State.writeBlock
  dsimp only
  split
  · exact State.Keeps.rfl' s
  · split
    · exact State.Keeps.turnAway s _
    · have ha := State.Keeps.memAccess s d 1 none
      revert ha
      generalize s.memAccess d 1 none = t
      intro ha
      exact (ha.trans (State.Keeps.setBytes _ _ _)).trans (State.Keeps.checkWrite _ _ _ _)

theorem State.Keeps.memWriteAux (n : Nat) (s : State) (d : Nat) (vs : List Byte) (p : Bool) :
    s.Keeps (s.memWriteAux d vs p n).2 := by
  induction n generalizing s d vs with
  | zero => exact State.Keeps.rfl' s
  | succ n ih =>
    unfold State.memWriteAux
    split
    · exact State.Keeps.rfl' s
    · exact (State.Keeps.writeBlock s _ _ _).trans (ih _ _ _)

theorem State.Keeps.memPut (s : State) (port d : Nat) (vs : List Byte) (p : Bool) : s.Keeps (s.memPut port d vs p).2 :=
  (State.Keeps.countBytes s _ _).trans (State.Keeps.memWriteAux _ _ _ _ _)

/-! ### The data caches -/

/-- Kept by every step of a list's fold, so by the fold. -/
theorem State.Keeps.foldl {α : Type} (f : State → α → State) (hf : ∀ (s : State) (a : α), s.Keeps (f s a)) (l : List α) (s : State) :
    s.Keeps (l.foldl f s) := by
  induction l generalizing s with
  | nil => exact State.Keeps.rfl' s
  | cons a l ih => exact (hf s a).trans (ih _)

theorem State.Keeps.setEngine (s : State) (e : Nat) (g : Engine) : s.Keeps (s.setEngine e g) :=
  ⟨⟨rfl, rfl, rfl, fun _ => rfl, rfl, rfl⟩, id⟩

theorem State.Keeps.setEnabled (s : State) (d : Nat) (l : List (Option Byte)) : s.Keeps (s.setEnabled d l) := by
  induction l generalizing s d with
  | nil => exact State.Keeps.rfl' s
  | cons a l ih =>
    cases a with
    | none => exact ih _ _
    | some v => exact (State.Keeps.setByte s d v).trans (ih _ _)

theorem State.Keeps.writeEnabled (s : State) (port d : Nat) (data : List (Option Byte)) (p : Bool) (q : Option RowQueue) :
    s.Keeps (s.writeEnabled port d data p q).2 := by
  unfold State.writeEnabled
  dsimp only
  split
  · exact State.Keeps.rfl' s
  · split
    · exact State.Keeps.turnAway s _
    · generalize ((data.take 64).filter (·.isSome)).length = k
      have ha := (State.Keeps.countBytes s (2 * port + 1) k).trans (State.Keeps.memAccess _ d 1 q)
      revert ha
      generalize (s.countBytes (2 * port + 1) k).memAccess d 1 q = t
      intro ha
      exact (ha.trans (State.Keeps.setEnabled _ _ _)).trans (State.Keeps.checkWrite _ _ _ _)

theorem State.Keeps.landAll (s : State) (e : Nat) (which : Nat → Bool) : s.Keeps (s.landAll e which) :=
  (State.Keeps.setEngine s e _).trans
    (State.Keeps.foldl _ (fun _ _ => (State.Keeps.writeEnabled _ _ _ _ _ _).trans (State.Keeps.tally _ _ _ _ _)) _ _)

theorem State.Keeps.startBack (s : State) (e b : Nat) (l : DLine) : s.Keeps (s.startBack e b l) := by
  unfold State.startBack
  split
  · exact State.Keeps.rfl' s
  · exact State.Keeps.setEngine s e _

theorem State.Keeps.settleLine (s : State) (e b : Nat) : s.Keeps (s.settleLine e b) := by
  have hd := State.Keeps.draw s
  unfold State.settleLine
  revert hd
  generalize s.draw = r
  intro hd
  dsimp only
  have h : s.Keeps (if bit r.1.toNat 0 then r.2.landAll e (· == b) else r.2) := by
    split
    · exact hd.trans (State.Keeps.landAll _ _ _)
    · exact hd
  revert h
  generalize (if bit r.1.toNat 0 then r.2.landAll e (· == b) else r.2) = u
  intro h
  split
  · rename_i l _
    split
    · have hb := h.trans ((State.Keeps.setEngine u e _).trans (State.Keeps.startBack (u.dropLine e b) e b l))
      split
      · exact hb.trans (State.Keeps.landAll _ _ _)
      · exact hb
    · exact h
  · exact h

/-- What the caches settle keeps memory's canonical form. -/
theorem State.Keeps.settle (s : State) (d n : Nat) (own : Option Nat) : s.Keeps (s.settle d n own) := by
  unfold State.settle
  apply State.Keeps.foldl
  intro s p
  apply State.Keeps.foldl
  intro s b
  exact State.Keeps.settleLine s p.1 b

/-- With no engine that has left OFF, an access settles nothing. -/
theorem State.settle_of_idle (s : State) (d n : Nat) (own : Option Nat) (h : s.eng = []) : s.settle d n own = s := by
  unfold State.settle; rw [h]; rfl

/-- A read of memory keeps its canonical form. -/
theorem State.Keeps.memRead (s : State) (port d n : Nat) : s.Keeps (s.memRead port d n).2 :=
  (State.Keeps.settle s d n none).trans (State.Keeps.memGet _ _ _ _ _)

/-- A write of memory keeps its canonical form. -/
theorem State.Keeps.memWrite (s : State) (port d : Nat) (vs : List Byte) (p : Bool) : s.Keeps (s.memWrite port d vs p).2 :=
  (State.Keeps.settle s d vs.length none).trans (State.Keeps.memPut _ _ _ _ _)

/-- The boot zeroing leaves memory in canonical form, with nothing listed. -/
theorem Memory.wf_memZeroed (s : State) : Memory.wf s.memZeroed = true := rfl

/-- A channel trained anew keeps the canonical form: what stood in it is no longer listed (R578). -/
theorem Memory.wf_forgetChannel (s : State) (n : Nat) (h : Memory.wf s = true) : Memory.wf (s.forgetChannel n) = true := by
  have hch : ∀ d, (s.forgetChannel n).channelOf d = s.channelOf d := fun _ => rfl
  have hgen : ∀ m, m ≠ n → ((s.forgetChannel n).chan m).gen = (s.chan m).gen := by
    intro m hm
    show (Sparse.get (fun _ => {}) (Sparse.set (fun _ => {}) s.mem.chan n _) m).gen = _
    rw [Sparse.get_set_other _ _ _ _ _ hm]; rfl
  have key : ∀ {α : Type} [DecidableEq α] (d d' : Nat → α) (f : Nat → Bool) (m : List (Nat × α)),
      (∀ k, f k = true → d' k = d k) → Sparse.wf d m = true → Sparse.wf d' (m.filter fun p => f p.1) = true := by
    intro α _ d d' f m hd hm
    induction m with
    | nil => rfl
    | cons p m ih =>
      rw [Sparse.wf_cons] at hm
      by_cases hp : f p.1
      · simp only [List.filter_cons, hp, if_true]
        rw [Sparse.wf_cons]
        refine ⟨⟨by rw [hd _ hp]; exact hm.1.1, ?_⟩, ih hm.2⟩
        intro q hq
        exact hm.1.2 q (List.mem_filter.1 hq).1
      · simp only [List.filter_cons, hp]
        exact ih hm.2
  rw [Memory.wf_iff] at *
  refine ⟨key s.byteDefault _ (fun k => s.channelOf k != n) _ ?_ h.1, key s.flawDefault _ (fun k => s.channelOf (64 * k) != n) _ ?_ h.2⟩
  · intro k hk
    have hk' : s.channelOf k ≠ n := by simpa using hk
    show (if _ then _ else _) = (if _ then _ else _)
    rw [hch, hgen _ hk']
    rfl
  · intro k hk
    have hk' : s.channelOf (64 * k) ≠ n := by simpa using hk
    show (if _ then _ else _) = (if _ then _ else _)
    rw [hch, hgen _ hk']
    rfl

theorem reset_memory_wf : Memory.wf State.reset = true := rfl

/-! ### Bytes -/

/-- A byte stored reads back, and every other byte stays. -/
theorem State.byteAt_setByte (s : State) (d k : Nat) (v : Byte) :
    (s.setByte d v).byteAt k = if k = d then v else s.byteAt k := by
  have h : (s.setByte d v).byteDefault = s.byteDefault :=
    State.SameMap.byteDefault ⟨rfl, rfl, rfl, fun _ => rfl, rfl, rfl⟩
  unfold State.byteAt
  rw [h]
  exact Sparse.get_set _ _ _ _ _

/-- Bytes stored from an address on. -/
theorem State.byteAt_setBytes (vs : List Byte) (s : State) (d k : Nat) :
    (s.setBytes d vs).byteAt k = if d ≤ k ∧ k < d + vs.length then vs.getD (k - d) 0 else s.byteAt k := by
  induction vs generalizing s d with
  | nil =>
    rw [State.setBytes, if_neg]
    intro h; have h2 : k < d + 0 := h.2; omega
  | cons v vs ih =>
    rw [State.setBytes, ih, State.byteAt_setByte]
    by_cases h : k = d
    · subst h
      rw [if_neg (by omega), if_pos rfl, if_pos ⟨Nat.le_refl k, by rw [List.length_cons]; omega⟩, Nat.sub_self]; rfl
    · by_cases h2 : d + 1 ≤ k ∧ k < d + 1 + vs.length
      · have h3 : d ≤ k ∧ k < d + (v :: vs).length := by simp; omega
        have h4 : k - d = (k - (d + 1)) + 1 := by omega
        rw [if_pos h2, if_pos h3, h4]; rfl
      · have h3 : ¬ (d ≤ k ∧ k < d + (v :: vs).length) := by simp; omega
        rw [if_neg h2, if_neg h3, if_neg h]

end Sys2Proof.Machine
end

