-- ==== Sys2Proof/Tests/Slice0.lean ====
section
/-! SUPPORT. Tests of the model: the refusals of WellFormed, words and numbers worked out from the manual, and for every
statement a state and operands that meet its hypotheses. -/

set_option Elab.async false

namespace Sys2Proof.Tests

open Sys2Proof Sys2Proof.Machine

/-! ### Small states -/

/-- A device that has booted, at a Tempo of 2^40. -/
def base : State := { State.reset with tempo := 0x10000000000, boot := { step := 7 } }

/-- The state with register fields put in. -/
def with_ (s : State) (l : List (Fld × Nat)) : State := l.foldl (fun s p => s.put p.1 p.2) s

/-- What a command answers, as a state. -/
def after (r : Res) : State :=
  match r with
  | .next t => t
  | _ => State.reset

/-- A line of head 127. -/
def hline : HeadLine :=
  { pipe := 7, k := 0, pos := 0, tk := 0, delay := 0, rho := 0, payload := 0, flagged := false }

/-! ### Every statement's hypotheses are met -/

theorem witness_RegisterCommands_writes :
    ∀ p ∈ ([(.pf 5, 4 * 0x5FFFFC), (.secDom, 4 * 0)] : List (Requester × Nat)), (base.wait 1).TakesWrite p.1 p.2 := by
  unfold State.TakesWrite; decide +kernel

theorem witness_RegisterCommands_reads :
    ∀ p ∈ ([(.pf 5, 4 * 0x5FFFFC), (.pf 2, logRings.getD 43 0 + 0x40)] : List (Requester × Nat)), (base.wait 1).TakesRead p.1 p.2 := by
  unfold State.TakesRead; decide +kernel

theorem witness_RegisterCommands :
    (∃ (dt : Nat) (who : Requester) (s₀ s : State), s = s₀.wait dt ∧ s.held = false ∧ s.inReset who = false)
    ∧ (∃ (dt : Nat) (f : Fin 6) (s₀ s : State), s = s₀.wait dt ∧ s.held = false ∧ s.inFlr f = false)
    ∧ (∃ (dt : Nat) (f : Fin 6) (s₀ s : State), s = s₀.wait dt ∧ s.held = false ∧ s.inFlr f = true) := 
  ⟨⟨1, .pf 0, base, _, rfl, by decide +kernel⟩,
   ⟨1, 5, base, _, rfl, by decide +kernel⟩,
   ⟨1, 5, { base with hif := { flr := 0x20 } }, _, rfl, by decide +kernel⟩⟩

theorem witness_WebTimingCommands_writes :
    ∀ p ∈ ([(.pf 0, O.WTU_LG_CTRL 31), (.pf 0, O.WTU_SLOT_CTRL 31), (.pf 0, O.WTU_SNAP_CTRL 3), (.pf 0, O.WTU_SSI_REQ 1), (.pf 0, O.WTU_CTRL)] : List (Requester × Nat)), (base.wait 1).TakesWrite p.1 p.2 := by
  unfold State.TakesWrite; decide +kernel

theorem witness_WebTimingCommands :
    (∃ (dt : Nat) (n : Fin 4) (s₀ s : State), s = s₀.wait dt ∧ s.held = false ∧ s.acceptDue n = true)
    ∧ (∃ (dt : Nat) (n : Fin 4) (s₀ s : State), s = s₀.wait dt ∧ s.held = false ∧ (s.on (F.WTU_ENC_CFG_EN n) && s.motion n != stStill && (s.dec n).lastTracked + 8 * s.get F.WTU_STILL_TIME ≤ s.now : Bool) = true)
    ∧ (∃ (dt : Nat) (n : Fin 4) (lineB : Bool) (s₀ s : State), s = s₀.wait dt ∧ s.held = false ∧ s.lineStuck n (if lineB then .b else .a) = true)
    ∧ (∃ (dt : Nat) (n : Fin 4) (lineB : Bool) (s₀ s : State), s = s₀.wait dt ∧ s.held = false ∧ (let l := (s.dec n).line (if lineB then .b else .a); l.level && !l.levelSeen && l.lastAcc + 8 * (2 ^ 16 * s.get (F.WTU_ENC_LEVEL n)) < s.now : Bool) = true)
    ∧ (∃ (dt : Nat) (m : Fin 2) (s₀ s : State), s = s₀.wait dt ∧ s.held = false ∧ s.on (F.WTU_SSI_STAT_BUSY m) = true)
    ∧ (∃ (dt : Nat) (g : Fin 32) (s₀ s : State), ∃ due, s = s₀.wait dt ∧ s.held = false ∧ s.launchDue g = true ∧ s.lineTempo g (s.gen g).nextK = some due)
    ∧ (∃ (dt : Nat) (g : Fin 32) (s₀ s : State), ∃ k due, s = s₀.wait dt ∧ s.held = false ∧ s.commitDue g = true ∧ (s.gen g).launched.head? = some k ∧ s.lineTempo g k = some due)
    ∧ (∃ (dt : Nat) (slot : Fin 32) (s₀ s : State), s = s₀.wait dt ∧ s.held = false ∧ s.slotDue slot = true) := 
  ⟨⟨1, 3, { base with wtu := { dec := [(3, { a := { raw := true } })] } }, _, rfl, by decide +kernel⟩,
   ⟨1, 3, with_ (base) [(F.WTU_ENC_CFG_EN 3, 1), (F.WTU_ENC_STAT_STATE 3, stForward)], _, rfl, by decide +kernel⟩,
   ⟨1, 3, true, { base with wtu := { dec := [(3, { a := { accs := [2 ^ 40, 2 ^ 40, 2 ^ 40, 2 ^ 40] } })] } }, _, rfl, by decide +kernel⟩,
   ⟨1, 3, true, { base with wtu := { dec := [(3, { b := { level := true } })] } }, _, rfl, by decide +kernel⟩,
   ⟨1, 1, with_ (base) [(F.WTU_SSI_STAT_BUSY 1, 1)], _, rfl, by decide +kernel⟩,
   ⟨1, 31, with_ ({ base with wtu := { latchV := 1 } }) [(F.WTU_LG_CTRL_EN 31, 1), (F.WTU_LG_CTRL_HOLD 31, 0)], _, 0, rfl, by decide +kernel⟩,
   ⟨1, 31, with_ ({ base with wtu := { latchV := 1, gen := [(31, { launched := [0] })] } }) [(F.WTU_LG_CTRL_EN 31, 1), (F.WTU_LG_CTRL_HOLD 31, 0)], _, 0, 0, rfl, by decide +kernel⟩,
   ⟨1, 31, with_ (base) [(F.WTU_SLOT_CTRL_ARM 31, 1)], _, rfl, by decide +kernel⟩⟩

theorem witness_JobIngestCommands_writes :
    ∀ p ∈ ([(.pf 1, O.CMP_PLANE_GEOM2 63), (.pf 1, O.CMP_RING_CFG 3), (.pf 1, O.CMP_RING_CONS 3), (.pf 1, O.CMP_RING_PROD 3), (.pf 1, O.CMP_DQ_PROD)] : List (Requester × Nat)), (base.wait 1).TakesWrite p.1 p.2 := by
  unfold State.TakesWrite; decide +kernel

theorem witness_JobIngestCommands :
    (∃ (dt : Nat) (s₀ s : State), s = s₀.wait dt ∧ s.held = false ∧ (s.nextRing.isSome && s.idleLane.isSome : Bool) = true)
    ∧ (∃ (dt : Nat) (lane : Fin 32) (s₀ s : State), s = s₀.wait dt ∧ s.held = false ∧ (s.lane lane).isSome = true)
    ∧ (∃ (dt : Nat) (s₀ s : State), s = s₀.wait dt ∧ s.held = false ∧ (s.descWaiting && s.idleDefl.isSome : Bool) = true)
    ∧ (∃ (dt : Nat) (lane : Fin 8) (s₀ s : State), ∃ d, s = s₀.wait dt ∧ s.held = false ∧ s.deflLane lane = some d) := 
  ⟨⟨1, with_ ({ base with cmp := { recs := [(3, [{ ring := 3, at_ := 0, len := 64, plane := 0, mapIndex := 0, slot := 0, clen := 0, ulen := 0, check := 0, seq := 0, job := 0 }])] } }) [(F.CMP_RING_CFG_EN 3, 1), (F.CMP_RING_PROD 3, 64), (F.CMP_CTRL_INF_LANES, 1)], _, rfl, by decide +kernel⟩,
   ⟨1, 31, { base with cmp := { lanes := [(31, some { ring := 3, at_ := 0, len := 64, plane := 0, mapIndex := 0, slot := 0, clen := 0, ulen := 0, check := 0, seq := 0, job := 0 })] } }, _, rfl, by decide +kernel⟩,
   ⟨1, with_ (base) [(F.CMP_DQ_CFG_EN, 1), (F.CMP_DQ_PROD, 1), (F.CMP_CTRL_DEF_LANES, 1)], _, rfl, by decide +kernel⟩,
   ⟨1, 7, { base with cmp := { defl := [(7, some 0)] } }, _, 0, rfl, by decide +kernel⟩⟩

theorem witness_RenderPipeCommands_writes :
    ∀ p ∈ ([(.pf 1, O.RP_CTRL 7), (.pf 1, O.RP_TS_DATA)] : List (Requester × Nat)), (base.wait 1).TakesWrite p.1 p.2 := by
  unfold State.TakesWrite; decide +kernel

theorem witness_RenderPipeCommands_reads :
    ∀ p ∈ ([(.pf 1, O.RP_TS_DATA)] : List (Requester × Nat)), (base.wait 1).TakesRead p.1 p.2 := by
  unfold State.TakesRead; decide +kernel

theorem witness_RenderPipeCommands :
    (∃ (dt : Nat) (n : Fin 8) (s₀ s : State), s = s₀.wait dt ∧ s.held = false ∧ (s.nextLine n).isSome = true)
    ∧ (∃ (dt : Nat) (n : Fin 8) (s₀ s : State), s = s₀.wait dt ∧ s.held = false ∧ (s.renderedLine n).isSome = true)
    ∧ (∃ (dt : Nat) (n : Fin 8) (s₀ s : State), s = s₀.wait dt ∧ s.held = false ∧ s.retirable n = true) := 
  ⟨⟨1, 7, with_ ({ base with rp := [(7, { queue := [{ k := 0, pos := 0, tk := 0, bank := 0, epoch := 0 }] })] }) [(F.RP_STAT_STATE 7, rpRendering)], _, rfl, by decide +kernel⟩,
   ⟨1, 7, { base with rp := [(7, { queue := [{ k := 0, pos := 0, tk := 0, bank := 0, epoch := 0 }], busyAt := some 0 })] }, _, rfl, by decide +kernel⟩,
   ⟨1, 7, { base with rp := [(7, { unretired := [(0, some 0)] })] }, _, rfl, by decide +kernel⟩⟩

theorem witness_NozzleTableCommands_writes :
    ∀ p ∈ ([(.pf 1, O.RP_NT_RMW_DATA 3), (.pf 1, ntOff 524287), (.pf 1, O.RP_NT_CTRL)] : List (Requester × Nat)), (base.wait 1).TakesWrite p.1 p.2 := by
  unfold State.TakesWrite; decide +kernel

theorem witness_NozzleTableCommands_reads :
    ∀ p ∈ ([(.pf 1, ntOff 524287)] : List (Requester × Nat)), (base.wait 1).TakesRead p.1 p.2 := by
  unfold State.TakesRead; decide +kernel

theorem witness_NozzleTableCommands :
    (∃ (dt : Nat) (s₀ s : State), s = s₀.wait dt ∧ s.held = false ∧ s.ntInitOver = true)
    ∧ (∃ (dt : Nat) (s₀ s : State), s = s₀.wait dt ∧ s.held = false ∧ s.ntReady = true)
    ∧ (∃ (dt : Nat) (s₀ s : State), s = s₀.wait dt ∧ s.held = false ∧ (s.nt.initAt.isNone && s.on F.RP_NT_CTRL_SCRUB_EN && s.nt.scrubAt + 256 * 4 ≤ s.now : Bool) = true) := 
  ⟨⟨1, base, _, rfl, by decide +kernel⟩,
   ⟨1, { base with nt := { initAt := none, waiting := [{ idx := 524287, op := .masked 1 1 }] } }, _, rfl, by decide +kernel⟩,
   ⟨1, with_ ({ base with nt := { initAt := none } }) [(F.RP_NT_CTRL_SCRUB_EN, 1)], _, rfl, by decide +kernel⟩⟩

theorem witness_FireTimingCommands_writes :
    ∀ p ∈ ([(.pf 1, O.FTU_HEAD_CFG 127), (.pf 1, O.FTU_HEAD_STAT 127), (.pf 1, O.FTU_CTRL), (.pf 1, O.FTU_OVS_CTRL)] : List (Requester × Nat)), (base.wait 1).TakesWrite p.1 p.2 := by
  unfold State.TakesWrite; decide +kernel

theorem witness_FireTimingCommands :
    (∃ (dt : Nat) (bar : Fin 8) (s₀ s : State), s = s₀.wait dt ∧ s.held = false ∧ s.skipsOver bar = true)
    ∧ (∃ (dt : Nat) (s₀ s : State), s = s₀.wait dt ∧ s.held = false ∧ s.inhibitOver = true)
    ∧ (∃ (dt : Nat) (x : Fin 128) (s₀ s : State), s = s₀.wait dt ∧ s.held = false ∧ (s.arriving x).isSome = true)
    ∧ (∃ (dt : Nat) (x : Fin 128) (s₀ s : State), s = s₀.wait dt ∧ s.held = false ∧ (s.sendable x).isSome = true)
    ∧ (∃ (dt : Nat) (x : Fin 128) (s₀ s : State), s = s₀.wait dt ∧ s.held = false ∧ (s.deciding x).isSome = true)
    ∧ (∃ (dt : Nat) (x : Fin 128) (s₀ s : State), s = s₀.wait dt ∧ s.held = false ∧ (s.starting x).isSome = true)
    ∧ (∃ (dt : Nat) (x : Fin 128) (s₀ s : State), ∃ fall, s = s₀.wait dt ∧ s.held = false ∧ s.strobeFall x = some fall ∧ fall ≤ s.now)
    ∧ (∃ (dt : Nat) (x : Fin 128) (s₀ s : State), s = s₀.wait dt ∧ s.held = false ∧ s.ackLate x = true)
    ∧ (∃ (dt : Nat) (x : Fin 128) (s₀ s : State), s = s₀.wait dt ∧ s.held = false ∧ s.overHigh x = true)
    ∧ (∃ (dt : Nat) (s₀ s : State), s = s₀.wait dt ∧ s.held = false ∧ s.on F.FTU_STAT_FLG_OK = true)
    ∧ (∃ (dt : Nat) (x : Fin 128) (s₀ s : State), s = s₀.wait dt ∧ s.held = false ∧ s.on (F.FTU_LINK_STAT_UP (x / 4)) = false) := 
  ⟨⟨1, 7, { base with ftu := { bars := [(7, { skips := some { first := { k := 0, pos := 0, tk := 0, head := 0, tag := {} }, last := 0, lastPos := 0, count := 1 }, seen := 64 })] } }, _, rfl, by decide +kernel⟩,
   ⟨1, with_ ({ base with ftu := { inhibits := [(0, some 0)] } }) [(F.FTU_OVS_CTRL_INH_ACTIVE, 1)], _, rfl, by decide +kernel⟩,
   ⟨1, 127, { base with ftu := { heads := [(127, { lines := [hline] })] } }, _, rfl, by decide +kernel⟩,
   ⟨1, 127, with_ ({ base with ftu := { heads := [(127, { lines := [{ hline with arrived := true }] })] } }) [(F.FTU_HEAD_STAT_STATE 127, hdIdle)], _, rfl, by decide +kernel⟩,
   ⟨1, 127, { base with ftu := { heads := [(127, { lines := [{ hline with commit := some { k := 0, t := 0, v := 2 ^ 40, inhibit := false } }] })] } }, _, rfl, by decide +kernel⟩,
   ⟨1, 127, { base with ftu := { heads := [(127, { firing := some (hline, 0, 0) })] } }, _, rfl, by decide +kernel⟩,
   ⟨1, 127, { base with ftu := { heads := [(127, { firing := some (hline, 0, 4), highSince := some 0 })] } }, _, 4, rfl, by decide +kernel⟩,
   ⟨1, 127, with_ ({ base with ftu := { heads := [(127, { ackFor := some (0, 0) })] } }) [(F.FTU_HEAD_STAT_STATE 127, hdWaitAck)], _, rfl, by decide +kernel⟩,
   ⟨1, 127, { base with ftu := { heads := [(127, { highSince := some 0 })] } }, _, rfl, by decide +kernel⟩,
   ⟨1, with_ (base) [(F.FTU_STAT_FLG_OK, 1)], _, rfl, by decide +kernel⟩,
   ⟨1, 127, base, _, rfl, by decide +kernel⟩⟩

theorem witness_DropGateCommands_writes :
    ∀ p ∈ ([(.pf 1, O.DGU_SCAN_CTRL 7)] : List (Requester × Nat)), (base.wait 1).TakesWrite p.1 p.2 := by
  unfold State.TakesWrite; decide +kernel

theorem witness_DropGateCommands :
    (∃ (dt : Nat) (c : Fin 16) (bits : SdBits) (s₀ s : State), s = s₀.wait dt ∧ s.held = false ∧ s.cicDue c bits = true)
    ∧ (∃ (dt : Nat) (c : Fin 16) (s₀ s : State), s = s₀.wait dt ∧ s.held = false ∧ s.restartDue c = true)
    ∧ (∃ (dt : Nat) (s₀ s : State), s = s₀.wait dt ∧ s.held = false ∧ s.recordDue = true) := 
  ⟨⟨1, 15, ⟨0, List.replicate 16 true⟩, with_ ({ base with dgu := { cic := [(15, { restart := none, lastEdge := some 0 })] } }) [(F.DGU_CH_CFG_EN 15, 1), (F.DGU_CLK_EN 3, 1)], _, rfl, by decide +kernel⟩,
   ⟨160, 15, with_ (base) [(F.DGU_CH_CFG_EN 15, 1), (F.DGU_CLK_EN 3, 1)], _, rfl, by decide +kernel⟩,
   ⟨1, { base with dgu := { ready := [(7, 0)] } }, _, rfl, by decide +kernel⟩⟩

theorem witness_CameraAndInspectionCommands_writes :
    ∀ p ∈ ([(.pf 2, O.CIN_PORT_CTRL 15), (.pf 2, O.DGU_HB_CFG 3), (.pf 2, O.IPL_CTRL), (.pf 2, O.IPL_TBL_DATA), (.pf 2, O.RRU_CTRL)] : List (Requester × Nat)), (base.wait 1).TakesWrite p.1 p.2 := by
  unfold State.TakesWrite; decide +kernel

theorem witness_CameraAndInspectionCommands_reads :
    ∀ p ∈ ([(.pf 2, O.IPL_TBL_DATA)] : List (Requester × Nat)), (base.wait 1).TakesRead p.1 p.2 := by
  unfold State.TakesRead; decide +kernel

theorem witness_CameraAndInspectionCommands :
    (∃ (dt : Nat) (n : Fin 16) (s₀ s : State), s = s₀.wait dt ∧ s.held = false ∧ s.on (F.CIN_PORT_STAT_LINK_UP n) = true)
    ∧ (∃ (dt : Nat) (n : Fin 16) (s₀ s : State), s = s₀.wait dt ∧ s.held = false ∧ (s.cinState n = cinRunning && (s.cam n).telAt + 4000000000 ≤ s.now : Bool) = true)
    ∧ (∃ (dt : Nat) (s₀ s : State), ∃ t, s = s₀.wait dt ∧ s.held = false ∧ s.formable = some t ∧ s.get F.IPL_STAT_STATE ≠ unitDisabled)
    ∧ (∃ (dt : Nat) (s₀ s : State), ∃ r, s = s₀.wait dt ∧ s.held = false ∧ s.refReady = some r)
    ∧ (∃ (dt : Nat) (s₀ s : State), ∃ r rest, s = s₀.wait dt ∧ s.held = false ∧ s.rru.busy = r :: rest) := 
  ⟨⟨1, 15, with_ (base) [(F.CIN_PORT_STAT_LINK_UP 15, 1)], _, rfl, by decide +kernel⟩,
   ⟨1, 15, with_ (base) [(F.CIN_PORT_STAT_STATE 15, cinRunning)], _, rfl, by decide +kernel⟩,
   ⟨1, with_ ({ base with ipl := { todo := [{ k := 0, pos := 0, bank := 0 }] } }) [(F.IPL_STAT_STATE, unitRunning)], _, { k := 0, pos := 0, bank := 0 }, rfl, by decide +kernel⟩,
   ⟨1, with_ ({ base with rru := { queue := [{ k := 0, pos := 0, bank := 0 }] } }) [(F.RRU_STAT_STATE, unitRunning)], _, { k := 0, pos := 0, bank := 0 }, rfl, by decide +kernel⟩,
   ⟨1, { base with rru := { busy := [{ k := 0, pos := 0, bank := 0 }] } }, _, { k := 0, pos := 0, bank := 0 }, [], rfl, by decide +kernel⟩⟩

theorem witness_DefectQueueCommands_writes :
    ∀ p ∈ ([(.pf 2, O.DFQ_CTRL), (.pf 2, O.DFQ_PUSH_CTRL)] : List (Requester × Nat)), (base.wait 1).TakesWrite p.1 p.2 := by
  unfold State.TakesWrite; decide +kernel

theorem witness_DefectQueueCommands_reads :
    ∀ p ∈ ([(.pf 2, O.DFQ_RD 0)] : List (Requester × Nat)), (base.wait 1).TakesRead p.1 p.2 := by
  unfold State.TakesRead; decide +kernel

theorem witness_DefectQueueCommands :
    (∃ (dt : Nat) (s₀ s : State), s = s₀.wait dt ∧ s.held = false ∧ s.offersDue ≠ [])
    ∧ (∃ (dt : Nat) (s₀ s : State), s = s₀.wait dt ∧ s.held = false ∧ s.drainHead.isSome = true) := 
  ⟨⟨1, { base with dfq := { offers := [{ rank := 0, recs := [] }] } }, _, rfl, by decide +kernel⟩,
   ⟨1, with_ ({ base with dfq := { stored := [{ sev := 7, recs := [[0]] }] } }) [(F.DFQ_DRAIN_CFG_EN, 1)], _, rfl, by decide +kernel⟩⟩

theorem witness_SpliceCommands_writes :
    ∀ p ∈ ([(.pf 1, O.FAB_SPLICE_WCO + 4), (.pf 1, O.FAB_CTRL)] : List (Requester × Nat)), (base.wait 1).TakesWrite p.1 p.2 := by
  unfold State.TakesWrite; decide +kernel

theorem witness_SpliceCommands :
    (∃ (dt : Nat) (s₀ s : State), s = s₀.wait dt ∧ s.held = false ∧ s.fabState = fbVerifying)
    ∧ (∃ (dt : Nat) (s₀ s : State), s = s₀.wait dt ∧ s.held = false ∧ s.fabState = fbApplying)
    ∧ (∃ (dt : Nat) (s₀ s : State), ∃ rearm, s = s₀.wait dt ∧ s.held = false ∧ s.fab.arming = some rearm)
    ∧ (∃ (dt : Nat) (st : Fin 10) (s₀ s : State), s = s₀.wait dt ∧ s.held = false ∧ st = 9 ∧ s.globalDue = true)
    ∧ (∃ (dt : Nat) (st : Fin 10) (s₀ s : State), s = s₀.wait dt ∧ s.held = false ∧ st ≠ 9 ∧ s.launchDue (s.stationGen st) = true)
    ∧ (∃ (dt : Nat) (s₀ s : State), s = s₀.wait dt ∧ s.held = false ∧ s.fab.ready ≠ [])
    ∧ (∃ (dt : Nat) (s₀ s : State), s = s₀.wait dt ∧ s.held = false ∧ (s.undecided && decide (s.decisionPoint ≤ (s.wco : Int)) : Bool) = true)
    ∧ (∃ (dt : Nat) (s₀ s : State), s = s₀.wait dt ∧ s.held = false ∧ s.twinSplice = true)
    ∧ (∃ (dt : Nat) (s₀ s : State), s = s₀.wait dt ∧ s.held = false ∧ s.twinSplice = true) := 
  ⟨⟨1, with_ (base) [(F.FAB_STAT_STATE, fbVerifying)], _, rfl, by decide +kernel⟩,
   ⟨1, with_ (base) [(F.FAB_STAT_STATE, fbApplying)], _, rfl, by decide +kernel⟩,
   ⟨1, with_ ({ base with fab := { arming := some false } }) [(F.FAB_STAT_STATE, fbLoaded)], _, false, rfl, by decide +kernel⟩,
   ⟨1, 9, with_ (base) [(F.FAB_STAT_STATE, fbSplicing)], _, rfl, by decide +kernel⟩,
   ⟨1, 8, with_ ({ base with wtu := { latchV := 1 } }) [(F.WTU_LG_CTRL_EN 0, 1), (F.WTU_LG_CTRL_HOLD 0, 0)], _, rfl, by decide +kernel⟩,
   ⟨1, { base with fab := { ready := [{ station := 0, off := 0, value := 0 }] } }, _, rfl, by decide +kernel⟩,
   ⟨1, with_ ({ base with fab := { todo := [0] } }) [(F.FAB_STAT_STATE, fbArmed), (F.FAB_CTRL_TWIN, 1), (F.TWN_STAT_STATE, twActive)], _, rfl, by decide +kernel⟩,
   ⟨1, with_ (base) [(F.FAB_CTRL_TWIN, 1), (F.TWN_STAT_STATE, twActive)], _, rfl, by decide +kernel⟩,
   ⟨1, with_ (base) [(F.FAB_CTRL_TWIN, 1), (F.TWN_STAT_STATE, twActive)], _, rfl, by decide +kernel⟩⟩

theorem witness_EngineControlCommands_writes :
    ∀ p ∈ ([(.pf 3, O.ENG_OFF 5), (.pf 3, O.ENG_START 5), (.pf 3, O.ENG_STOP 5)] : List (Requester × Nat)), (base.wait 1).TakesWrite p.1 p.2 := by
  unfold State.TakesWrite; decide +kernel

theorem witness_EngineControlCommands :
    (∃ (dt : Nat) (e : Fin 192) (s₀ s : State), ∃ w deadline, s = s₀.wait dt ∧ s.held = false ∧ s.engState e = egWaiting ∧ (s.engine e).off = false ∧ (s.engine e).wait = some (w, deadline) ∧ s.waitHolds e deadline (insImm8 w) = true)
    ∧ (∃ (dt : Nat) (e : Fin 192) (s₀ s : State), s = s₀.wait dt ∧ s.held = false ∧ ((s.engine e).stop && (s.engState e == egRunning || s.engState e == egWaiting) : Bool) = true)
    ∧ (∃ (dt : Nat) (e : Fin 192) (s₀ s : State), s = s₀.wait dt ∧ s.held = false ∧ (s.engine e).off = true)
    ∧ (∃ (dt : Nat) (s₀ s : State), s = s₀.wait dt ∧ s.held = false ∧ s.on F.ENG_STAT = false) := 
  ⟨⟨1, 191, with_ ({ base with eng := [(191, { wait := some (0x05024A20, 0) })] }) [(F.ENGINE_STAT_STATE 191, egWaiting), (F.ENGINE_EV_PENDING 191, 255)], _, 0x05024A20, 0, rfl, by decide +kernel⟩,
   ⟨1, 191, with_ ({ base with eng := [(191, { stop := true })] }) [(F.ENGINE_STAT_STATE 191, egWaiting)], _, rfl, by decide +kernel⟩,
   ⟨1, 191, { base with eng := [(191, { off := true })] }, _, rfl, by decide +kernel⟩,
   ⟨1, base, _, rfl, by decide +kernel⟩⟩

theorem witness_EventFabricCommands_writes :
    ∀ p ∈ ([(.pf 0, pendingBase 511 + 4 * 4), (.pf 5, O.EVF_COMMIT)] : List (Requester × Nat)), (base.wait 1).TakesWrite p.1 p.2 := by
  unfold State.TakesWrite; decide +kernel

theorem witness_EventFabricCommands :
    (∃ (dt : Nat) (s₀ s : State), s = s₀.wait dt ∧ s.held = false ∧ s.presented ≠ [])
    ∧ (∃ (dt : Nat) (t : Fin 32) (s₀ s : State), s = s₀.wait dt ∧ s.held = false ∧ s.timerDue t = true)
    ∧ (∃ (dt : Nat) (s₀ s : State), ∃ c, s = s₀.wait dt ∧ s.held = false ∧ s.evf.check = some c) := 
  ⟨⟨1, { base with presented := [(1343, 0)] }, _, rfl, by decide +kernel⟩,
   ⟨1, 31, with_ (base) [(F.EVF_TMR_CFG_RUNNING 31, 1)], _, rfl, by decide +kernel⟩,
   ⟨1, { base with evf := { check := some { who := 0, chans := [511] } } }, _, { who := 0, chans := [511] }, rfl, by decide +kernel⟩⟩

theorem witness_DmaCommands_writes :
    ∀ p ∈ ([(.pf 0, O.DMA_CH_CTRL 31), (.pf 0, O.DMA_CH_DOORBELL 31)] : List (Requester × Nat)), (base.wait 1).TakesWrite p.1 p.2 := by
  unfold State.TakesWrite; decide +kernel

theorem witness_DmaCommands :
    (∃ (dt : Nat) (c : Fin 32) (host : Bytes) (s₀ s : State), ∃ m, s = s₀.wait dt ∧ s.held = false ∧ s.dmaState c = dmRunning ∧ (s.dmaChan c).move = some m ∧ (s.fromHost c m = true ∧ host.length = m.len))
    ∧ (∃ (dt : Nat) (c : Fin 32) (s₀ s : State), ∃ mode t, s = s₀.wait dt ∧ s.held = false ∧ (s.dmaChan c).wait = some (mode, t) ∧ s.dmaState c = dmWaiting)
    ∧ (∃ (dt : Nat) (c : Fin 32) (s₀ s : State), ∃ ev pub r, s = s₀.wait dt ∧ s.held = false ∧ (s.dmaChan c).signal = some (ev, pub, r) ∧ s.dmaState c = dmRunning)
    ∧ (∃ (dt : Nat) (c : Fin 32) (s₀ s : State), s = s₀.wait dt ∧ s.held = false ∧ s.dmaState c = dmRunning)
    ∧ (∃ (dt : Nat) (c : Fin 32) (s₀ s : State), s = s₀.wait dt ∧ s.held = false ∧ s.dmaState c = dmStopping) := 
  ⟨⟨1, 31, List.replicate 64 0, with_ ({ base with dma := [(31, { move := some { srcMode := 0, dstMode := 0, src := 2 ^ 63, dst := 0, len := 64, noSnoop := false } })] }) [(F.DMA_CH_STAT_STATE 31, dmRunning)], _, { srcMode := 0, dstMode := 0, src := 2 ^ 63, dst := 0, len := 64, noSnoop := false }, rfl, by decide +kernel⟩,
   ⟨1, 31, with_ ({ base with dma := [(31, { wait := some (2, 5) })] }) [(F.DMA_CH_STAT_STATE 31, dmWaiting)], _, 2, 5, rfl, by decide +kernel⟩,
   ⟨1, 31, with_ ({ base with dma := [(31, { signal := some (true, true, 7) })] }) [(F.DMA_CH_STAT_STATE 31, dmRunning)], _, true, true, 7, rfl, by decide +kernel⟩,
   ⟨1, 31, with_ (base) [(F.DMA_CH_STAT_STATE 31, dmRunning)], _, rfl, by decide +kernel⟩,
   ⟨1, 31, with_ (base) [(F.DMA_CH_STAT_STATE 31, dmStopping)], _, rfl, by decide +kernel⟩⟩

theorem witness_MemoryCommands_writes :
    ∀ p ∈ ([(.pf 0, O.MC_CTRL 15), (.pf 0, O.MEM_CTRL)] : List (Requester × Nat)), (base.wait 1).TakesWrite p.1 p.2 := by
  unfold State.TakesWrite; decide +kernel

theorem witness_MemoryCommands :
    (∃ (dt : Nat) (s₀ s : State), s = s₀.wait dt ∧ s.held = false ∧ s.on F.MEM_STAT_SWAP_PEND = true)
    ∧ (∃ (dt : Nat) (n : Fin 16) (s₀ s : State), s = s₀.wait dt ∧ s.held = false ∧ (s.chan n).lastSlot ≠ some s.slotNumber)
    ∧ (∃ (dt : Nat) (n : Fin 16) (s₀ s : State), s = s₀.wait dt ∧ s.held = false ∧ s.grantIdle n = true)
    ∧ (∃ (dt : Nat) (n : Fin 16) (bank : Fin 32) (s₀ s : State), s = s₀.wait dt ∧ s.held = false ∧ (let b := (s.chan n).bank bank; b.openRow.isSome && decide (b.usedAt + 6 * max 1 (s.get F.MEM_PAGE_OPEN_MAX) ≤ s.now) : Bool) = true)
    ∧ (∃ (dt : Nat) (n : Fin 16) (s₀ s : State), s = s₀.wait dt ∧ s.held = false ∧ (s.mcState n = mcReady ∨ s.mcState n = mcRetraining))
    ∧ (∃ (dt : Nat) (n : Fin 16) (s₀ s : State), s = s₀.wait dt ∧ s.held = false ∧ ((s.chan n).winStart + (s.chan n).window ≤ s.now))
    ∧ (∃ (dt : Nat) (n : Fin 16) (s₀ s : State), s = s₀.wait dt ∧ s.held = false ∧ (let idle := s.get F.MEM_SR_IDLE; s.mcState n == mcReady && !s.on (F.MC_STAT_SR n) && idle != 0 && decide ((s.chan n).lastReq + 6 * idle ≤ s.now) && !(s.on F.MEM_CTRL_BLOCK_RT_SR && s.realTime) : Bool) = true)
    ∧ (∃ (dt : Nat) (n : Fin 16) (s₀ s : State), s = s₀.wait dt ∧ s.held = false ∧ (let p := s.get F.MEM_TRAIN_TRACK_PERIOD; s.mcState n == mcReady && p != 0 && decide ((s.chan n).trackAt + p * milli ≤ s.now) : Bool) = true)
    ∧ (∃ (dt : Nat) (n : Fin 16) (s₀ s : State), s = s₀.wait dt ∧ s.held = false ∧ s.mcState n = mcRetraining ∧ ((s.chan n).stepAt = some 0 ∧ 0 + stepSpacing ≤ s.now))
    ∧ (∃ (dt : Nat) (s₀ s : State), s = s₀.wait dt ∧ s.held = false ∧ (s.boot.step == 4 && !s.on F.MEM_STAT_INIT_DONE : Bool) = true)
    ∧ (∃ (dt : Nat) (s₀ s : State), s = s₀.wait dt ∧ s.held = false ∧ (s.boot.step == 4 && s.on F.MEM_STAT_INIT_DONE && s.on F.MEM_CTRL_ECC_EN && !s.on F.MEM_CTRL_OPEN : Bool) = true)
    ∧ (∃ (dt : Nat) (n : Fin 16) (s₀ s : State), s = s₀.wait dt ∧ s.held = false ∧ (s.mcState n == mcTraining && s.on F.MEM_STAT_INIT_DONE : Bool) = true) := 
  ⟨⟨1, with_ (base) [(F.MEM_STAT_SWAP_PEND, 1)], _, rfl, by decide +kernel⟩,
   ⟨1, 15, base, _, rfl, by decide +kernel⟩,
   ⟨1, 15, { base with mem := { chan := [(15, { grant := some (27, 0, 0) })] } }, _, rfl, by decide +kernel⟩,
   ⟨1, 15, 31, { base with mem := { chan := [(15, { banks := [(31, { openRow := some 0 })] })] } }, _, rfl, by decide +kernel⟩,
   ⟨1, 15, with_ (base) [(F.MC_STAT_STATE 15, mcRetraining)], _, rfl, by decide +kernel⟩,
   ⟨1, 15, base, _, rfl, by decide +kernel⟩,
   ⟨1, 15, with_ (base) [(F.MC_STAT_STATE 15, mcReady), (F.MEM_SR_IDLE, 1)], _, rfl, by decide +kernel⟩,
   ⟨1, 15, with_ (base) [(F.MC_STAT_STATE 15, mcReady), (F.MEM_TRAIN_TRACK_PERIOD, 1)], _, rfl, by decide +kernel⟩,
   ⟨1, 15, with_ ({ base with mem := { chan := [(15, { stepAt := some 0 })] } }) [(F.MC_STAT_STATE 15, mcRetraining)], _, rfl, by decide +kernel⟩,
   ⟨1, { base with boot := { step := 4 } }, _, rfl, by decide +kernel⟩,
   ⟨1, with_ ({ base with boot := { step := 4 } }) [(F.MEM_STAT_INIT_DONE, 1), (F.MEM_CTRL_ECC_EN, 1)], _, rfl, by decide +kernel⟩,
   ⟨1, 15, with_ (base) [(F.MC_STAT_STATE 15, mcTraining), (F.MEM_STAT_INIT_DONE, 1)], _, rfl, by decide +kernel⟩⟩

theorem witness_FuvorCommands_writes :
    ∀ p ∈ ([(.pf 0, O.FVL_PORT_CFG 52), (.pf 0, O.FVL_XACT_CTRL)] : List (Requester × Nat)), (base.wait 1).TakesWrite p.1 p.2 := by
  unfold State.TakesWrite; decide +kernel

theorem witness_FuvorCommands_1 :
    (∃ (dt : Nat) (p : Fin 53) (s₀ s : State), s = s₀.wait dt ∧ s.held = false ∧ (s.fvState p == fvClock && decide ((s.fvPort p).since + 10 * micro ≤ s.now) : Bool) = true)
    ∧ (∃ (dt : Nat) (p : Fin 53) (lane : Fin 8) (s₀ s : State), s = s₀.wait dt ∧ s.held = false ∧ (lane.val < lanesIn p))
    ∧ (∃ (dt : Nat) (os : List Byte) (s₀ s : State), s = s₀.wait dt ∧ s.held = false ∧ goodTs2 os = true)
    ∧ (∃ (dt : Nat) (p : Fin 53) (s₀ s : State), s = s₀.wait dt ∧ s.held = false ∧ (let v := s.fvPort p; s.fvState p == fvTrain && decide (v.since + 1000 * micro ≤ s.now) && v.back.isNone && !(v.lockedIn 0 && v.lockedOut 0) : Bool) = true)
    ∧ (∃ (dt : Nat) (p : Fin 53) (s₀ s : State), s = s₀.wait dt ∧ s.held = false ∧ (s.fvState p == fvConfig && decide ((s.fvPort p).since + 100 * micro ≤ s.now) && (s.fvPort p).back.isNone : Bool) = true)
    ∧ (∃ (dt : Nat) (p : Fin 53) (s₀ s : State), ∃ old, s = s₀.wait dt ∧ s.held = false ∧ (s.fvPort p).back = some old ∧ ((s.fvState p == fvTrain || s.fvState p == fvConfig) && decide ((s.fvPort p).roundAt + 200 * micro ≤ s.now) : Bool) = true)
    ∧ (∃ (dt : Nat) (p : Fin 53) (s₀ s : State), s = s₀.wait dt ∧ s.held = false ∧ (s.fvState p == fvRetrain && decide ((s.fvPort p).since + 200 * micro ≤ s.now) : Bool) = true)
    ∧ (∃ (dt : Nat) (p : Fin 53) (s₀ s : State), s = s₀.wait dt ∧ s.held = false ∧ (s.fvSends p && s.on (F.FVL_PORT_CFG_SLEEP_EN p) && !s.fvBusy p && decide ((s.fvPort p).idleAt + max 1 (s.get (F.FVL_PORT_CFG_SLEEP_IDLE p)) * micro ≤ s.now) : Bool) = true)
    ∧ (∃ (dt : Nat) (p : Fin 53) (s₀ s : State), s = s₀.wait dt ∧ s.held = false ∧ (s.fvState p == fvActive && s.on (F.FVL_PORT_STAT_TX_SLEEP p) && s.fvBusy p : Bool) = true)
    ∧ (∃ (dt : Nat) (p : Fin 53) (s₀ s : State), s = s₀.wait dt ∧ s.held = false ∧ s.fvState p = fvActive)
    ∧ (∃ (dt : Nat) (p : Fin 53) (s₀ s : State), s = s₀.wait dt ∧ s.held = false ∧ s.fvState p = fvActive)
    ∧ (∃ (dt : Nat) (p : Fin 53) (s₀ s : State), s = s₀.wait dt ∧ s.held = false ∧ s.fvState p = fvActive) := 
  ⟨⟨1, 52, with_ (base) [(F.FVL_PORT_STAT_STATE 52, fvClock)], _, rfl, by decide +kernel⟩,
   ⟨1, 52, 7, base, _, rfl, by decide +kernel⟩,
   ⟨1, [0x3C, 0, 0, 0, 0, 0, 0, 0, 0, 0, 0, 0, 0, 0, 0, 0x3C], base, _, rfl, by decide +kernel⟩,
   ⟨1, 52, with_ (base) [(F.FVL_PORT_STAT_STATE 52, fvTrain)], _, rfl, by decide +kernel⟩,
   ⟨1, 52, with_ (base) [(F.FVL_PORT_STAT_STATE 52, fvConfig)], _, rfl, by decide +kernel⟩,
   ⟨1, 52, with_ ({ base with fvl := { port := [(52, { back := some 0 })] } }) [(F.FVL_PORT_STAT_STATE 52, fvConfig)], _, 0, rfl, by decide +kernel⟩,
   ⟨1, 52, with_ (base) [(F.FVL_PORT_STAT_STATE 52, fvRetrain)], _, rfl, by decide +kernel⟩,
   ⟨1, 52, with_ (base) [(F.FVL_PORT_STAT_STATE 52, fvActive), (F.FVL_PORT_CFG_SLEEP_EN 52, 1), (F.FVL_PORT_TIME_PERIOD 52, 0)], _, rfl, by decide +kernel⟩,
   ⟨1, 52, with_ ({ base with fvl := { port := [(52, { unacked := 1 })] } }) [(F.FVL_PORT_STAT_STATE 52, fvActive), (F.FVL_PORT_STAT_TX_SLEEP 52, 1)], _, rfl, by decide +kernel⟩,
   ⟨1, 52, with_ (base) [(F.FVL_PORT_STAT_STATE 52, fvActive)], _, rfl, by decide +kernel⟩,
   ⟨1, 52, with_ (base) [(F.FVL_PORT_STAT_STATE 52, fvActive)], _, rfl, by decide +kernel⟩,
   ⟨1, 52, with_ (base) [(F.FVL_PORT_STAT_STATE 52, fvActive)], _, rfl, by decide +kernel⟩⟩

theorem witness_FuvorCommands_2 :
    (∃ (dt : Nat) (p : Fin 53) (s₀ s : State), s = s₀.wait dt ∧ s.held = false ∧ s.fvState p = fvActive)
    ∧ (∃ (dt : Nat) (p : Fin 53) (s₀ s : State), s = s₀.wait dt ∧ s.held = false ∧ (let v := s.fvPort p; s.fvSends p && v.unacked != 0 && (decide (8 ≤ v.unacked) || decide (v.unackedAt + 2000 ≤ s.now)) : Bool) = true)
    ∧ (∃ (dt : Nat) (p : Fin 53) (cls : Fin 3) (s₀ s : State), s = s₀.wait dt ∧ s.held = false ∧ (let k := (s.fvPort p).cls cls; s.fvSends p && k.owed != 0 && (decide (ownCredits p cls ≤ 8 * k.owed) || decide (k.owedAt + micro ≤ s.now)) : Bool) = true)
    ∧ (∃ (dt : Nat) (p : Fin 53) (s₀ s : State), s = s₀.wait dt ∧ s.held = false ∧ s.replayDue p = true)
    ∧ (∃ (dt : Nat) (p : Fin 53) (s₀ s : State), s = s₀.wait dt ∧ s.held = false ∧ (s.fvState p == fvActive && decide (p.val < 52) : Bool) = true)
    ∧ (∃ (dt : Nat) (p : Fin 53) (tag : BitVec 8) (s₀ s : State), ∃ rest, s = s₀.wait dt ∧ s.held = false ∧ s.fvState p = fvActive ∧ s.fvl.reading = true ∧ s.fvl.mbox = some (tag.toNat, rest))
    ∧ (∃ (dt : Nat) (p : Fin 53) (s₀ s : State), s = s₀.wait dt ∧ s.held = false ∧ (s.fvState p == fvActive && decide (p.val < 52) : Bool) = true)
    ∧ (∃ (dt : Nat) (p : Fin 53) (s₀ s : State), s = s₀.wait dt ∧ s.held = false ∧ (s.fvSends p && s.fvTimeDue p : Bool) = true)
    ∧ (∃ (dt : Nat) (p : Fin 53) (tag : BitVec 8) (s₀ s : State), ∃ t1 began, s = s₀.wait dt ∧ s.held = false ∧ s.fvState p = fvActive ∧ (s.fvPort p).ping = some (tag.toNat, t1, began) ∧ s.now ≤ began + 10 * micro)
    ∧ (∃ (dt : Nat) (p : Fin 53) (s₀ s : State), ∃ tag t1 at_, s = s₀.wait dt ∧ s.held = false ∧ (s.fvPort p).ping = some (tag, t1, at_) ∧ at_ + 10 * micro ≤ s.now)
    ∧ (∃ (dt : Nat) (s₀ s : State), ∃ tag kind at_, s = s₀.wait dt ∧ s.held = false ∧ s.fvl.reading = true ∧ s.fvl.mbox = some (tag, kind, at_) ∧ at_ + 100 * micro ≤ s.now)
    ∧ (∃ (dt : Nat) (p : Fin 53) (s₀ s : State), s = s₀.wait dt ∧ s.held = false ∧ s.fvLeavesDown p = true) := 
  ⟨⟨1, 52, with_ (base) [(F.FVL_PORT_STAT_STATE 52, fvActive)], _, rfl, by decide +kernel⟩,
   ⟨1, 52, with_ ({ base with fvl := { port := [(52, { unacked := 8 })] } }) [(F.FVL_PORT_STAT_STATE 52, fvActive)], _, rfl, by decide +kernel⟩,
   ⟨1, 52, 2, with_ ({ base with fvl := { port := [(52, { credit := [(2, { owed := 1 })] })] } }) [(F.FVL_PORT_STAT_STATE 52, fvActive)], _, rfl, by decide +kernel⟩,
   ⟨1, 52, with_ ({ base with fvl := { port := [(52, { sent := [(0, { words := [0] })] })] } }) [(F.FVL_PORT_STAT_STATE 52, fvActive)], _, rfl, by decide +kernel⟩,
   ⟨1, 51, with_ (base) [(F.FVL_PORT_STAT_STATE 51, fvActive)], _, rfl, by decide +kernel⟩,
   ⟨1, 52, 255, with_ ({ base with fvl := { mbox := some (255, 0, 0), reading := true } }) [(F.FVL_PORT_STAT_STATE 52, fvActive)], _, (0, 0), rfl, by decide +kernel⟩,
   ⟨1, 51, with_ (base) [(F.FVL_PORT_STAT_STATE 51, fvActive)], _, rfl, by decide +kernel⟩,
   ⟨1, 52, with_ ({ base with fvl := { port := [(52, { timeDue := true })] } }) [(F.FVL_PORT_STAT_STATE 52, fvActive), (F.FVL_PORT_TIME_PERIOD 52, 1)], _, rfl, by decide +kernel⟩,
   ⟨1, 52, 255, with_ ({ base with fvl := { port := [(52, { ping := some (255, 0, 2 ^ 40 - 39999) })] } }) [(F.FVL_PORT_STAT_STATE 52, fvActive)], _, 0, 2 ^ 40 - 39999, rfl, by decide +kernel⟩,
   ⟨1, 52, { base with fvl := { port := [(52, { ping := some (255, 0, 0) })] } }, _, 255, 0, 0, rfl, by decide +kernel⟩,
   ⟨1, { base with fvl := { mbox := some (255, 0, 0), reading := true } }, _, 255, 0, 0, rfl, by decide +kernel⟩,
   ⟨1, 52, with_ ({ base with fvl := { port := [(52, { leftAt := some 0 })] } }) [(F.FVL_PORT_CFG_EN 52, 1)], _, rfl, by decide +kernel⟩⟩

theorem witness_FuvorCommands_3 :
    (∃ (dt : Nat) (p : Fin 53) (s₀ s : State), ∃ began, s = s₀.wait dt ∧ s.held = false ∧ s.fvState p = fvStep ∧ (s.fvPort p).pauseAt = some began ∧ began + micro ≤ s.now)
    ∧ (∃ (dt : Nat) (p : Fin 53) (lane : Fin 8) (s₀ s : State), s = s₀.wait dt ∧ s.held = false ∧ (decide (lane.val < lanesIn p) && s.fvState p != fvDown : Bool) = true)
    ∧ (∃ (dt : Nat) (p : Fin 53) (s₀ s : State), s = s₀.wait dt ∧ s.held = false ∧ s.fvState p = fvActive)
    ∧ (∃ (dt : Nat) (p : Fin 53) (s₀ s : State), s = s₀.wait dt ∧ s.held = false ∧ (s.fvState p == fvActive || s.fvState p == fvStep || s.fvState p == fvRetrain : Bool) = true)
    ∧ (∃ (dt : Nat) (p : Fin 53) (s₀ s : State), s = s₀.wait dt ∧ s.held = false ∧ s.fvState p = fvActive)
    ∧ (∃ (dt : Nat) (p : Fin 53) (s₀ s : State), s = s₀.wait dt ∧ s.held = false ∧ s.fvState p = fvActive) := 
  ⟨⟨1, 52, with_ ({ base with fvl := { port := [(52, { pauseAt := some 0 })] } }) [(F.FVL_PORT_STAT_STATE 52, fvStep)], _, 0, rfl, by decide +kernel⟩,
   ⟨1, 52, 7, with_ (base) [(F.FVL_PORT_STAT_STATE 52, fvTrain)], _, rfl, by decide +kernel⟩,
   ⟨1, 52, with_ (base) [(F.FVL_PORT_STAT_STATE 52, fvActive)], _, rfl, by decide +kernel⟩,
   ⟨1, 52, with_ (base) [(F.FVL_PORT_STAT_STATE 52, fvRetrain)], _, rfl, by decide +kernel⟩,
   ⟨1, 52, with_ (base) [(F.FVL_PORT_STAT_STATE 52, fvActive)], _, rfl, by decide +kernel⟩,
   ⟨1, 52, with_ (base) [(F.FVL_PORT_STAT_STATE 52, fvActive)], _, rfl, by decide +kernel⟩⟩

theorem witness_HostNetworkAndTwinCommands_writes :
    ∀ p ∈ ([(.pf 5, O.MSIX_CTRL 5 31), (.pf 4, O.NET_P_TX_PROD 1 7), (.pf 0, O.GPIO_OUT_CLR), (.pf 0, O.GPIO_OUT_SET), (.pf 0, O.I2C_CTRL), (.pf 4, O.NET_PTP_MAP_STAT), (.pf 4, O.NET_PTP_RATE), (.pf 4, O.NET_PTP_STAT), (.pf 4, O.NET_PTP_STEP), (.pf 5, O.TWN_CTRL)] : List (Requester × Nat)), (base.wait 1).TakesWrite p.1 p.2 := by
  unfold State.TakesWrite; decide +kernel

theorem witness_HostNetworkAndTwinCommands_reads :
    ∀ p ∈ ([(.pf 4, O.NET_PTP_TSQ 0)] : List (Requester × Nat)), (base.wait 1).TakesRead p.1 p.2 := by
  unfold State.TakesRead; decide +kernel

theorem witness_HostNetworkAndTwinCommands_1 :
    (∃ (dt : Nat) (f : Fin 6) (s₀ s : State), s = s₀.wait dt ∧ s.held = false ∧ s.configOpen f = true)
    ∧ (∃ (dt : Nat) (s₀ s : State), s = s₀.wait dt ∧ s.held = false ∧ s.on F.HIF_LINK_UP = false)
    ∧ (∃ (dt : Nat) (s₀ s : State), s = s₀.wait dt ∧ s.held = false ∧ s.on F.HIF_LINK_UP = true)
    ∧ (∃ (dt : Nat) (i : Fin 32) (level : Bool) (s₀ s : State), s = s₀.wait dt ∧ s.held = false ∧ s.gpioNew i level = true)
    ∧ (∃ (dt : Nat) (s₀ s : State), s = s₀.wait dt ∧ s.held = false ∧ s.on F.I2C_STAT_BUSY = true)
    ∧ (∃ (dt : Nat) (s₀ s : State), s = s₀.wait dt ∧ s.held = false ∧ s.on F.I2C_STAT_BUSY = true)
    ∧ (∃ (dt : Nat) (n : Fin 2) (up : Bool) (s₀ s : State), s = s₀.wait dt ∧ s.held = false ∧ s.on (F.NET_P_STAT_LINK_UP n) ≠ up)
    ∧ (∃ (dt : Nat) (n : Fin 2) (s₀ s : State), s = s₀.wait dt ∧ s.held = false ∧ (s.netUp n && !s.inFlr 4 : Bool) = true)
    ∧ (∃ (dt : Nat) (n : Fin 2) (q : Fin 8) (host : HostMemory) (s₀ s : State), s = s₀.wait dt ∧ s.held = false ∧ s.txNext host n q = true)
    ∧ (∃ (dt : Nat) (s₀ s : State), s = s₀.wait dt ∧ s.held = false ∧ s.syncLost = true)
    ∧ (∃ (dt : Nat) (s₀ s : State), s = s₀.wait dt ∧ s.held = false ∧ s.mapDue = true)
    ∧ (∃ (dt : Nat) (s₀ s : State), s = s₀.wait dt ∧ s.held = false ∧ s.twnState = twPairing) := 
  ⟨⟨1, 5, base, _, rfl, by decide +kernel⟩,
   ⟨1, base, _, rfl, by decide +kernel⟩,
   ⟨1, with_ (base) [(F.HIF_LINK_UP, 1)], _, rfl, by decide +kernel⟩,
   ⟨1, 31, true, base, _, rfl, by decide +kernel⟩,
   ⟨1, with_ (base) [(F.I2C_STAT_BUSY, 1)], _, rfl, by decide +kernel⟩,
   ⟨1, with_ (base) [(F.I2C_STAT_BUSY, 1)], _, rfl, by decide +kernel⟩,
   ⟨1, 1, true, base, _, rfl, by decide +kernel⟩,
   ⟨1, 1, with_ (base) [(F.NET_P_CFG_EN 1, 1), (F.NET_P_STAT_LINK_UP 1, 1)], _, rfl, by decide +kernel⟩,
   ⟨1, 1, 7, [], with_ ({ base with mem := { zeroed := true } }) [(F.NET_P_CFG_EN 1, 1), (F.NET_P_STAT_LINK_UP 1, 1), (F.NET_P_TX_CFG_EN 1 7, 1), (F.NET_P_TX_PROD 1 7, 1)], _, rfl, by decide +kernel⟩,
   ⟨1, with_ (base) [(F.NET_PTP_CTRL_MASTER_EN, 1)], _, rfl, by decide +kernel⟩,
   ⟨1, base, _, rfl, by decide +kernel⟩,
   ⟨1, with_ (base) [(F.TWN_STAT_STATE, twPairing)], _, rfl, by decide +kernel⟩⟩

theorem witness_HostNetworkAndTwinCommands_2 :
    (∃ (dt : Nat) (eth : Bool) (s₀ s : State), s = s₀.wait dt ∧ s.held = false ∧ s.heartbeatDue eth = true)
    ∧ (∃ (dt : Nat) (s₀ s : State), s = s₀.wait dt ∧ s.held = false ∧ s.paired = true)
    ∧ (∃ (dt : Nat) (eth : Bool) (s₀ s : State), s = s₀.wait dt ∧ s.held = false ∧ s.pathQuiet eth = true)
    ∧ (∃ (dt : Nat) (s₀ s : State), s = s₀.wait dt ∧ s.held = false ∧ s.partnerQuiet = true)
    ∧ (∃ (dt : Nat) (s₀ s : State), s = s₀.wait dt ∧ s.held = false ∧ s.twnState = twCastling)
    ∧ (∃ (dt : Nat) (s₀ s : State), s = s₀.wait dt ∧ s.held = false ∧ (s.twnState == twStandby && s.sigReady != [] : Bool) = true)
    ∧ (∃ (dt : Nat) (s₀ s : State), s = s₀.wait dt ∧ s.held = false ∧ (s.twnState == twActive && !s.twn.lost : Bool) = true)
    ∧ (∃ (dt : Nat) (s₀ s : State), s = s₀.wait dt ∧ s.held = false ∧ (s.twnState == twActive && !s.twn.lost && s.sigLate.isSome : Bool) = true)
    ∧ (∃ (dt : Nat) (s₀ s : State), s = s₀.wait dt ∧ s.held = false ∧ s.twnState = twStandby)
    ∧ (∃ (dt : Nat) (s₀ s : State), s = s₀.wait dt ∧ s.held = false ∧ s.twnState = twStandby)
    ∧ (∃ (dt : Nat) (s₀ s : State), s = s₀.wait dt ∧ s.held = false ∧ s.twnState = twActive)
    ∧ (∃ (dt : Nat) (s₀ s : State), s = s₀.wait dt ∧ s.held = false ∧ s.paired = true) := 
  ⟨⟨1, true, with_ (base) [(F.TWN_STAT_STATE, twDeposed)], _, rfl, by decide +kernel⟩,
   ⟨1, with_ (base) [(F.TWN_STAT_STATE, twDeposed)], _, rfl, by decide +kernel⟩,
   ⟨8, true, with_ ({ base with twn := { linkAt := 2 ^ 40 } }) [(F.TWN_STAT_STATE, twActive), (F.TWN_HB_LOSS, 1)], _, rfl, by decide +kernel⟩,
   ⟨8, with_ (base) [(F.TWN_STAT_STATE, twActive)], _, rfl, by decide +kernel⟩,
   ⟨1, with_ (base) [(F.TWN_STAT_STATE, twCastling)], _, rfl, by decide +kernel⟩,
   ⟨1, with_ ({ base with twn := { sigs := [{ head := 0, group := 0, pipe := 0, tag := {}, first := 0, last := 63, tk := 0, pos := 0, at_ := 0 }] } }) [(F.TWN_STAT_STATE, twStandby)], _, rfl, by decide +kernel⟩,
   ⟨1, with_ (base) [(F.TWN_STAT_STATE, twActive)], _, rfl, by decide +kernel⟩,
   ⟨1, with_ ({ base with twn := { sigs := [{ head := 0, group := 0, pipe := 0, tag := {}, first := 0, last := 63, tk := 0, pos := 0, at_ := 0 }] } }) [(F.TWN_STAT_STATE, twActive)], _, rfl, by decide +kernel⟩,
   ⟨1, with_ (base) [(F.TWN_STAT_STATE, twStandby)], _, rfl, by decide +kernel⟩,
   ⟨1, with_ (base) [(F.TWN_STAT_STATE, twStandby)], _, rfl, by decide +kernel⟩,
   ⟨1, with_ (base) [(F.TWN_STAT_STATE, twActive)], _, rfl, by decide +kernel⟩,
   ⟨1, with_ (base) [(F.TWN_STAT_STATE, twDeposed)], _, rfl, by decide +kernel⟩⟩

theorem witness_HostNetworkAndTwinCommands_3 :
    ∃ (dt : Nat) (s₀ s : State), s = s₀.wait dt ∧ s.held = false ∧ s.castleLate = true := 
  ⟨1, with_ ({ base with twn := { castle := some { wco := 0 } } }) [(F.TWN_STAT_STATE, twActive)], _, rfl, by decide +kernel⟩

theorem witness_SecurityCalibrationAndStartUpCommands_writes :
    ∀ p ∈ ([(.pf 0, O.CAL_CTRL), (.pf 0, O.PMU_CTRL), (.pf 0, O.SEC_BOOT_CTRL), (.pf 0, O.SEC_CMD_CTRL), (.pf 0, O.SEC_DOMAIN)] : List (Requester × Nat)), (base.wait 1).TakesWrite p.1 p.2 := by
  unfold State.TakesWrite; decide +kernel

theorem witness_SecurityCalibrationAndStartUpCommands :
    (∃ (dt : Nat) (s₀ s : State), ∃ b n, s = s₀.wait dt ∧ s.held = false ∧ s.sec.cmd = some (b, n))
    ∧ (∃ (dt : Nat) (s₀ s : State), s = s₀.wait dt ∧ s.held = false ∧ (s.cal.convAt + 400000 ≤ s.now))
    ∧ (∃ (dt : Nat) (s₀ s : State), s = s₀.wait dt ∧ s.held = false ∧ s.calState ≠ caIdle)
    ∧ (∃ (dt : Nat) (s₀ s : State), s = s₀.wait dt ∧ s.held = false ∧ s.bwDue = true)
    ∧ (∃ (dt : Nat) (s₀ s : State), s = s₀.wait dt ∧ s.held = false ∧ s.readingFlash = true)
    ∧ (∃ (dt : Nat) (s₀ s : State), s = s₀.wait dt ∧ s.held = false ∧ (2 ≤ s.boot.step : Bool) = true)
    ∧ (∃ (dt : Nat) (s₀ s : State), s = s₀.wait dt ∧ s.held = false ∧ s.uartStale = true)
    ∧ (∃ (dt : Nat) (s₀ s : State), s = s₀.wait dt ∧ s.held = false ∧ s.flashLate = true)
    ∧ (∃ (dt : Nat) (c : Fin 32) (s₀ s : State), s = s₀.wait dt ∧ s.held = false ∧ s.pmuMayWrap c = true) := 
  ⟨⟨1, { base with sec := { cmd := some ([], 0) } }, _, [], 0, rfl, by decide +kernel⟩,
   ⟨1, base, _, rfl, by decide +kernel⟩,
   ⟨1, with_ (base) [(F.CAL_STAT_STATE, caApply)], _, rfl, by decide +kernel⟩,
   ⟨1, with_ (base) [(F.PMU_BW_CFG_EN, 1)], _, rfl, by decide +kernel⟩,
   ⟨1, { base with boot := { step := 5, flashAt := some 0 } }, _, rfl, by decide +kernel⟩,
   ⟨1, { base with boot := { step := 2 } }, _, rfl, by decide +kernel⟩,
   ⟨1, { base with boot := { step := 7, uart := [0] } }, _, rfl, by decide +kernel⟩,
   ⟨1, { base with boot := { step := 5, flashAt := some 0 } }, _, rfl, by decide +kernel⟩,
   ⟨1, 31, with_ (base) [(F.PMU_CNT_CFG_EN 31, 1), (F.PMU_CNT_VALUE 31, 2 ^ 48 - 1)], _, rfl, by decide +kernel⟩⟩

/-! ### Engines: instructions that run -/

/-- Engine 191 running at the start of its local memory, where the word `w` stands; s1 is 1, s2 an address in that memory, s3
one in cluster memory, s4 one in device memory, and an event is pending. Device memory is open and zeroed. -/
def running (w : Nat) : State :=
  with_ ({ base with
      emem := { loc := (List.range 4).map fun i => (191 * 2 ^ 18 + i, BitVec.ofNat 8 (w / 2 ^ (8 * i))) }
      eng := [(191, { x := [(1, 1), (2, 0x800000000100), (3, 0x800000100100), (4, 0x1000),
        (5, BitVec.allOnes 64)] })]
      mem := { zeroed := true } })
    ((List.range 16).map (fun n => (F.MC_STAT_STATE n, mcReady)) ++ [(F.MEM_CTRL_OPEN, 1), (F.ENGINE_STAT_STATE 191, egRunning),
      (F.ENGINE_PC 191, 0x800000000000), (F.ENGINE_EV_PENDING 191, 0x80)])

/-- Whether engine `e` issues `o`, spelled by `w`, in `s`, with `P` of the state in which it runs. -/
def runsAs (s : State) (e : Nat) (o : Op) (w : Nat) (P : State → Bool) : Bool :=
  !s.held && s.issuing e && match s.engFetch e with
    | (.ok w', f) => w' == w && cregar w == some o && match f.cacheMoves e with
      | (none, u) => P u
      | _ => false
    | _ => false

theorem runs_of {s : State} {e : Nat} {o : Op} {w : Nat} {P : State → Bool} (h : runsAs s e o w P = true) :
    ∃ u, s.Runs e o w u ∧ P u = true := by
  simp only [runsAs, Bool.and_eq_true, Bool.not_eq_true'] at h
  obtain ⟨⟨hh, hi⟩, h⟩ := h
  generalize hf : s.engFetch e = r at h
  obtain ⟨_ | w', f⟩ := r
  · exact absurd h (by simp)
  · simp only [Bool.and_eq_true, beq_iff_eq] at h
    obtain ⟨⟨rfl, ho⟩, h⟩ := h
    generalize hu : f.cacheMoves e = q at h
    obtain ⟨_ | _, u⟩ := q
    · exact ⟨u, ⟨hh, hi, f, hf, ho, hu⟩, h⟩
    · exact absurd h (by simp)

/-- The state in which the word of `o` with operands `x` runs, and the check that it does. -/
def runsWith (o : Op) (x : Operands) (P : State → Nat → Bool) : Bool :=
  runsAs ((running (encodeCregar o x)).wait 1) 191 o (encodeCregar o x) (fun u => P u (encodeCregar o x))

theorem witness_ScalarInstructions :
    ∀ o ∈ [Op.add, .sub, .and, .or, .xor, .sll, .srl, .sra, .slt, .sltu, .min, .max, .mul, .div, .divu, .rem, .remu,
      .addi, .andi, .ori, .slli, .srli, .srai, .ins16, .ext],
      runsWith o { d := 31, a := 1, b := 31, imm := 63 } (fun _ _ => true) = true := by decide +kernel

/-- Instructions whose words leave a field at 0. -/
theorem witness_Instructions_with_fields_at_0 :
    ∀ o ∈ [Op.popc, .rdsys, .vredadd, .vbcast, .pand, .pnot], runsWith o { d := 7, a := 3 } (fun _ _ => true) = true
      := by decide +kernel

/-- Branches taken and not taken, by the registers they compare. -/
theorem witness_EngineFlow_branches :
    ∀ p ∈ [(Op.beq, 0, 0, true), (.beq, 1, 0, false), (.bne, 1, 0, true), (.bne, 0, 0, false), (.blt, 0, 1, true), (.blt, 0, 0, false),
      (.bge, 0, 0, true), (.bge, 0, 1, false), (.bltu, 0, 1, true), (.bltu, 0, 0, false), (.bgeu, 0, 0, true), (.bgeu, 0, 1, false)],
      runsWith p.1 { d := p.2.1, a := p.2.2.1, imm := 0x7FFF } (fun u w =>
        let x := u.sreg 191 (insD w)
        let y := u.sreg 191 (insA w)
        (match p.1 with
          | .beq => x == y | .bne => x != y | .blt => x.slt y | .bge => !x.slt y | .bltu => x.ult y | _ => !x.ult y) == p.2.2.2
          && decide ((u.pc 191 + 4 * immS 16 (insImm16 w)).toNat % 4 = 0)
          && u.fetchable 191 (u.pc 191 + 4 * immS 16 (insImm16 w)).toNat) = true := by decide +kernel

theorem witness_EngineFlow_jumps :
    (∀ o ∈ [Op.j, .jal], runsWith o { imm := 0xFFFF } (fun u w =>
        decide ((u.pc 191 + 4 * immS 26 (insOff26 w)).toNat % 4 = 0)
          && u.fetchable 191 (u.pc 191 + 4 * immS 26 (insOff26 w)).toNat) = true)
      ∧ runsWith .jalr { d := 31, a := 2 } (fun u w =>
        decide ((u.sreg 191 (insA w)).toNat % 4 = 0) && u.fetchable 191 (u.sreg 191 (insA w)).toNat) = true := by decide +kernel

theorem witness_EngineFlow_system :
    (∀ o ∈ [Op.fence, .isync, .signal, .halt], runsWith o { d := 31, a := 1, imm := 7 } (fun _ _ => true) = true)
      ∧ runsWith .wait { d := 31, a := 1, imm := 0x80 } (fun u w => u.waitHolds 191 (u.sreg 191 (insA w)) (insImm8 w)) = true
      ∧ runsWith .icInvall {} (fun _ _ => true) = true
      ∧ runsWith .dcCleanall {} (fun u _ => (u.engine 191).dc.all fun p => !p.2.lost) = true := by decide +kernel

/-- No copy of Tempo runs ahead of Tempo. -/
theorem tempoCopy_le (s : State) (d : Domain) : s.tempoCopy d ≤ s.now := by
  unfold State.tempoCopy
  split
  · omega
  · dsimp only
    split <;> omega

/-- A WAIT that waits: no event that it checks is pending, and its deadline lies past Tempo. -/
theorem witness_EngineFlow_wait :
    ∃ (s u : State) (w : Nat), s.Runs 191 .wait w u ∧ u.waitHolds 191 (u.sreg 191 (insA w)) (insImm8 w) = false := by
  obtain ⟨u, hr, hp⟩ := runs_of (s := (running (encodeCregar .wait { a := 5, imm := 1 })).wait 1) (e := 191) (o := .wait)
    (w := encodeCregar .wait { a := 5, imm := 1 }) (P := fun u =>
      u.get (F.ENGINE_EV_PENDING 191) &&& insImm8 (encodeCregar .wait { a := 5, imm := 1 }) == 0
        && decide (u.now < (u.sreg 191 (insA (encodeCregar .wait { a := 5, imm := 1 }))).toNat)) (by decide +kernel)
  simp only [Bool.and_eq_true, beq_iff_eq, decide_eq_true_eq] at hp
  refine ⟨_, u, _, hr, ?_⟩
  have := tempoCopy_le u .eng
  simp only [State.waitHolds, hp.1, Bool.or_eq_false_iff, decide_eq_false_iff_not]
  exact ⟨by decide, by omega⟩

/-- Cache operations on an address of device memory and on one of local memory. -/
theorem witness_EngineFlow_cache :
    ∀ o ∈ [Op.dcClean, .dcInv, .dcCinv],
      runsWith o { a := 4 } (fun u w => u.region 191 (u.sreg 191 (insA w)).toNat == .dev
          && match u.dline 191 ((u.sreg 191 (insA w)).toNat / 64) with
            | some l => !l.lost
            | none => true) = true
        ∧ runsWith o { a := 2 } (fun u w => match u.region 191 (u.sreg 191 (insA w)).toNat with
            | .dev => false
            | .none => false
            | _ => true) = true := by decide +kernel

/-- Loads and stores of the engine's local memory, of its cluster's and of device memory. -/
theorem witness_EngineMemory_access :
    ∀ a ∈ [2, 3, 4], (∀ p ∈ [(Op.ldb, 1), (.ldh, 2), (.ldw, 4), (.ldd, 8)],
        runsWith p.1 { d := 31, a := a, imm := 8 } (fun u w => match u.engLoad 191 (u.addrI 191 w) p.2 with
          | (.ok _ _, _) => true
          | _ => false) = true)
      ∧ ∀ p ∈ [(Op.stb, 1), (.sth, 2), (.stw, 4), (.std, 8)],
        runsWith p.1 { d := 31, a := a, imm := 8 } (fun u w =>
          match u.engStore 191 (u.addrI 191 w) p.2 (u.sreg 191 (insD w)).toNat with
          | (.ok _ _, _) => true
          | _ => false) = true := by decide +kernel

theorem witness_EngineMemory_atomics :
    ∀ o ∈ [Op.amoadd, .cas], ∀ a ∈ [2, 3], runsWith o { d := 31, a := a, b := 1 } (fun u w =>
      decide ((u.sreg 191 (insA w)).toNat % 8 = 0) && (u.region 191 (u.sreg 191 (insA w)).toNat).atomic
        && !u.engKeptOut 191 (u.region 191 (u.sreg 191 (insA w)).toNat)
        && (u.ememRead 191 (u.region 191 (u.sreg 191 (insA w)).toNat) 8).1.isSome) = true := by decide +kernel

theorem witness_EngineVector :
    (∀ o ∈ [Op.vadd, .vsub, .vmul, .vmin, .vmax, .vand, .vor, .vshl, .vshr, .vabsd, .vcmpeq, .vcmplt, .vsel,
        .vextr], runsWith o { d := 7, a := 3, b := 2, esz := 1 } (fun _ _ => true) = true)
      ∧ (∀ a ∈ [2, 3], runsWith .vld { d := 7, a := a } (fun u w => u.vectorFault 191 (u.addrVm 191 w) == none
          && (u.ememRead 191 (u.region 191 (u.addrVm 191 w).toNat) 64).1.isSome) = true
        ∧ runsWith .vst { d := 7, a := a } (fun u w => u.vectorFault 191 (u.addrVm 191 w) == none) = true)
      ∧ runsWith .vld { d := 7, a := 4 } (fun u w => u.vectorFault 191 (u.addrVm 191 w) == none
          && match u.devLoad 191 (u.addrVm 191 w).toNat 64 with
            | (.ok _ _, _) => true
            | _ => false) = true
      ∧ runsWith .vst { d := 7, a := 4 } (fun u w => u.vectorFault 191 (u.addrVm 191 w) == none
          && match u.devStore 191 (u.addrVm 191 w).toNat (activeBytes (u.preg 191 (insPm w)) (u.vreg 191 (insD w))) with
            | (.ok _ _, _) => true
            | _ => false) = true := by decide +kernel

/-- A scalar access at an address that is not a multiple of its size. -/
theorem witness_MisalignedAccess :
    ∀ p ∈ [(Op.ldh, 2), (.ldw, 4), (.ldd, 8), (.sth, 2), (.stw, 4), (.std, 8)],
      runsWith p.1 { d := 31, a := 2, imm := 1 } (fun u w => decide ((u.addrI 191 w).toNat % p.2 ≠ 0)) = true := by decide +kernel

/-- An undefined word, and a PC from which nothing can be fetched. -/
theorem witness_EngineControl_illegal :
    (let s := (running 0).wait 1;
      s.held = false ∧ s.issuing 191 = true ∧ (s.engFetch 191).1.toOption = some 0 ∧ cregar 0 = none)
      ∧ (let s := (with_ (running 0) [(F.ENGINE_PC 191, 2)]).wait 1;
        s.held = false ∧ s.issuing 191 = true ∧ (s.engFetch 191).1.toOption = none) := by decide +kernel

/-- A start from OFF: taken once the memories are zeroed, refused before and at an odd PC, and left to an OFF of its ENG cycle. -/
theorem witness_EngineStart :
    (let s := with_ base [(F.ENG_STAT, 1), (F.ENGINE_PC 191, 4)];
      s.engState 191 = egOff ∧ (s.engine 191).off = false ∧ s.thisEng (s.engine 191).offAt = false
        ∧ (s.engOff 191).thisEng ((s.engOff 191).engine 191).offAt = true ∧ s.on F.ENG_STAT = true ∧ (s.pc 191).toNat % 4 = 0)
      ∧ (let s := with_ base [(F.ENGINE_PC 191, 2)];
        s.engState 191 = egOff ∧ (s.engine 191).off = false ∧ s.on F.ENG_STAT = false ∧ (s.pc 191).toNat % 4 ≠ 0) := by
  decide +kernel

/-! ### DMA: instructions that a channel takes -/

/-- Channel 31 running at host address 0 with Bus Master Enable set. -/
def dmaRunning : State :=
  with_ ({ base with hif := { bme := 0x3F } }) [(F.DMA_CH_STAT_STATE 31, dmRunning), (F.DMA_CH_PC 31, 2 ^ 63)]

/-- A block of host memory that begins with the words `ws`. -/
def blockOf (ws : List Nat) : Fetches := [.data ((ws ++ List.replicate (8 - ws.length) 0).flatMap fun w => toBytes 8 w)]

/-- Whether channel `c` takes an instruction of opcode `op`, its words being `ws`. -/
def takesAs (s : State) (c op : Nat) (f : Fetches) (ws : List Nat) : Bool :=
  !s.held && s.dmaReady c && match (s.dmaUndecoded c).dmaWord c (s.dmaPc c) f with
    | (some w, f', v) => dmaValid w && bits w 3 0 == op
      && match (v.dmaDecoded c w).dmaWords c (v.dmaPc c + 8) f' (dmaLength w - 1) with
        | (some more, _, _) => ws == w :: more
        | _ => false
    | _ => false

theorem takes_of {s : State} {c op : Nat} {f : Fetches} {ws : List Nat} (h : takesAs s c op f ws = true) :
    ∃ u, s.DmaTakes c op f ws u := by
  simp only [takesAs, Bool.and_eq_true, Bool.not_eq_true'] at h
  obtain ⟨⟨hh, hr⟩, h⟩ := h
  generalize hw : (s.dmaUndecoded c).dmaWord c (s.dmaPc c) f = r at h
  obtain ⟨_ | w, f', v⟩ := r
  · exact absurd h (by simp)
  · simp only [Bool.and_eq_true, beq_iff_eq] at h
    obtain ⟨⟨hv, hb⟩, h⟩ := h
    generalize hu : (v.dmaDecoded c w).dmaWords c (v.dmaPc c + 8) f' (dmaLength w - 1) = q at h
    obtain ⟨_ | more, f'', u⟩ := q
    · exact absurd h (by simp)
    · exact ⟨u, hh, hr, w, more, f', f'', v, hw, hv, hb, hu, by simpa using h⟩

theorem witness_DmaTakes :
    ∀ p ∈ [(1, [0x141, 0, 2 ^ 63]), (2, [0x0001000000010002]), (3, [0x23, 2 ^ 64 - 1]), (4, [0x74]), (5, [0x15]), (6, [0x16])],
      takesAs (dmaRunning.wait 1) 31 p.1 (blockOf p.2) p.2 = true := by decide +kernel

theorem witness_DmaIllegal :
    let s := dmaRunning.wait 1
    s.held = false ∧ s.dmaReady 31 = true ∧ ((s.dmaUndecoded 31).dmaWord 31 (s.dmaPc 31) (blockOf [0xFF])).1 = some 0xFF
      ∧ dmaValid 0xFF = false := by decide +kernel

/-! ### The rules' statements: states and operands at the bounds of their clauses -/

theorem witness_StepRunsFrontCommand :
    ({ base with pending := [.flgStopped 1, .mapPair 2] }).pending = .flgStopped 1 :: [.mapPair 2] := rfl

/-- A device held in reset by its power. -/
def heldDevice : State := { State.reset with boot := { pwrGood := false, step := 0 } }

theorem witness_HeldDeviceOnlyLetsTimePass :
    heldDevice.held = true ∧ resetCommand (.flgStopped 1) = false ∧ exec (.flgStopped 1) heldDevice = .next (heldDevice.wait 1) := by
  refine ⟨by decide, by decide, rfl⟩

/-- A tripped device with a command waiting. -/
def trippedDevice : State := { State.reset with boot := { tripped := true, step := 0 }, pending := [.flgStopped 1] }

theorem witness_TrippedDeviceStaysInReset :
    (trippedDevice.boot.tripped = true ∧ trippedDevice.boot.step = 0)
      ∧ (∀ c ∈ trippedDevice.pending, ∀ dt, c ≠ .powerOnResetEnd dt true)
      ∧ step trippedDevice = .next (({ trippedDevice with pending := [] } : State).wait 1) := by
  refine ⟨by decide, ?_, rfl⟩
  intro c hc dt h
  subst h
  simp [trippedDevice] at hc

theorem witness_AccessWithoutRightsIsRefused :
    ∀ c ∈ [Instr.fabGo 1 (.pf 0), .rcRead 1 (.pf 5) ⟨0x2C0000, .word⟩, .registerWrite 1 (.eng 191) 0 0], ∃ a, accessOf c = some a
      ∧ (base.wait 1).held = false ∧ (base.wait 1).inReset a.who = false ∧ (base.wait 1).allowed a.who a.off a.write = false := by
  intro c hc
  simp only [List.mem_cons, List.not_mem_nil, or_false] at hc
  obtain rfl | rfl | rfl := hc <;> exact ⟨_, rfl, by decide +kernel⟩

theorem witness_FunctionInResetReachesNoRegister :
    let s := ({ base with hif := { flr := 0x20 } } : State).wait 1
    ∀ c ∈ [Instr.mapSnap 1 (.pf 5), .rcRead 1 (.pf 5) ⟨0, .byte 3⟩], ∃ a, accessOf c = some a ∧ a.who = .pf 5 ∧ s.held = false ∧ s.inFlr 5 = true := by
  intro s c hc
  simp only [List.mem_cons, List.not_mem_nil, or_false] at hc
  obtain rfl | rfl := hc <;> exact ⟨_, rfl, rfl, by decide +kernel⟩

/-- Sites at both ends of the list, with an error status bit. -/
theorem witness_ErrorSetsStatusLogsAndRaises :
    siteSec ∈ [siteSec, siteWtu 0] ∧ siteSec.flag.isSome = true ∧ siteMem 15 ∈ (List.range 16).map siteMem
      ∧ (siteMem 15).flag.isSome = true ∧ siteSec.ring ∈ logRings ∧ (siteCin 15).ring ∈ logRings := by decide +kernel

/-- A ring with 255 unread entries, one with 256, and one whose counts wrap. -/
theorem witness_LogOverwritesTheOldest :
    (∀ p ∈ [(255, 0, true), (256, 0, false), (5, 2 ^ 32 - 251, false), (4, 2 ^ 32 - 251, true)],
      let s := with_ base [(F.LOG_WR siteHif.ring, p.1), (F.LOG_RD siteHif.ring, p.2.1)]
      decide ((s.get (F.LOG_WR siteHif.ring) + 2 ^ 32 - s.get (F.LOG_RD siteHif.ring)) % 2 ^ 32 < 256) = p.2.2)
      ∧ siteHif.ring ∈ logRings := by decide +kernel

theorem witness_PendingLowWordBelongsToItsRequester :
    O.FAB_SPLICE_WCO < 2 ^ 26 ∧ ((Requester.pf 1, O.FAB_SPLICE_WCO) ≠ (Requester.pf 0, O.FAB_SPLICE_WCO)) := by decide

theorem witness_WcoLoadNeedsStill :
    ((base.wait 1).TakesWrite (.pf 0) O.WTU_CTRL ∧ (base.wait 1).motion (base.wait 1).src = stStill)
      ∧ (let s := (with_ base [(F.WTU_ENC_STAT_STATE 0, stFwdStart)]).wait 1;
        s.TakesWrite (.pf 0) O.WTU_CTRL ∧ s.motion s.src ≠ stStill) := by
  unfold State.TakesWrite; decide +kernel

theorem witness_LaunchSlotFiresOnce :
    let slot := fun (t w : Nat) =>
      (with_ { base with wtu := { slot := [(31, { target := { at_ := t }, armWrite := w })] } } [(F.WTU_SLOT_CTRL_ARM 31, 1)]).wait 1
    (∀ w ∈ [0, 0x10000000000], let s := slot 0xFFFFFFFFFF w;
        s.held = false ∧ s.slotDue 31 = true ∧ s.slotEdge 31 = some (0x10000000000, { at_ := 0xFFFFFFFFFF })
          ∧ 0x10000000000 ≤ s.now ∧ s.now < 2 ^ 64 ∧ s.rearmed 31 0x10000000000 = decide (w ≠ 0)
          ∧ s.TakesWrite (.pf 0) (O.WTU_SLOT_CTRL 31) ∧ s.on (F.WTU_SLOT_CTRL_ARM 31) = true ∧ s.now ≠ 0)
      ∧ (let s := slot 0x10000000001 0; s.held = false ∧ s.slotDue 31 = false) := by
  unfold State.TakesWrite; decide +kernel

theorem witness_NozzleTableMaskedUpdate :
    (let s := (with_ ({ base with nt := { initAt := none } }) [(F.RP_NT_RMW_INDEX 3, 524287)]).wait 1;
      s.TakesWrite (.pf 1) (O.RP_NT_RMW_DATA 3) ∧ s.nt.waiting = [] ∧ s.nt.initAt = none ∧ s.get (F.RP_NT_RMW_INDEX 3) < 524288
        ∧ (s.ntCell (s.get (F.RP_NT_RMW_INDEX 3))).mark = .good ∧ s.now / 4 < (s.wait 4).now / 4)
      ∧ (let s := (with_ ({ base with nt := { initAt := none, cells := [(0, { bits := 1, mark := .corrected })] } }) []).wait 1;
        s.TakesWrite (.pf 1) (O.RP_NT_RMW_DATA 3) ∧ (s.ntCell (s.get (F.RP_NT_RMW_INDEX 3))).mark = .corrected)
      ∧ (let s := (with_ base [(F.RP_NT_RMW_INDEX 3, 524288)]).wait 1;
        s.TakesWrite (.pf 1) (O.RP_NT_RMW_DATA 3) ∧ 524288 ≤ s.get (F.RP_NT_RMW_INDEX 3)) := by
  unfold State.TakesWrite; decide +kernel

/-- Head 127 with its last nozzle and its first, in four segments. -/
theorem witness_PayloadHoldsEachDose :
    let s := with_ base [(F.FTU_HEAD_CFG_SEG_LOG2 127, 2)]
    let dots := [(127 * 4096, 7), (127 * 4096 + s.nozzles 127 - 1, 1)]
    (dots.map (·.1)).Nodup ∧ s.get (F.FTU_HEAD_CFG_SEG_LOG2 127) ≤ 2
      ∧ ∀ d ∈ dots, d.2 < 8 ∧ headOf d.1 = 127 ∧ d.1 % 4096 < s.nozzles 127 := by decide +kernel

theorem witness_PayloadPositionsFollowTheWiring :
    let s := with_ base [(F.FTU_HEAD_CFG_SEG_LOG2 127, 2)]
    s.get (F.FTU_HEAD_CFG_SEG_LOG2 127) ≤ 2 ∧ 0 < s.nozzles 127 ∧ s.nozzles 127 - 1 < s.nozzles 127 := by decide +kernel

theorem witness_DropRestDiscardsThePacket :
    (let s := ({ base with dfq := { stored := [{ sev := 7, recs := [[0]], begun := some (base.dfqReq (.pf 2)) }] } } : State).wait 1;
      s.TakesWrite (.pf 2) O.DFQ_CTRL ∧ (s.dfq.stored.find? fun q => q.begun == some (s.dfqReq (.pf 2))).isSome = true)
      ∧ (base.wait 1).TakesWrite (.pf 2) O.DFQ_CTRL
      ∧ (base.wait 1).dfq.stored.find? (fun q => q.begun == some ((base.wait 1).dfqReq (.pf 2))) = none := by
  unfold State.TakesWrite; decide +kernel

/-- A load of the least and of the greatest length, one of a length past it, one of a base out of line, and a GO outside IDLE. -/
theorem witness_FabGoStartsALoad :
    (∀ p ∈ [(64, 48, true), (0, 2 ^ 30, true), (0, 2 ^ 30 + 8, false), (32, 48, false), (0, 44, false), (0, 40, false)],
      let s := (with_ base [(F.FAB_LOAD_BASE, p.1), (F.FAB_LOAD_LEN, p.2.1)]).wait 1
      s.TakesWrite (.pf 1) O.FAB_CTRL ∧ s.fabState = fbIdle
        ∧ decide (s.get F.FAB_LOAD_BASE % 64 = 0 ∧ s.get F.FAB_LOAD_LEN % 8 = 0 ∧ 48 ≤ s.get F.FAB_LOAD_LEN
          ∧ s.get F.FAB_LOAD_LEN ≤ 2 ^ 30) = p.2.2)
      ∧ (let s := (with_ base [(F.FAB_STAT_STATE, fbLoaded)]).wait 1;
        s.TakesWrite (.pf 1) O.FAB_CTRL ∧ s.fabState ≠ fbIdle) := by
  unfold State.TakesWrite; decide +kernel

theorem witness_VectorWritesActiveElements : (63 : Nat) < 64 / 2 ^ insEsz 0 ∧ (7 : Nat) < 64 / 2 ^ insEsz (2 ^ 27 * 3) := by decide

theorem witness_CregarWordsRoundTrip :
    Op.fits .add { d := 31, a := 31, b := 31 } = true ∧ Op.fits .j { imm := 2 ^ 26 - 1 } = true
      ∧ Op.fits .vadd { d := 31, a := 31, b := 31, u := true, esz := 2, pm := 7 } = true := by decide

theorem witness_TimerRunsItsDelay :
    (let s := (with_ base [(F.EVF_TMR_CFG_EN 31, 1)]).wait 1;
      s.held = false ∧ s.on (F.EVF_TMR_CFG_EN 31) = true ∧ s.timerBusy 31 = false ∧ s.timerDue 31 = false)
      ∧ (base.wait 1).on (F.EVF_TMR_CFG_EN 31) = false
      ∧ (let s := (with_ base [(F.EVF_TMR_CFG_EN 31, 1), (F.EVF_TMR_CFG_RUNNING 31, 1)]).wait 1;
        s.held = false ∧ s.on (F.EVF_TMR_CFG_EN 31) = true ∧ s.timerDue 31 = true) := by decide +kernel

/-- Both loop counters, one active and one inactive. -/
theorem witness_DmaLoopCountsDown :
    ∀ w ∈ [0x0001000000010002, 0x0001000000020012, 0x0001FFFFFFFF0002],
      takesAs ((with_ dmaRunning [(F.DMA_CH_LOOP_ACT 31, 1), (F.DMA_CH_LOOP0 31, 1)]).wait 1) 31 2 (blockOf [w]) [w] = true
        ∧ bits w 3 0 = 2 := by decide +kernel

theorem witness_DmaJumpGoesToTheTarget :
    ∀ w ∈ [0x05, 0x15, 0x0000020000000805, 0xFFFFFFFFFFFFFF05],
      takesAs (dmaRunning.wait 1) 31 5 (blockOf [w]) [w] = true ∧ bits w 3 0 = 5 := by decide +kernel

theorem witness_DoorbellActsByState :
    (∀ st ∈ [dmIdle, dmRunning, dmWaiting, dmEndWait, dmHalted, dmStopping],
      let s := (with_ base [(F.DMA_CH_STAT_STATE 31, st), (F.DMA_CH_PC 31, 8)]).wait 1
      s.held = false ∧ s.dmaState 31 = st ∧ s.dmaPc 31 % 8 = 0)
      ∧ (let s := (with_ base [(F.DMA_CH_PC 31, 4)]).wait 1;
        s.dmaState 31 = dmIdle ∧ s.dmaPc 31 % 8 ≠ 0) := by decide +kernel

theorem witness_MemoryMapIsOneToOne :
    noRepeat base.mapped = true ∧ base.channelOf 0x12345678 = base.channelOf 0x12345678
      ∧ base.physOf 0x12345678 = base.physOf 0x12345678 := by decide +kernel

/-- Device memory open and zeroed, every channel ready. -/
def openMemory : State :=
  with_ ({ base with mem := { zeroed := true } }) ((F.MEM_CTRL_OPEN, 1) :: (List.range 16).map fun n => (F.MC_STAT_STATE n, mcReady))

theorem witness_MemoryWriteStoresItsBytes :
    let s := openMemory.wait 1
    s.held = false ∧ s.belowTop (64 * (0x3BFFFFFF : BitVec 32).toNat) = true ∧ s.serves (64 * (0x3BFFFFFF : BitVec 32).toNat) = true
      ∧ (List.replicate 64 (some (0 : Byte))).length ≤ 64 ∧ s.flawAt (0x3BFFFFFF : BitVec 32).toNat = .good := by decide +kernel

theorem witness_ClosedMemoryTurnsAccessesAway :
    (base.wait 1).held = false ∧ (base.wait 1).belowTop (64 * (0x3BFFFFFF : BitVec 32).toNat) = true
      ∧ (base.wait 1).on F.MEM_CTRL_OPEN = false := by decide +kernel

theorem witness_MemoryCommandsKeepCanonicalForm :
    memoryCommand (.refresh 1 0 0) = true ∧ Memory.wf base = true ∧ ∃ t, exec (.refresh 1 0 0) base = .next t := by
  refine ⟨by decide, by decide, ?_⟩
  exact ⟨_, rfl⟩

theorem witness_FramesAreTakenInOrder :
    let s := (with_ base [(F.FVL_PORT_STAT_STATE 52, fvActive)]).wait 1
    s.held = false ∧ s.fvState 52 = fvActive ∧ (s.fvPort 52).rxSeq < 65536 := by decide +kernel

theorem witness_HostInterruptsAreHeldWhileMasked :
    ({ base with hif := { flr := 0x20 } } : State).inFlr 5 = true
      ∧ (let s := with_ ({ base with hif := { bme := 0x20 } }) [(F.MSIX_CTRL 5 31, 0)];
        s.inFlr 5 = false ∧ s.on (F.MSIX_CTRL 5 31) = false ∧ s.bmeOf 5 = true ∧ s.hif.msix = [] ∧ s.now + 160 < 2 ^ 64)
      ∧ base.on (F.MSIX_CTRL 5 31) = true ∧ base.bmeOf 5 = false
      ∧ (let s := (with_ ({ base with hif := { bme := 0x20 } }) [(F.MSIX_PBA 5, 2 ^ 31)]).wait 1;
        bit (s.get (F.MSIX_PBA 5)) 31 = true ∧ s.bmeOf 5 = true ∧ s.TakesWrite (.pf 5) (O.MSIX_CTRL 5 31)) := by
  unfold State.TakesWrite; decide +kernel

theorem witness_GpioEdgeShowsAndRaises :
    ∀ level ∈ [true, false], ∀ edges ∈ [0, 3],
      let s := (with_ base [(F.GPIO_IN, if level then 0 else 2 ^ 31), (F.GPIO_EDGE_CFG1, 2 ^ 30 * edges)]).wait 1
      s.held = false ∧ bit (s.get F.GPIO_IN) 31 = !level ∧ s.gpioFiltered 31 = true
        ∧ bit (s.gpioSel 31) (if level then 0 else 1) = decide (edges = 3) := by decide +kernel

theorem witness_LockedDomainStands :
    (∀ l ∈ [[(F.SEC_DOMAIN_LOCK, 1)], [(F.SEC_FUSE_SECURE_BOOT, 1)]],
      let s := (with_ base l).wait 1
      s.TakesWrite (.pf 0) O.SEC_DOMAIN
        ∧ (s.on F.SEC_DOMAIN_LOCK = true ∨ (s.on F.SEC_FUSE_SECURE_BOOT = true ∧ s.isSecure (.pf 0) = false)))
      ∧ (let s := base.wait 1;
        s.TakesWrite (.pf 0) O.SEC_DOMAIN ∧ s.on F.SEC_DOMAIN_LOCK = false ∧ s.isSecure .secDom = true
          ∧ bit (s.rights (.pf 0)) 0 = true ∧ s.on F.SEC_FUSE_SECURE_BOOT = false) := by
  unfold State.TakesWrite; decide +kernel

/-! ### WellFormed refuses -/

/-- A frame of `n` zero bytes. -/
def zeros (n : Nat) : Bytes := List.replicate n 0

/-- One ill-formed command for each check of WellFormed, and at each bound that a check has. -/
theorem test_wf_refuses :
    ∀ c ∈ ([.cameraPacketReceive 0 0 ⟨0, 0, true, false, 0, 0, List.replicate 65 0⟩,
        .twinSpliceMessage 0 (.report 0 [] 0 0) true,
        .dmaMove 0 0 [.data (zeros 63)], .dmaLoop 0 0 [.data (zeros 65)], .dmaWait 0 0 [.fail 0, .data []],
        .dmaSignal 0 0 [.data []], .dmaJump 0 0 [.data []], .dmaEnd 0 0 [.data []], .dmaIllegal 0 0 [.data []],
        .memoryWrite 0 0 0 (List.replicate 63 none) false ⟨false, false⟩,
        .bootTrainingEnd 0 (List.replicate 15 none)] ++
      [.ts1Receive 0 0 0 0 (zeros 15), .ts2Receive 0 0 (zeros 17),
        .dataFrameReceive 0 0 ⟨true, true, 0, []⟩, .dataFrameReceive 0 0 ⟨true, true, 0, List.replicate 67 0⟩,
        .postedWriteReceive 0 0 0 [], .postedWriteReceive 0 0 0 (List.replicate 129 0),
        .completionReceive 0 0 0 0 (List.replicate 129 0),
        .bar2Write 0 0 0 [], .bar2Write 0 0 0 (zeros 4097),
        .i2cTransferEnd 0 .ok (zeros 17), .i2cStretchTimeout 0 (zeros 17)] ++
      [.ethFrameReceive 0 0 true (zeros 59), .ethFrameReceive 0 0 true (zeros 9597),
        .frameTransmit 0 0 0 [(0, .data (zeros 63))],
        .heartbeatReceive 0 false true ⟨0, 0, 0, 0, 0, 0, List.replicate 7 none⟩,
        .signatureReceive 0 [], .signatureReceive 0 (List.replicate 17 ⟨0, 0, 0, 0⟩),
        .ntUpdateReceive 0 [], .ntUpdateReceive 0 (List.replicate 17 ⟨0, 0, 0⟩),
        .ringDataReceive 0 0 (zeros 497),
        .defectMessageReceive 0 [], .defectMessageReceive 0 [0, 0, 0, 0, 0, 0, 0]] ++
      [.sensorConversion 0 [], .calPhaseEnd 0 ⟨[], List.replicate 8 0, List.replicate 128 0⟩,
        .calPhaseEnd 0 ⟨List.replicate 8 0, [], List.replicate 128 0⟩, .calPhaseEnd 0 ⟨List.replicate 8 0, List.replicate 8 0, []⟩,
        .flashImageReadEnd 0 (zeros 63) [], .flashReadTimeout 0 (zeros 65)] : List Instr),
      c.wf = false := by decide +kernel

theorem test_wf_accepts :
    ∀ c ∈ [Instr.cameraPacketReceive 0 0 ⟨0, 0, true, false, 0, 0, List.replicate 64 0⟩, .dmaJump 0 0 [.data (zeros 64), .fail 3],
      .dataFrameReceive 0 0 ⟨true, true, 0, List.replicate 66 0⟩, .ethFrameReceive 0 0 true (zeros 9596),
      .calPhaseEnd 0 ⟨List.replicate 8 0, List.replicate 8 0, List.replicate 128 0⟩, .flashImageReadEnd 0 (zeros 64) [0]],
      c.wf = true := by decide +kernel

/-! ### Numbers and words worked out in the manual -/

/-- The error code 0x0402_8011 of the worked example at R27, and the source numbers of the one at R31. -/
theorem test_error_code : errCode 0x04 0x02 8 0x011 = 0x04028011 := by decide

theorem test_source_numbers : 64 * 0x04 + 63 = 319 ∧ 256 + 7 * 5 = 291 ∧ implemented 319 = true ∧ implemented 291 = true := by decide

/-- The line of the worked example in 02: W_L 999,987,500 nm at Tempo 9,999,990,164 with 12,500 nm in 9,836 units, so line 47,245
of a pitch of 0x52AE_AAAB at START 0 prints at 10,000,015,082 (R56), and so it does with the edge at 10,000,009,836. -/
theorem test_line_tempo :
    ∀ p ∈ [(9999990164, 999987500), (10000000000, 1000000000), (10000009836, 1000012500)],
      (with_ ({ base with wtu := { latchV := (2 ^ 32 * 12500 / 9836 : Nat), latchT := p.1, latchW := BitVec.ofNat 80 (2 ^ 16 * p.2) } })
        [(F.WTU_LG_START 0, 0), (F.WTU_LG_PITCH 0, 0x52AEAAAB)]).lineTempo 0 47245 = some 10000015082 := by decide +kernel

/-- The pixel of the worked example in 04: base 140, G 486 and O −3 give 130, which exceeds four of the cell's thresholds. -/
theorem test_pixel_dose :
    density (486 * 2 ^ 2 + 0xFD * 2 ^ 12) 140 = 130
      ∧ doseOf (20 + 52 * 2 ^ 8 + 84 * 2 ^ 16 + 116 * 2 ^ 24 + 148 * 2 ^ 32 + 180 * 2 ^ 40 + 212 * 2 ^ 48) 130 = 4 := by decide

/-- The payload positions of the worked example in 06: two contiguous segments of 2,048, the first wired far end first. -/
theorem test_payload_positions :
    let s := with_ base [(F.FTU_HEAD_CFG_NOZ64 9, 64), (F.FTU_HEAD_CFG_SEG_LOG2 9, 1), (F.FTU_HEAD_CFG_SEG_MODE 9, 0),
      (F.FTU_HEAD_CFG_DIR 9, 2)]
    [0, 1, 4094, 4095].map (s.nozzleOf 9) = [2047, 2048, 0, 4095] ∧ [2047, 2048, 0, 4095].map (s.payloadPos 9) = [0, 1, 4094, 4095]
      ∧ s.payloadPos 9 3136 = 2177 := by decide +kernel

/-- The two commits of the worked example in 08. -/
theorem test_exposure_targets :
    ∀ p ∈ [(5243800, 921, 5121, 5243904), (5243850, 971, 5122, 5244928)],
      let s := with_ ({ base with cin := [(2, { lastTrig := some p.1, strip := some (5120, p.2.1) })] })
        [(F.CIN_PORT_STRIP_ORIGIN 2, 0), (F.CIN_PORT_STRIP_STRIP_LINES_M1 2, 1023), (F.CIN_PORT_STRIP_EXP_LEAD 2, 64)]
      (s.expCommit 2).get (F.CIN_PORT_EXP_TARGET 2) = p.2.2.1 := by decide +kernel

/-- The words of the worked example in 12. -/
theorem test_cregar_words :
    ∀ p ∈ [(0x05024A20, Op.wait, ({ d := 8, a := 9, imm := 5 } : Operands)), (0x0018398B, .ldd, { d := 6, a := 7, imm := 0x18 }),
      (0x200338A9, .vld, { d := 2, a := 7, imm := 3, pm := 1 }), (0x0C031068, .vadd, { d := 1, a := 2, b := 3, u := true, esz := 1 }),
      (0x000520C1, .add, { d := 3, a := 4, b := 5 }), (0xFFFD0113, .bne, { d := 4, a := 0, imm := 0xFFFD })],
      cregar p.1 = some p.2.1 ∧ operandsOf p.2.1 p.1 = p.2.2 ∧ encodeCregar p.2.1 p.2.2 = p.1 := by decide

/-- Reserved encodings are no instruction. -/
theorem test_cregar_reserved : ∀ w ∈ [0, 0x3F, 0x000520C1 + 0x1F * 2 ^ 21, 0x80000001], cregar w = none := by decide

/-- The words of the worked example in 14, and its JUMP. -/
theorem test_dma_words :
    (moveOf [0x000555C000000041, 0x8000000123400000, 0]).len = 349632 ∧ (moveOf [0x000555C000000041]).srcMode = 0
      ∧ (moveOf [0x000555C000000041]).dstMode = 1 ∧ bits 0x34 3 0 = 4 ∧ bits 0x16 3 0 = 6
      ∧ (∀ w ∈ [0x000555C000000041, 0x34, 0x16, 0x0000020000000805], dmaValid w = true)
      ∧ 2 ^ 3 * bits 0x0000020000000805 63 8 = 0x0000001000000040 := by decide

/-- A JUMP taken by a channel goes where the manual says. -/
theorem test_dma_jump :
    (after (exec (.dmaJump 0 31 (blockOf [0x0000020000000805])) dmaRunning)).dmaPc 31 = 0x0000001000000040 := by decide +kernel

/-- The check values of the two CRCs over the nine bytes of "123456789". -/
theorem test_crcs :
    crc32 [0x31, 0x32, 0x33, 0x34, 0x35, 0x36, 0x37, 0x38, 0x39] = 0xCBF43926
      ∧ [0x31, 0x32, 0x33, 0x34, 0x35, 0x36, 0x37, 0x38, 0x39].foldl crc64Byte (2 ^ 64 - 1) ^^^ (2 ^ 64 - 1) = 0x995DC9BBDF1939FA := by decide +kernel

/-- The walk of the worked example in 09: nodes 2,205, 2,206, 2,495 and 2,512 with weights 1,248, 1,520, 1,288 and 40. -/
theorem test_coverage_walk :
    walk [30000, 41000, 52000] = [(2205, 1248), (2206, 1520), (2495, 1288), (2512, 40)]
      ∧ (2048 + 1248 * 2300 + 1520 * 2180 + 1288 * 2240 + 40 * 2100) / 4096 = 2235 := by decide +kernel

/-! ### One step of a command in each family -/

theorem test_step_runs_front : step { base with pending := [.subwordWrite 4 (.pf 0)] } = exec (.subwordWrite 4 (.pf 0)) base := rfl

theorem test_step_idle : (after (step State.reset)).tempo = 8 := by decide

/-- A subword write is logged as cause 0x001 of the HIF and its event is presented (R5, R27). -/
theorem test_subword_write :
    let t := after (exec (.subwordWrite 0 (.pf 0)) base)
    t.get (F.LOG_WR siteHif.ring) = 1 ∧ t.hasRaised (64 * siteHif.block + 63) = true := by decide +kernel

/-- A register write and the read of it. -/
theorem test_register_write :
    let t := after (exec (.registerWrite 0 (.pf 1) (BitVec.ofNat 24 (F.FAB_LOAD_LEN.off / 4)) 48) base)
    t.get F.FAB_LOAD_LEN = 48 := by decide +kernel

theorem test_timer_step :
    let s := with_ base [(F.EVF_TMR_CFG_EN 3, 1), (F.EVF_TMR_DELAY 3, 5)]
    let t := s.taskTrigger (1664 + 3)
    t.on (F.EVF_TMR_CFG_RUNNING 3) = true ∧ (t.wait 39).timerDue 3 = false ∧ (t.wait 40).timerDue 3 = true := by decide +kernel

/-- s3 := s4 + s5, and the PC moves on by 4 (R335, R338). -/
theorem test_add_step :
    let s := { running 0x000520C1 with eng := [(191, { x := [(4, BitVec.allOnes 64), (5, 2)] })] }
    let t := after (exec (.engAdd 0 191) s)
    t.sreg 191 3 = 1 ∧ t.pc 191 = 0x800000000004 ∧ t.sreg 191 4 = BitVec.allOnes 64 := by decide +kernel

/-- A write to an open channel and the read of it (R396, R397). -/
theorem test_memory_write :
    let t := after (exec (.memoryWrite 0 27 2 (some 0xA5 :: List.replicate 63 none) false ⟨false, false⟩) openMemory)
    t.byteAt 128 = 0xA5 ∧ t.byteAt 129 = 0 ∧ t.out = [.memAck 27 128 true] := by decide +kernel

/-- A GO with a length that is no multiple of 8 leaves the FAB IDLE and logs cause 0x001 (R303). -/
theorem test_fab_go_refused :
    let t := after (exec (.fabGo 0 (.pf 1)) (with_ base [(F.FAB_LOAD_LEN, 52)]))
    t.fabState = fbIdle ∧ t.get (F.LOG_WR siteFab.ring) = 1 := by decide +kernel

theorem test_decodeTableWord : decodeTableWord 0 0 = none ∧ State.reset.withFetchWord 8 0 = State.reset := ⟨rfl, rfl⟩

end Sys2Proof.Tests
end

section
/-! PROOFS. The scope chapter (00): register accesses and Function Level Resets complete, the reset state is canonical, and a pending
low word stays with its requester and register. -/

namespace Sys2Proof.Machine

/-! ### Commands whose conditions hold -/

/-- An event of the device happens where its rule's condition holds and no reset holds the device. -/
theorem evCmd_happens {s : State} {guard : State → Bool} (s₀ : State) (dt : Nat) (hs : s = s₀.wait dt) (hheld : s.held = false)
    (hguard : guard s = true) (effect : State → State) : evCmd dt guard effect s₀ = .next (effect s) := by
  subst hs
  simp [evCmd, hheld, hguard]

/-- A write of one word of BAR0 that is taken is the bus write of that word. -/
theorem busWriteCmd_takes {s : State} {who : Requester} {word : BitVec 24} (h : s.TakesWrite who (4 * word.toNat)) (s₀ : State)
    (dt : Nat) (hs : s = s₀.wait dt) (v : Word) :
    busWriteCmd dt who word v s₀ = .next (s.busWrite who (4 * word.toNat) v).2 := by
  obtain ⟨hheld, hreset, -, -⟩ := h
  subst hs
  simp [busWriteCmd, hheld, hreset]

/-- A read of BAR0 that is taken has the effects of the whole word's bus read, and answers the part that it addresses. -/
theorem busReadCmd_takes {s : State} {who : Requester} {a : ReadAt} (h : s.TakesRead who a.off) (s₀ : State) (dt : Nat)
    (hs : s = s₀.wait dt) :
    busReadCmd dt who a s₀
      = .next ((s.busRead who a.off).2.emit (.readData who a.addr (a.part.of ((s.busRead who a.off).1.getD 0)))) := by
  obtain ⟨hheld, hreset, -, -⟩ := h
  subst hs
  simp [busReadCmd, hheld, hreset]

/-- The word that LOG_ENTRY_READ addresses is word 0 of the ring's LOG_ENTRY (R545): every ring's offset fits the word number. -/
theorem logEntry_off (ring : Fin 44) :
    ReadAt.off ⟨BitVec.ofNat 24 ((logRings.getD ring 0 + 0x40) / 4), .word⟩ = logRings.getD ring 0 + 0x40 := by
  revert ring
  decide

/-! ### Pending low words (R6) -/

/-- The requester of a number: the inverse of `reqCode`. -/
def requesterOf (n : Nat) : Requester :=
  if n < 8 then .pf (Fin.ofNat 6 n)
  else if n = 8 then .secDom
  else if n = 9 then .fab
  else if n = 10 then .uart
  else if n < 256 then .eng (Fin.ofNat 192 (n - 16))
  else .dma (Fin.ofNat 32 (n - 256))

theorem requesterOf_reqCode (who : Requester) : requesterOf (reqCode who) = who := by
  cases who with
  | pf f => simp [reqCode, requesterOf, show f.val < 8 by omega]
  | secDom => rfl
  | fab => rfl
  | uart => rfl
  | eng e =>
    simp [reqCode, requesterOf, show ¬ 16 + e.val < 8 by omega, show 16 + e.val ≠ 8 by omega, show 16 + e.val ≠ 9 by omega,
      show 16 + e.val ≠ 10 by omega, show 16 + e.val < 256 by omega]
  | dma c =>
    simp [reqCode, requesterOf, show ¬ 256 + c.val < 8 by omega, show 256 + c.val ≠ 8 by omega, show 256 + c.val ≠ 9 by omega,
      show 256 + c.val ≠ 10 by omega]

theorem reqCode_injective : Function.Injective reqCode := Function.LeftInverse.injective requesterOf_reqCode

/-- Below 2^26, the size of BAR0, an index of `latchKey` names one requester and one register. -/
theorem latchKey_ne {who other : Requester} {off off' : Nat} (hoff : off < 2 ^ 26) (hoff' : off' < 2 ^ 26)
    (hne : (other, off') ≠ (who, off)) : latchKey other off' ≠ latchKey who off := by
  intro hkey
  unfold latchKey at hkey
  have hcode : reqCode other = reqCode who := by omega
  have hsame : off' = off := by omega
  exact hne (by rw [reqCode_injective hcode, hsame])

/-- A pending low word is the requester's and register's own. -/
theorem State.pendingLow_putLow_same (s : State) (who : Requester) (off : Nat) (lo : Option Word) :
    (s.putLow who off lo).pendingLow who off = lo := Sparse.get_set_same _ _ _ _

theorem State.pendingLow_putLow_other (s : State) {who other : Requester} {off off' : Nat} (lo : Option Word)
    (h : latchKey other off' ≠ latchKey who off) : (s.putLow who off lo).pendingLow other off' = s.pendingLow other off' :=
  Sparse.get_set_other _ _ _ _ _ h

/-- Pending low words are no part of what the registers hold. -/
@[simp] theorem State.currentLow_putLow (s : State) (who : Requester) (off : Nat) (lo : Option Word) (off' : Nat) :
    (s.putLow who off lo).currentLow off' = s.currentLow off' := rfl

theorem State.joined_of_some {s : State} {who : Requester} {off : Nat} {lo : Word} (h : s.pendingLow who off = some lo) (hi : Word) :
    s.joined who off hi = 2 ^ 32 * hi.toNat + lo.toNat := by
  simp [State.joined, h]

theorem State.joined_of_none {s : State} {who : Requester} {off : Nat} (h : s.pendingLow who off = none) (hi : Word) :
    s.joined who off hi = 2 ^ 32 * hi.toNat + s.currentLow off := by
  simp [State.joined, h]

theorem State.joined_putLow_other (s : State) {who other : Requester} {off off' : Nat} (lo : Option Word) (hi : Word)
    (h : latchKey other off' ≠ latchKey who off) : (s.putLow who off lo).joined other off' hi = s.joined other off' hi := by
  simp [State.joined, s.pendingLow_putLow_other lo h]

/-! ### The obligations -/

/-- Settles O12: the table of pending low words reads back at the index written and stays at every other, and two requesters or
registers never share an index. That one requester's other registers keep theirs rests on assumption 88, not on R6. -/
theorem pendingLowWordBelongsToItsRequester : Obligations.PendingLowWordBelongsToItsRequester := by
  intro s who other off off' lo hi hoff hoff'
  refine ⟨?taken, ?others, ?spent⟩
  case taken => exact State.joined_of_some (s.pendingLow_putLow_same who off (some lo)) hi
  case others =>
    intro hne
    exact s.joined_putLow_other (some lo) hi (latchKey_ne hoff hoff' hne)
  case spent => exact State.joined_of_none (s.pendingLow_putLow_same who off none) hi

/-- Settles O4: at reset memory and the register file list no entry, and no command waits. -/
theorem resetMeetsInvariants : Obligations.ResetMeetsInvariants := ⟨reset_memory_wf, rfl, rfl⟩

/-- Settles O40: each command is a bus write, a bus read or an event of the device whose conditions hold; a subword write has a
condition of its own. -/
theorem registerCommandsComplete : Obligations.RegisterCommandsComplete := by
  refine ⟨?registerWrite, ?subwordWrite, ?rcRead, ?lowWordRead, ?lowWordWrite, ?highWordWrite, ?logEntryRead, ?flr, ?flrComplete⟩
  case registerWrite | lowWordWrite | highWordWrite =>
    intro dt who word v s₀ s hs h
    exact busWriteCmd_takes h s₀ dt hs v
  case rcRead | lowWordRead =>
    intro dt who a s₀ s hs h
    exact busReadCmd_takes h s₀ dt hs
  case subwordWrite =>
    intro dt who s₀ s hs hheld hreset
    subst hs
    simp [exec, execSubwordWrite, hheld, hreset]
  case logEntryRead =>
    intro dt who ring s₀ s hs h
    rw [← logEntry_off ring] at h ⊢
    exact busReadCmd_takes h s₀ dt hs
  case flr =>
    intro dt f s₀ s hs hheld hflr
    exact evCmd_happens (guard := fun s => !s.inFlr f) s₀ dt hs hheld (by simp [hflr]) (fun s => s.flrStart f)
  case flrComplete =>
    intro dt f s₀ s hs hheld hflr
    exact evCmd_happens (guard := fun s => s.inFlr f) s₀ dt hs hheld hflr (fun s => s.flrEnd f)

end Sys2Proof.Machine
end

section
/-! PROOFS. Events and errors (01 R27–R30, R544): a source presents one event in a TMP cycle, and an error sets its block's status bit,
takes the slot of the log ring that LOG_WR names, and raises the block's error event. -/

namespace Sys2Proof.Machine

/-! ### Events -/

/-- `t` stands in the TMP cycle of `s` and every event presented in `s` still is. -/
def State.KeepsEvents (s t : State) : Prop := t.tempo = s.tempo ∧ s.presented ⊆ t.presented

theorem State.KeepsEvents.of_eq {s t : State} (ht : t.tempo = s.tempo) (hp : t.presented = s.presented) : s.KeepsEvents t :=
  ⟨ht, hp ▸ List.Subset.refl _⟩

theorem State.KeepsEvents.trans {a b c : State} (h : a.KeepsEvents b) (k : b.KeepsEvents c) : a.KeepsEvents c :=
  ⟨k.1.trans h.1, fun _ hp => k.2 (h.2 hp)⟩

theorem State.KeepsEvents.foldl {α : Type} (f : State → α → State) (h : ∀ s a, State.KeepsEvents s (f s a)) (l : List α)
    (s : State) : s.KeepsEvents (l.foldl f s) := by
  induction l generalizing s with
  | nil => exact .of_eq rfl rfl
  | cons a l ih => exact (h s a).trans (ih _)

theorem State.KeepsEvents.present (s : State) (p : Nat × Nat) : s.KeepsEvents { s with presented := s.presented ++ [p] } :=
  ⟨rfl, List.subset_append_left _ _⟩

theorem State.KeepsEvents.hasRaised {s t : State} (h : s.KeepsEvents t) {src : Nat} (hs : s.hasRaised src = true) :
    t.hasRaised src = true := by
  obtain ⟨htempo, hsub⟩ := h
  obtain ⟨p, hp, hnow⟩ := List.any_eq_true.1 hs
  refine List.any_eq_true.2 ⟨p, hsub hp, ?_⟩
  simpa [State.cycle, State.now, htempo] using hnow

/-- A source that has presented its event is done for the cycle (R30, R355). -/
theorem State.raiseAux_of_hasRaised (n : Nat) {s : State} {src : Nat} (h : s.hasRaised src = true) : s.raiseAux n src = s := by
  cases n <;> simp [State.raiseAux, h]

theorem State.hasRaised_present (s : State) (src : Nat) :
    State.hasRaised { s with presented := s.presented ++ [(src, s.now)] } src = true := by
  simp [State.hasRaised, State.cycle, State.now]

/-- An event keeps those already presented: the counters that count it may present their own beside it. -/
theorem State.KeepsEvents.raiseAux (n : Nat) (s : State) (src : Nat) : s.KeepsEvents (s.raiseAux n src) := by
  induction n generalizing s src with
  | zero =>
    unfold State.raiseAux
    split
    · exact .of_eq rfl rfl
    · exact .present s _
  | succ n ih =>
    unfold State.raiseAux
    split
    · exact .of_eq rfl rfl
    · refine (State.KeepsEvents.present s _).trans (.foldl _ (fun t c => ?_) _ _)
      dsimp only
      split
      · exact (State.KeepsEvents.of_eq (by simp) (by simp)).trans (ih _ _)
      · exact .of_eq (by simp) (by simp)

theorem State.hasRaised_raiseAux (n : Nat) (s : State) (src : Nat) : (s.raiseAux n src).hasRaised src = true := by
  by_cases h : s.hasRaised src = true
  · rw [State.raiseAux_of_hasRaised n h, h]
  · cases n with
    | zero => simpa [State.raiseAux, h] using s.hasRaised_present src
    | succ n =>
      rw [State.raiseAux, if_neg h]
      refine State.KeepsEvents.hasRaised (.foldl _ (fun t c => ?_) _ _) (s.hasRaised_present src)
      dsimp only
      split
      · exact (State.KeepsEvents.of_eq (by simp) (by simp)).trans (.raiseAux n _ _)
      · exact .of_eq (by simp) (by simp)

/-- After a raise the source has presented its event. -/
@[simp] theorem State.hasRaised_raise (s : State) (src : Nat) : (s.raise src).hasRaised src = true := s.hasRaised_raiseAux 33 src

/-- Settles O9: a raise presents the source's event, and a source that has presented it is done for the cycle. -/
theorem oneEventPerSourceAndCycle : Obligations.OneEventPerSourceAndCycle := fun s src =>
  ⟨s.hasRaised_raise src, State.raiseAux_of_hasRaised 33 (s.hasRaised_raise src)⟩

/-! ### Registers that an error writes -/

/-- A field within one word reads the same where that word does. -/
theorem State.get_of_word {s t : State} {f : Fld} (hf : f.hi < 32) (h : t.word f.off = s.word f.off) : t.get f = s.get f := by
  simp [State.get, State.raw, hf, h]

/-- A field set to 1 is on. -/
theorem State.on_put_field_one (s : State) {f : Fld} (hl : f.lo ≤ f.hi) (hh : f.hi < 32) : (s.put f 1).on f = true := by
  have hwidth : 1 < 2 ^ (f.hi - f.lo + 1) := Nat.one_lt_two_pow (by omega)
  simp [State.on, State.get_put_same s f 1 hl hh, Nat.mod_eq_of_lt hwidth]

/-- The ring's registers lie outside the PMU, and the error status bit within one word outside both. -/
def Site.apart (e : Site) : Bool :=
  (decide (e.ring + 0x14 ≤ 0x01500000) || decide (0x01600000 ≤ e.ring)) && e.flag.all fun f =>
    decide (f.lo ≤ f.hi) && decide (f.hi < 32) && (decide (f.off < e.ring) || decide (e.ring + 0x14 ≤ f.off)) && !inPmu f.off

theorem Site.apart_ring {e : Site} (h : e.apart = true) {o : Nat} (ho : o < 0x14) : inPmu (e.ring + o) = false := by
  simp [Site.apart] at h
  simp [inPmu]
  omega

theorem Site.apart_flag {e : Site} (h : e.apart = true) {f : Fld} (hf : e.flag = some f) :
    f.lo ≤ f.hi ∧ f.hi < 32 ∧ (f.off < e.ring ∨ e.ring + 0x14 ≤ f.off) ∧ inPmu f.off = false := by
  simp [Site.apart, hf] at h
  obtain ⟨-, ⟨⟨hlo, hhi⟩, hoff⟩, hpmu⟩ := h
  exact ⟨hlo, hhi, hoff, hpmu⟩

/-! ### The log rings -/

@[simp] theorem State.logPush_netError (s : State) (ring cyc code tempo : Nat) (d : List Nat) :
    (s.logPush ring cyc code tempo d).netError = s.netError := by
  unfold State.logPush
  dsimp only
  split <;> simp

@[simp] theorem State.logPush_logs (s : State) (ring cyc code tempo : Nat) (d : List Nat) :
    (s.logPush ring cyc code tempo d).logs = logPlace ring 255 s.logs (s.get (F.LOG_WR ring))
      { code := BitVec.ofNat 32 code, tempo := BitVec.ofNat 64 tempo, details := d.map (BitVec.ofNat 32), cycle := some cyc } := by
  unfold State.logPush
  dsimp only
  split <;> simp

/-- The overwriting of an unread entry leaves LOG_WR alone. -/
theorem State.get_logWr_overwrite (s : State) (ring : Nat) :
    ((s.bump (F.LOG_LOST ring)).flag (F.LOG_OVERWRITE ring)).get (F.LOG_WR ring) = s.get (F.LOG_WR ring) := by
  rw [State.get_flag, State.get_put_other _ _ _ _ (by simp [Fld.covers, F.LOG_WR, F.LOG_OVERWRITE]) (by simp [F.LOG_WR])]
  exact State.get_put_other _ _ _ _ (by simp [Fld.covers, F.LOG_WR, F.LOG_LOST]) (by simp [F.LOG_WR])

/-- LOG_WR counts the entries written. -/
theorem State.logPush_get_logWr (s : State) (ring cyc code tempo : Nat) (d : List Nat) :
    (s.logPush ring cyc code tempo d).get (F.LOG_WR ring) = (s.get (F.LOG_WR ring) + 1) % 2 ^ 32 := by
  unfold State.logPush
  dsimp only
  rw [State.bump, State.get_put_same _ _ _ (by simp [F.LOG_WR]) (by simp [F.LOG_WR])]
  split
  · rw [State.get_logWr_overwrite]; rfl
  · rfl

/-- Placing an entry at place `n` may move down entries of its own cycle,
one slot for each unit of fuel, and touches no slot further back. -/
theorem logPlace_get_far (ring : Nat) (e : LogEntry) (q : Nat) (hq : q < 256) (fuel n : Nat) (logs : List (Nat × LogEntry))
    (hfar : fuel < (n % 256 + 256 - q) % 256) :
    Sparse.get (fun _ => {}) (logPlace ring fuel logs n e) (ring + q) = Sparse.get (fun _ => {}) logs (ring + q) := by
  have hslot : ring + q ≠ ring + n % 256 := by omega
  induction fuel generalizing n logs with
  | zero => exact Sparse.get_set_other _ _ _ _ _ hslot
  | succ fuel ih =>
    unfold logPlace
    dsimp only
    split
    · rw [ih _ _ (by omega) (by omega), Sparse.get_set_other _ _ _ _ _ hslot]
    · exact Sparse.get_set_other _ _ _ _ _ hslot

/-- The slot that LOG_WR names takes the new entry, unless the entry before it is one of its own cycle with a higher cause. -/
theorem logPlace_get_new {ring n : Nat} {logs : List (Nat × LogEntry)} {e : LogEntry} (fuel : Nat)
    (h : (Sparse.get (fun _ => {}) logs (ring + (n + 255) % 256)).cycle ≠ e.cycle
      ∨ (Sparse.get (fun _ => {}) logs (ring + (n + 255) % 256)).cause ≤ e.cause) :
    (Sparse.get (fun _ => {}) (logPlace ring fuel logs n e) (ring + n % 256)).code = e.code := by
  cases fuel with
  | zero => simp [logPlace]
  | succ fuel =>
    unfold logPlace
    dsimp only
    generalize Sparse.get (fun _ => {}) logs (ring + (n + 255) % 256) = p at h
    generalize BitVec.ofNat 32 (n + 2 ^ 32 - 1) = before
    rw [if_neg, Sparse.get_set_same]
    obtain h | h := h <;> simp [h]

/-- The slot that LOG_WR names takes the entry before it, where that one is of the new one's cycle and has a higher cause (R29). -/
theorem logPlace_get_moved {ring n : Nat} {logs : List (Nat × LogEntry)} {e : LogEntry} (fuel : Nat) (hfuel : fuel < 255)
    (hcycle : (Sparse.get (fun _ => {}) logs (ring + (n + 255) % 256)).cycle = e.cycle)
    (hnumber : (Sparse.get (fun _ => {}) logs (ring + (n + 255) % 256)).number = BitVec.ofNat 32 (n + 2 ^ 32 - 1))
    (hcause : e.cause < (Sparse.get (fun _ => {}) logs (ring + (n + 255) % 256)).cause) :
    (Sparse.get (fun _ => {}) (logPlace ring (fuel + 1) logs n e) (ring + n % 256)).code
      = (Sparse.get (fun _ => {}) logs (ring + (n + 255) % 256)).code := by
  unfold logPlace
  dsimp only
  generalize Sparse.get (fun _ => {}) logs (ring + (n + 255) % 256) = p at hcycle hnumber hcause
  generalize BitVec.ofNat 32 (n + 2 ^ 32 - 1) = before at hnumber
  rw [if_pos (by simp [hcycle, hnumber, hcause]), logPlace_get_far _ _ _ (by omega) _ _ _ (by omega), Sparse.get_set_same]

/-! ### Errors -/

/-- The first thing an error does: its block's error status bit is set (R29). -/
def State.markError (s : State) (e : Site) : State :=
  match e.flag with
  | some f => s.flag f
  | none => { s with netError := true }

@[simp] theorem State.markError_tempo (s : State) (e : Site) : (s.markError e).tempo = s.tempo := by
  unfold State.markError
  split <;> simp

@[simp] theorem State.markError_logs (s : State) (e : Site) : (s.markError e).logs = s.logs := by
  unfold State.markError
  split <;> simp

theorem State.markError_of_flag (s : State) {e : Site} {f : Fld} (hf : e.flag = some f) : s.markError e = s.flag f := by
  simp [State.markError, hf]

/-- The status bit is no part of the ring's LOG_WR. -/
theorem State.markError_get_logWr (s : State) {e : Site} (h : e.apart = true) :
    (s.markError e).get (F.LOG_WR e.ring) = s.get (F.LOG_WR e.ring) := by
  unfold State.markError
  split
  next f hf =>
    obtain ⟨-, hhi, hoff, -⟩ := e.apart_flag h hf
    refine State.get_put_other _ _ _ _ ?_ (by simp [F.LOG_WR])
    simp [Fld.covers, F.LOG_WR]
    omega
  next => rfl

/-- An error in its three parts (R29): the status bit, the log entry and the event. -/
theorem State.logErr_eq (s : State) (e : Site) (cls cause : Nat) (d : List Nat) :
    s.logErr e cls cause d = ((s.markError e).logPush e.ring (e.dom.cycleOf s.now) (errCode e.block cls e.inst cause)
      ((s.markError e).tempoCopy e.dom) d).raise (64 * e.block + 63) := by
  have hnow : s.now = (s.markError e).now := by simp [State.now]
  rw [hnow, Nat.mul_comm]
  rfl

theorem State.logErr_on_flag (s : State) {e : Site} (h : e.apart = true) (cls cause : Nat) (d : List Nat) {f : Fld}
    (hf : e.flag = some f) : (s.logErr e cls cause d).on f = true := by
  obtain ⟨hlo, hhi, hoff, hpmu⟩ := e.apart_flag h hf
  have hword : (s.logErr e cls cause d).word f.off = (s.flag f).word f.off := by
    rw [s.logErr_eq, State.raise_word _ _ _ hpmu, State.logPush_word _ _ _ _ _ _ _ hoff, s.markError_of_flag hf]
  rw [State.on, State.get_of_word hhi hword]
  exact s.on_put_field_one hlo hhi

theorem State.logErr_get_logWr (s : State) {e : Site} (h : e.apart = true) (cls cause : Nat) (d : List Nat) :
    (s.logErr e cls cause d).get (F.LOG_WR e.ring) = (s.get (F.LOG_WR e.ring) + 1) % 2 ^ 32 := by
  rw [s.logErr_eq, State.get_of_word (by simp [F.LOG_WR]) (State.raise_word _ _ _ (e.apart_ring h (by simp))),
    State.logPush_get_logWr, s.markError_get_logWr h]

theorem State.logErr_logs (s : State) {e : Site} (h : e.apart = true) (cls cause : Nat) (d : List Nat) :
    (s.logErr e cls cause d).logs = logPlace e.ring 255 s.logs (s.get (F.LOG_WR e.ring))
      { code := BitVec.ofNat 32 (errCode e.block cls e.inst cause), tempo := BitVec.ofNat 64 ((s.markError e).tempoCopy e.dom),
        details := d.map (BitVec.ofNat 32), cycle := some (e.dom.cycleOf s.now) } := by
  rw [s.logErr_eq, State.raise_logs, State.logPush_logs, s.markError_get_logWr h, s.markError_logs]

theorem State.logErr_netError {e : Site} {f : Fld} (hf : e.flag = some f) (s : State) (cls cause : Nat) (d : List Nat) :
    (s.logErr e cls cause d).netError = s.netError := by
  rw [s.logErr_eq, State.raise_netError, State.logPush_netError, s.markError_of_flag hf, State.flag_netError]

/-- The sites that the statement about errors speaks of (R26): all but the WTU's from 2 on, the camera ports from 8 on, the NET and the
PMU. -/
def loggingSites : List Site :=
  [siteSec, siteWtu 0, siteWtu 1, siteCmp, siteRru, siteFtu, siteDgu, siteHb, siteIpl, siteDfq, siteFab, siteEng, siteEvf,
    siteDma, siteFvl, siteCal, siteTwn, siteHif] ++ (List.range 8).map siteRp ++ (List.range 8).map siteCin
      ++ (List.range 16).map siteMem

theorem loggingSites_apart : ∀ e ∈ loggingSites, e.apart = true := by decide

/-- Settles O10: each site's status bit, ring and the PMU's counters are apart, so that what the error writes to each stands. -/
theorem errorSetsStatusLogsAndRaises : Obligations.ErrorSetsStatusLogsAndRaises := by
  intro s e cls cause d he
  have h := loggingSites_apart e he
  refine ⟨fun f hf => s.logErr_on_flag h cls cause d hf, s.logErr_get_logWr h cls cause d, ?entry, ?event⟩
  case entry =>
    dsimp only
    rw [s.logErr_logs h]
    exact ⟨fun hnew => logPlace_get_new 255 hnew, fun hcycle hnumber hcause => logPlace_get_moved 254 (by decide) hcycle hnumber hcause⟩
  case event => rw [s.logErr_eq, State.hasRaised_raise]

end Sys2Proof.Machine
end

section
/-! PROOFS. Register accesses by their rights (01 R21–R24): every command that is a register access refuses one that the rights of its
requester do not cover, and a refusal touches no register outside the HIF and the PMU. -/

namespace Sys2Proof.Machine

/-! ### Commands that write or read a register -/

/-- A command that writes a register has its effect where the write is taken. -/
theorem regCmd_takes {s : State} {who : Requester} {off : Nat} (h : s.TakesWrite who off) (s₀ : State) (dt : Nat)
    (hs : s = s₀.wait dt) (effect : State → State) : regCmd dt who off effect s₀ = .next (effect s) := by
  obtain ⟨hheld, hreset, hallowed, hunit⟩ := h
  subst hs
  simp [regCmd, hheld, hreset, hallowed, hunit]

/-- A command that reads a register has its effect where the read is taken. -/
theorem readCmd_takes {s : State} {who : Requester} {off : Nat} (h : s.TakesRead who off) (s₀ : State) (dt : Nat)
    (hs : s = s₀.wait dt) (effect : State → State) : readCmd dt who off effect s₀ = .next (effect s) := by
  obtain ⟨hheld, hreset, hallowed, hunit⟩ := h
  subst hs
  simp [readCmd, hheld, hreset, hallowed, hunit]

/-- `answer` is the refusal of the access `a`, a read of it answered at `answered` with 0, wherever the requester is heard and its rights do
not cover the access (R21). -/
def RefusesUngranted (a : RegAccess) (answered : Nat) (s : State) (answer : Res) : Prop :=
  s.held = false → s.inReset a.who = false → s.allowed a.who a.off a.write = false →
    answer = .next (if a.write then s.refuse a.who a.off else (s.refuse a.who a.off).emit (.readData a.who answered 0))

theorem regCmd_refuses (dt : Nat) (who : Requester) (off answered : Nat) (effect : State → State) (s₀ : State) :
    RefusesUngranted ⟨dt, who, off, true⟩ answered (s₀.wait dt) (regCmd dt who off effect s₀) := by
  intro hheld hreset hallowed
  simp_all [regCmd]

theorem highCmd_refuses (dt : Nat) (who : Requester) (off : Nat) (hi : Word) (answered : Nat) (effect : Nat → State → State)
    (s₀ : State) : RefusesUngranted ⟨dt, who, off, true⟩ answered (s₀.wait dt) (highCmd dt who off hi effect s₀) :=
  regCmd_refuses dt who off answered _ s₀

theorem trigCmd_refuses (dt : Nat) (who : Requester) (off answered : Nat) (effect : State → State) (s₀ : State) :
    RefusesUngranted ⟨dt, who, off, true⟩ answered (s₀.wait dt) (trigCmd dt (.reg who) off effect s₀) :=
  regCmd_refuses dt who off answered effect s₀

theorem readCmd_refuses (dt : Nat) (who : Requester) (off : Nat) (effect : State → State) (s₀ : State) :
    RefusesUngranted ⟨dt, who, off, false⟩ off (s₀.wait dt) (readCmd dt who off effect s₀) := by
  intro hheld hreset hallowed
  simp_all [readCmd]

theorem busWriteCmd_refuses (dt : Nat) (who : Requester) (word : BitVec 24) (v : Word) (answered : Nat) (s₀ : State) :
    RefusesUngranted ⟨dt, who, 4 * word.toNat, true⟩ answered (s₀.wait dt) (busWriteCmd dt who word v s₀) := by
  intro hheld hreset hallowed
  simp_all [busWriteCmd, State.busWrite, State.busWriteWith]

/-- Any part of the 0 that a refused read returns is 0. -/
theorem ReadPart.of_zero (p : ReadPart) : p.of 0 = 0 := by
  cases p <;> simp [ReadPart.of]

theorem busReadCmd_refuses (dt : Nat) (who : Requester) (a : ReadAt) (s₀ : State) :
    RefusesUngranted ⟨dt, who, a.off, false⟩ a.addr (s₀.wait dt) (busReadCmd dt who a s₀) := by
  intro hheld hreset hallowed
  simp_all [busReadCmd, State.busRead, ReadPart.of_zero]

/-- Every command that is a register access refuses it where the rights do not cover it. -/
theorem exec_refuses (c : Instr) (a : RegAccess) (h : accessOf c = some a) (s₀ : State) :
    RefusesUngranted a (answeredAt c a) (s₀.wait a.dt) (exec c s₀) := by
  cases c with
  | registerWrite dt who word v | lowWordWrite dt who word v | highWordWrite dt who word v =>
    cases h; exact busWriteCmd_refuses dt who word v _ s₀
  | rcRead dt who at_ | lowWordRead dt who at_ => cases h; exact busReadCmd_refuses dt who at_ s₀
  | logEntryRead dt who ring => cases h; exact busReadCmd_refuses dt who ⟨_, .word⟩ s₀
  | thresholdStoreRead | ntWindowRead | dfqRecordTake | tsqTake =>
    cases h
    dsimp only [exec]
    exact readCmd_refuses _ _ _ _ s₀
  | ringProdWrite | ringConsWrite | thresholdStoreWrite | ntRmwUpdate | ptpStep =>
    cases h
    dsimp only [exec]
    exact highCmd_refuses _ _ _ _ _ _ s₀
  | iplTableAccess dt who data =>
    cases h
    cases data with
    | none => exact readCmd_refuses dt who O.IPL_TBL_DATA (fun s => s.tblAccess who none) s₀
    | some v => exact regCmd_refuses dt who O.IPL_TBL_DATA _ (fun s => s.tblAccess who (some v)) s₀
  | snapshotCapture dt trig | ssiRequest dt trig | dmaDoorbell dt trig =>
    cases trig <;> cases h
    dsimp only [exec]
    exact trigCmd_refuses _ _ _ _ _ s₀
  | headDisable dt why x =>
    cases why <;> cases h
    exact regCmd_refuses _ _ _ _ (fun s => (s.put (F.FTU_HEAD_CFG_EN x) 0).headStop x) s₀
  | _ => cases h <;> dsimp only [exec] <;> exact regCmd_refuses _ _ _ _ _ s₀

/-! ### What a refusal leaves alone -/

theorem siteHif_apart : siteHif.apart = true := by decide

/-- A refusal changes no register outside the HIF and the PMU. -/
theorem State.refuse_word (s : State) (who : Requester) (off : Nat) {o : Nat} (ho : o < 0x01400000 ∨ 0x01600000 ≤ o) :
    (s.refuse who off).word o = s.word o := by
  unfold State.refuse
  rw [State.logErr_word, State.bump, State.word_put_other]
  · simp [Fld.covers, F.HIF_REFUSED]; omega
  · simp [inPmu]; omega
  · simp [siteHif]; omega
  · simp [siteHif, Fld.covers, F.HIF_ERR]; omega

/-- A refusal is counted (R495). -/
theorem State.refuse_get_refused (s : State) (who : Requester) (off : Nat) :
    (s.refuse who off).get F.HIF_REFUSED = (s.get F.HIF_REFUSED + 1) % 2 ^ 32 := by
  have hword : (s.refuse who off).word F.HIF_REFUSED.off = (s.bump F.HIF_REFUSED).word F.HIF_REFUSED.off :=
    State.logErr_word _ _ _ _ _ _ (by decide) (by decide) (by simp [siteHif, Fld.covers, F.HIF_ERR, F.HIF_REFUSED])
  rw [State.get_of_word (by decide) hword]
  exact State.get_put_same _ _ _ (by decide) (by decide)

/-- A refusal changes nothing but registers with their past, the log and the events presented. -/
theorem State.refuse_frame (s : State) (who : Requester) (off : Nat) :
    { s.refuse who off with regs := s.regs, logs := s.logs, presented := s.presented, past := s.past } = s := by
  have hnet : (s.refuse who off).netError = s.netError := by
    simp [State.refuse, State.logErr_netError (e := siteHif) rfl]
  have hlogged : s.Logged (s.refuse who off) := (State.Logged.put _ _ _).trans (State.Logged.logErr _ _ _ _ _)
  obtain ⟨p, r, l, n, q, h⟩ := hlogged
  rw [h] at hnet ⊢
  cases hnet
  rfl

/-- Settles O7: each command that is a register access ends in the refusal, and the refusal is a count and an error of the HIF. -/
theorem accessWithoutRightsIsRefused : Obligations.AccessWithoutRightsIsRefused := by
  refine ⟨?refused, ?frame⟩
  case refused =>
    intro c a s₀ s hc hs hheld hreset hallowed
    subst hs
    exact exec_refuses c a hc s₀ hheld hreset hallowed
  case frame =>
    intro s who off
    exact ⟨fun o ho => s.refuse_word who off ho, s.refuse_get_refused who off,
      State.logErr_on_flag _ siteHif_apart _ _ _ rfl, s.refuse_frame who off⟩

end Sys2Proof.Machine
end

section
/-! PROOFS. Commands of the nozzle table (05 R123–R126), the host interface, the network and the twin (17): each completes under its
conditions. A command is a register write, a register read or an event of the device, and has its effect where that form's conditions
hold. -/

namespace Sys2Proof.Machine

/-- A write of a 64-bit register's high word has its effect with the joined value, the pending low word spent (R6). -/
theorem highCmd_takes {s : State} {who : Requester} {off : Nat} (h : s.TakesWrite who off) (s₀ : State) (dt : Nat)
    (hs : s = s₀.wait dt) (hi : Word) (effect : Nat → State → State) :
    highCmd dt who off hi effect s₀ = .next (effect (s.joined who off hi) (s.consumeLow who off)) :=
  regCmd_takes h s₀ dt hs _

/-- Settles O44: three writes, a read and three events. -/
theorem nozzleTableCommandsComplete : Obligations.NozzleTableCommandsComplete := by
  refine ⟨?ntInit, ?ntInitDone, ?ntWindowWrite, ?ntWindowRead, ?ntRmwUpdate, ?updatePortApply, ?scrubVisit⟩
  case ntInit | ntWindowWrite =>
    intros
    rename_i hs h
    dsimp only [exec]
    exact regCmd_takes h _ _ hs _
  case ntRmwUpdate =>
    intro dt who i hi s₀ s hs h
    exact highCmd_takes h s₀ dt hs hi fun v s => s.ntRmw i v
  case ntWindowRead =>
    intro dt who idx w s₀ s hs h
    exact readCmd_takes h s₀ dt hs fun s => s.ntWindowRead who idx w
  case ntInitDone | updatePortApply | scrubVisit =>
    intros
    rename_i hs hheld hguard
    dsimp only [exec]
    exact evCmd_happens _ _ hs hheld hguard _

/-- Settles O59: register writes, one register read, and events whose guards are the conditions. -/
theorem hostNetworkAndTwinCommandsComplete : Obligations.HostNetworkAndTwinCommandsComplete := by
  refine ⟨?msixVectorUnmask, ?busMasterEnableSet, ?pcieLinkUp, ?pcieLinkDown, ?bar2Read, ?bar2Write, ?gpioEdge, ?gpioOutSet,
    ?gpioOutClr, ?i2cGo, ?i2cTransferEnd, ?i2cStretchTimeout, ?ethLinkChange, ?ethFrameReceive, ?txProdWrite, ?frameTransmit,
    ?tsqTake, ?ptpStep, ?ptpRateWrite, ?syncLossTimeout, ?holdoverClear, ?mapPair, ?mapSnap, ?twnEnable, ?twnDisable, ?pairingEnd,
    ?heartbeatSend, ?heartbeatReceive, ?heartbeatPathLost, ?partnerLost, ?castlingClaimsDone, ?signatureSend, ?signatureReceive,
    ?signatureWaitTimeout, ?ntUpdateReceive, ?ringDataReceive, ?defectMessageReceive, ?castle, ?castleMessageReceive,
    ?castleAckTimeout⟩
  case msixVectorUnmask | gpioOutSet | gpioOutClr | i2cGo | txProdWrite | ptpRateWrite | holdoverClear | mapSnap | twnEnable
      | twnDisable | castle =>
    intros
    rename_i hs h
    dsimp only [exec]
    exact regCmd_takes h _ _ hs _
  case ptpStep =>
    intro dt who hi s₀ s hs h
    exact highCmd_takes h s₀ dt hs hi fun v s => s.ptpStep v
  case tsqTake =>
    intro dt who s₀ s hs h
    exact readCmd_takes h s₀ dt hs fun s => s.tsqTake who
  case bar2Read | bar2Write =>
    intros
    rename_i hs hheld
    dsimp only [exec]
    exact evCmd_happens _ _ hs hheld rfl _
  case busMasterEnableSet | pcieLinkDown | gpioEdge | i2cTransferEnd | i2cStretchTimeout | ethFrameReceive | frameTransmit
      | syncLossTimeout | mapPair | heartbeatSend | heartbeatReceive | heartbeatPathLost | partnerLost | signatureSend
      | signatureReceive | signatureWaitTimeout | castleMessageReceive | castleAckTimeout =>
    intros
    rename_i hs hheld hguard
    dsimp only [exec]
    exact evCmd_happens _ _ hs hheld hguard _
  case pcieLinkUp | ethLinkChange | pairingEnd | castlingClaimsDone | ntUpdateReceive | ringDataReceive | defectMessageReceive =>
    intros
    rename_i hs hheld hguard
    dsimp only [exec]
    exact evCmd_happens _ _ hs hheld (by simpa using hguard) _

end Sys2Proof.Machine
end

section
/-! PROOFS. Host interrupts (01 R33, 17 R454, R458): what a host interrupt task does in each condition of its function and vector,
and what the statement about them asks of the free values. -/

namespace Sys2Proof.Machine

/-! ### Single bits -/

theorem bit_eq_testBit (n i : Nat) : bit n i = n.testBit i := by
  rw [Nat.testBit_eq_decide_div_mod_eq]; rfl

theorem bit_mod_two_pow (n : Nat) {w i : Nat} (hi : i < w) : bit (n % 2 ^ w) i = bit n i := by
  simp [bit_eq_testBit, Nat.testBit_mod_two_pow, hi]

theorem bit_or_two_pow_same (n i : Nat) : bit (n ||| 2 ^ i) i = true := by
  simp [bit_eq_testBit]

theorem bit_or_two_pow_other (n : Nat) {i j : Nat} (h : j ≠ i) : bit (n ||| 2 ^ i) j = bit n j := by
  simp [bit_eq_testBit, Ne.symm h]

/-- Taking away a bit that is set clears it. -/
theorem bit_sub_two_pow_same {n i : Nat} (h : bit n i = true) : bit (n - 2 ^ i) i = false := by
  have hset : n / 2 ^ i % 2 = 1 := by simpa [bit] using h
  have hdiv : (n - 2 ^ i) / 2 ^ i = n / 2 ^ i - 1 := by simpa using Nat.sub_mul_div n (2 ^ i) 1
  simp [bit, hdiv]
  omega

/-! ### The task and its function -/

/-- The host interrupt tasks are the last 192 (R347). -/
theorem consumerOf_host (f : Fin 6) (v : Fin 32) : consumerOf (1856 + 32 * f + v) = .host f v := by
  have hf : (1856 + 32 * f.val + v.val - 1856) / 32 = f.val := by omega
  have hv : (1856 + 32 * f.val + v.val - 1856) % 32 = v.val := by omega
  unfold consumerOf
  rw [hf, hv, if_neg (by omega), if_neg (by omega), if_neg (by omega), if_neg (by omega), if_neg (by omega), if_neg (by omega),
    if_neg (by omega), if_pos (by omega)]

@[simp] theorem State.taskTrigger_host (s : State) (f : Fin 6) (v : Fin 32) :
    s.taskTrigger (1856 + 32 * f + v) = s.msixFire f v := by
  simp [State.taskTrigger, consumerOf_host]

/-! ### Pending bits -/

theorem State.get_setPending (s : State) (f v : Nat) :
    (s.setPending f v).get (F.MSIX_PBA f) = (s.get (F.MSIX_PBA f) ||| 2 ^ v) % 2 ^ 32 :=
  State.get_put_same _ _ _ (by simp [F.MSIX_PBA]) (by simp [F.MSIX_PBA])

theorem State.bit_setPending_same (s : State) (f : Nat) (v : Fin 32) :
    bit ((s.setPending f v).get (F.MSIX_PBA f)) v = true := by
  rw [s.get_setPending, bit_mod_two_pow _ v.isLt, bit_or_two_pow_same]

theorem State.bit_setPending_other (s : State) (f : Nat) {v v' : Fin 32} (h : v' ≠ v) :
    bit ((s.setPending f v).get (F.MSIX_PBA f)) v' = bit (s.get (F.MSIX_PBA f)) v' := by
  rw [s.get_setPending, bit_mod_two_pow _ v'.isLt, bit_or_two_pow_other _ (by omega)]

@[simp] theorem State.setPending_out (s : State) (f v : Nat) : (s.setPending f v).out = s.out := State.put_out _ _ _

/-! ### The three answers of a task, and the unmask -/

/-- A function in its Function Level Reset discards its interrupts and counts them (R458). -/
theorem State.msixFire_of_inFlr {s : State} {f : Nat} (h : s.inFlr f = true) (v : Nat) :
    s.msixFire f v = s.bump (F.HIF_PF_DISC_INT f) := by
  simp [State.msixFire, h]

/-- A vector that may be issued has its write on the way (R33). -/
theorem State.msixFire_of_open {s : State} {f v : Nat} (h : s.inFlr f = false) (hopen : s.msixOpen f v = true) :
    s.msixFire f v = s.msixIssueSoon f v := by
  simp [State.msixFire, h, hopen]

/-- A vector that may not be issued is held pending (R454). -/
theorem State.msixFire_of_shut {s : State} {f v : Nat} (h : s.inFlr f = false) (hshut : s.msixOpen f v = false) :
    s.msixFire f v = s.setPending f v := by
  simp [State.msixFire, h, hshut]

theorem State.msixOpen_eq_true {s : State} {f v : Nat} :
    s.msixOpen f v = true ↔ s.on (F.MSIX_CTRL f v) = false ∧ s.bmeOf f = true := by
  simp [State.msixOpen]

theorem State.msixOpen_eq_false {s : State} {f v : Nat} :
    s.msixOpen f v = false ↔ s.on (F.MSIX_CTRL f v) = true ∨ s.bmeOf f = false := by
  simp only [State.msixOpen, Bool.and_eq_false_iff, Bool.not_eq_false']

/-- A held interrupt whose vector may be issued goes out. -/
theorem State.msixFlush_of_open {s : State} {f v : Nat} (hpending : s.msixPending f v = true) (hopen : s.msixOpen f v = true) :
    s.msixFlush f v = (s.put (F.MSIX_PBA f) (s.get (F.MSIX_PBA f) - 2 ^ v)).msixIssue f v := by
  simp [State.msixFlush, hpending, hopen]

theorem State.get_pba_unmask (s : State) (f : Nat) (v : Fin 32) :
    (s.put (F.MSIX_CTRL f v) 0).get (F.MSIX_PBA f) = s.get (F.MSIX_PBA f) := by
  refine State.get_put_other _ _ _ _ ?_ (by simp [F.MSIX_PBA])
  simp [Fld.covers, F.MSIX_CTRL, F.MSIX_PBA]
  omega

theorem State.get_ctrl_put_pba (s : State) (f : Nat) (v : Fin 32) (x : Nat) :
    (s.put (F.MSIX_PBA f) x).get (F.MSIX_CTRL f v) = s.get (F.MSIX_CTRL f v) := by
  refine State.get_put_other _ _ _ _ ?_ (by simp [F.MSIX_CTRL])
  simp [Fld.covers, F.MSIX_CTRL, F.MSIX_PBA]
  omega

/-- The unmask of a vector whose interrupt is held sends it out, no longer pending (R454). -/
theorem State.unmask_sends_held {s : State} {f : Nat} {v : Fin 32} (hpending : bit (s.get (F.MSIX_PBA f)) v = true)
    (hbme : s.bmeOf f = true) :
    let t := (s.put (F.MSIX_CTRL f v) 0).msixFlush f v
    t.out.length = s.out.length + 1 ∧ bit (t.get (F.MSIX_PBA f)) v = false ∧ t.on (F.MSIX_CTRL f v) = false := by
  have hctrl : (s.put (F.MSIX_CTRL f v) 0).get (F.MSIX_CTRL f v) = 0 :=
    State.get_put_same _ _ _ (by simp [F.MSIX_CTRL]) (by simp [F.MSIX_CTRL])
  have hopen : (s.put (F.MSIX_CTRL f v) 0).msixOpen f v = true :=
    State.msixOpen_eq_true.2 ⟨by simp [State.on, hctrl], by simpa [State.bmeOf] using hbme⟩
  have hheld : (s.put (F.MSIX_CTRL f v) 0).msixPending f v = true := by
    rw [State.msixPending, s.get_pba_unmask, hpending]
  dsimp only
  rw [State.msixFlush_of_open hheld hopen, s.get_pba_unmask]
  refine ⟨by simp [State.msixIssue, State.emit], ?_, ?_⟩
  · have hget := State.get_put_same (s.put (F.MSIX_CTRL f v) 0) (F.MSIX_PBA f) (s.get (F.MSIX_PBA f) - 2 ^ v.val)
      (by simp [F.MSIX_PBA]) (by simp [F.MSIX_PBA])
    refine Eq.trans (congrArg (bit · v) hget) ?_
    rw [show (F.MSIX_PBA f).hi - (F.MSIX_PBA f).lo + 1 = 32 from rfl, bit_mod_two_pow _ v.isLt, bit_sub_two_pow_same hpending]
  · have hget := (s.put (F.MSIX_CTRL f v) 0).get_ctrl_put_pba f v (s.get (F.MSIX_PBA f) - 2 ^ v.val)
    refine Eq.trans (congrArg (· == 1) (hget.trans hctrl)) rfl

/-! ### The write on its way -/

theorem State.pass_now {s : State} {dt : Nat} (h : s.now + dt < 2 ^ 64) : (s.pass dt).now = s.now + dt := by
  have hdt : dt % 2 ^ 64 = dt := Nat.mod_eq_of_lt (by omega)
  simp only [State.now, State.pass, BitVec.toNat_add, BitVec.toNat_ofNat, hdt]
  exact Nat.mod_eq_of_lt h

/-- What goes out as Tempo passes: the writes that are due, as their table entries stand. -/
theorem State.pass_out (s : State) (dt : Nat) : (s.pass dt).out
    = s.out ++ (s.hif.msix.filter fun m => decide (m.due ≤ (s.pass dt).now)).map fun m => s.msixWrite m.f m.v := rfl

theorem State.pass_msix (s : State) (dt : Nat) :
    (s.pass dt).hif.msix = s.hif.msix.filter fun m => decide ((s.pass dt).now < m.due) := rfl

/-- The one write on its way goes out when it is due. -/
theorem State.pass_issues_due {s : State} {m : MsixWrite} (hmsix : s.hif.msix = [m]) {dt : Nat} (hdue : m.due ≤ (s.pass dt).now) :
    (s.pass dt).out = s.out ++ [s.msixWrite m.f m.v] ∧ (s.pass dt).hif.msix = [] := by
  rw [s.pass_out, s.pass_msix, hmsix]
  simp [hdue]

/-- The one write on its way stays while it is not due. -/
theorem State.pass_keeps_early {s : State} {m : MsixWrite} (hmsix : s.hif.msix = [m]) {dt : Nat} (hearly : (s.pass dt).now < m.due) :
    (s.pass dt).out = s.out ∧ (s.pass dt).hif.msix = [m] := by
  rw [s.pass_out, s.pass_msix, hmsix]
  simp [hearly]

theorem State.pass_quiet {s : State} (hmsix : s.hif.msix = []) (dt : Nat) :
    (s.pass dt).out = s.out ∧ (s.pass dt).hif.msix = [] := by
  rw [s.pass_out, s.pass_msix, hmsix]
  simp

/-- `t` has sent out what `s` has, and the HIF stands as in `s`. -/
def State.SameOut (s t : State) : Prop := t.out = s.out ∧ t.hif = s.hif

theorem State.SameOut.trans {a b c : State} (h : a.SameOut b) (k : b.SameOut c) : a.SameOut c :=
  ⟨k.1.trans h.1, k.2.trans h.2⟩

theorem State.Logged.sameOut {s t : State} (h : s.Logged t) : s.SameOut t := by
  obtain ⟨p, r, l, n, q, rfl⟩ := h
  exact ⟨rfl, rfl⟩

theorem State.Raised.sameOut {s t : State} (h : s.Raised t) : s.SameOut t := h.logged.sameOut

theorem State.SameOut.setDec (s : State) (n : Nat) (d : Decoder) : s.SameOut (s.setDec n d) := ⟨rfl, rfl⟩

theorem State.SameOut.overRate (s : State) (n : Nat) : s.SameOut (s.overRate n) := by
  have herror : s.SameOut (s.decError n (F.WTU_ENC_STAT_OVER_RATE n) 0x03 0x020) :=
    (State.Raised.put _ _ _).sameOut.trans ((State.Logged.logErr _ _ _ _ _).sameOut.trans (State.Raised.raise _ _).sameOut)
  unfold State.overRate
  dsimp only
  split
  · exact (herror.trans (.setDec _ _ _)).trans (State.Raised.setMotion _ _ _).sameOut
  · exact herror.trans (.setDec _ _ _)

/-- The rejection of an encoder pulse sends nothing out and leaves the HIF alone. -/
theorem State.SameOut.rejectPulse (s : State) (n : Nat) (i : EncInput) : s.SameOut (s.rejectPulse n i) := by
  have hcount : ∀ t : State, t.SameOut (t.bump (F.WTU_ENC_GLITCH_COUNT n)) := fun t => (State.Raised.bump _ _ _).sameOut
  unfold State.rejectPulse State.reject
  dsimp only
  split
  · exact (State.SameOut.setDec _ _ _).trans (hcount _)
  · split
    · exact ((State.SameOut.setDec _ _ _).trans (hcount _)).trans (.overRate _ _)
    · exact (State.SameOut.setDec _ _ _).trans (hcount _)

/-- With no write on its way the passing of Tempo sends nothing out. -/
theorem State.passTo_quiet (fuel : Nat) {s : State} (hmsix : s.hif.msix = []) (target : Nat) :
    (s.passTo fuel target).out = s.out := by
  induction fuel generalizing s with
  | zero => exact (State.pass_quiet hmsix _).1
  | succ fuel ih =>
    unfold State.passTo
    split
    next t n i _ =>
      split
      · obtain ⟨hout, hmsix'⟩ := State.pass_quiet hmsix (t - s.now)
        obtain ⟨hout', hhif'⟩ := State.SameOut.rejectPulse (s.pass (t - s.now)) n i
        rw [ih (by rw [hhif', hmsix']), hout', hout]
      · exact (State.pass_quiet hmsix _).1
    next => exact (State.pass_quiet hmsix _).1

/-- A write that is due already goes out before anything else happens. -/
theorem State.wait_issues_due {s : State} {m : MsixWrite} (hmsix : s.hif.msix = [m]) (hdue : m.due ≤ s.now) {dt : Nat}
    (hdt : s.now + dt < 2 ^ 64) : (s.wait dt).out = s.out ++ [s.msixWrite m.f m.v] := by
  have hpass : ∀ d, s.now + d < 2 ^ 64 → (s.pass d).out = s.out ++ [s.msixWrite m.f m.v] ∧ (s.pass d).hif.msix = [] := by
    intro d hd
    exact State.pass_issues_due hmsix (by rw [State.pass_now hd]; omega)
  unfold State.wait
  split
  · exact (hpass dt hdt).1
  · unfold State.passTo
    split
    next t n i _ =>
      split
      · obtain ⟨hout, hmsix'⟩ := hpass (t - s.now) (by omega)
        obtain ⟨hout', hhif'⟩ := State.SameOut.rejectPulse (s.pass (t - s.now)) n i
        rw [State.passTo_quiet _ (by rw [hhif', hmsix']), hout', hout]
      · exact (hpass _ (by omega)).1
    next => exact (hpass _ (by omega)).1

/-! ### What the statement about host interrupts asks of the free values -/

/-- A decoder table that lists a decoder the device does not have: its glitch counter would lie at the low address word of vector 2 of
PF0, and a pulse on its line A has just ended. -/
def strayDecoder (k : Nat) : State :=
  { State.reset with
    tempo := 8, draws := k, hif := { bme := 1 }, regs := [(O.MSIX_CTRL 0 2, 0)],
    wtu := { dec := [(0x4CFF8, { a := { smp := true } })] } }

/-- `strayDecoder` with the interrupt of vector 2 on its way. -/
def strayFired (k : Nat) : State := (strayDecoder k).msixIssueSoon 0 2

/-- Once the pulse is rejected, its count has raised the vector's address. -/
def strayCounted (k : Nat) : State := ((strayFired k).pass 0).rejectPulse 0x4CFF8 .a

theorem strayFired_pulses (k : Nat) : (strayFired k).pulses = [(8, 0x4CFF8, .a)] := rfl

theorem strayCounted_eq (k : Nat) :
    strayCounted k = (((strayFired k).pass 0).setDec 0x4CFF8 { a := { runCycle := 1, rejects := 1 } }).bump (F.MSIX_ADDR_LO 0 2) := by
  have hnow : ((strayFired k).pass 0).now = 8 := rfl
  have hdec : ((strayFired k).pass 0).dec 0x4CFF8 = { a := { smp := true } } := rfl
  have hseen : EncLine.seen { smp := true } 8 = { runCycle := 1 } := by decide
  unfold strayCounted State.rejectPulse State.reject
  rw [hnow, hdec]
  dsimp only [Decoder.line]
  rw [hseen]
  rfl

theorem strayCounted_pulses (k : Nat) : (strayCounted k).pulses = [] := by
  have hdec : (strayCounted k).wtu.dec = [(0x4CFF8, { a := { runCycle := 1, rejects := 1 } })] := by
    rw [strayCounted_eq, State.bump_wtu]
    have hset : Sparse.set (fun _ => {}) [(0x4CFF8, ({ a := { smp := true } } : Decoder))] 0x4CFF8
        { a := { runCycle := 1, rejects := 1 } } = [(0x4CFF8, { a := { runCycle := 1, rejects := 1 } })] := by decide
    exact hset
  rw [State.pulses, hdec]
  decide

/-- Tempo stops at the end of a pulse, and goes on to its target where no other is left. -/
theorem State.passTo_one_pulse {s : State} {t n : Nat} {i : EncInput} (hpulses : s.pulses = [(t, n, i)]) {target : Nat} (ht : t ≤ target)
    (hnone : ((s.pass (t - s.now)).rejectPulse n i).pulses = []) (fuel : Nat) :
    s.passTo (fuel + 2) target = ((s.pass (t - s.now)).rejectPulse n i).pass (target - ((s.pass (t - s.now)).rejectPulse n i).now) := by
  simp [State.passTo, hpulses, sortBy, insertBy, ht, hnone]

/-- A write that is not due when the pulse ends goes out with the address counted up. -/
theorem strayFired_wait_out {k : Nat} (hlate : (Config.freeValue k).toNat % 161 ≠ 0) :
    ((strayFired k).wait 160).out = [(strayCounted k).msixWrite 0 2] := by
  have hmsix : (strayFired k).hif.msix = [⟨0, 2, 8 / 8 * 8 + (Config.freeValue k).toNat % 161⟩] := rfl
  have hfired : (strayFired k).now = 8 := rfl
  have hnow : ((strayFired k).pass 0).now = 8 := rfl
  obtain ⟨hout, hmsix'⟩ := State.pass_keeps_early hmsix (dt := 0) (by rw [hnow]; show 8 < 8 + _; omega)
  obtain ⟨hout', hhif'⟩ := State.SameOut.rejectPulse ((strayFired k).pass 0) 0x4CFF8 .a
  have hwait : (strayFired k).wait 160 = (strayCounted k).pass (168 - (strayCounted k).now) := by
    rw [State.wait, strayFired_pulses, if_neg (by simp)]
    exact State.passTo_one_pulse (strayFired_pulses k) (by rw [hfired]; decide) (strayCounted_pulses k) 10
  have hcounted : (strayCounted k).now = 8 := by
    rw [strayCounted_eq, State.now, State.bump_tempo]; rfl
  have hdue := (State.pass_now (s := strayCounted k) (dt := 160) (by rw [hcounted]; decide)).trans (by rw [hcounted])
  have hissue := (State.pass_issues_due (s := strayCounted k) (dt := 160) (by rw [strayCounted, hhif', hmsix'])
    (by rw [hdue]; show 8 + _ ≤ 168; omega)).1
  rw [hwait, hcounted, hissue, strayCounted, hout', hout]
  rfl

/-- The statement about host interrupts fails of `strayDecoder` if the free value drawn delays the write at all. -/
theorem not_hostInterruptsAreHeldWhileMasked_of_delay {k : Nat} (hlate : (Config.freeValue k).toNat % 161 ≠ 0) :
    ¬ Obligations.HostInterruptsAreHeldWhileMasked := by
  intro h
  obtain ⟨-, hopen, -, -⟩ := h (strayDecoder k) 0 2
  have hnow : (strayDecoder k).now = 8 := rfl
  have hflr : (strayDecoder k).inFlr 0 = false := by simp [strayDecoder, State.inFlr]
  have hbme : (strayDecoder k).bmeOf 0 = true := by simp [strayDecoder, State.bmeOf]
  have hctrl : (strayDecoder k).on (F.MSIX_CTRL 0 2) = false := by
    simp [strayDecoder, State.on, State.get, State.raw, State.word, Sparse.get, F.MSIX_CTRL, O.MSIX_CTRL, bits]
  obtain ⟨-, -, hout⟩ := hopen hflr hctrl hbme rfl 160 (by decide) (by rw [hnow]; decide)
  have hfire := ((strayDecoder k).taskTrigger_host 0 2).trans (State.msixFire_of_open hflr (State.msixOpen_eq_true.2 ⟨hctrl, hbme⟩))
  rw [hfire] at hout
  have haddr : (strayCounted k).get (F.MSIX_ADDR_LO 0 2) = ((strayDecoder k).get (F.MSIX_ADDR_LO 0 2) + 1) % 2 ^ 32 := by
    rw [strayCounted_eq]
    exact State.get_put_same _ _ _ (by decide) (by decide)
  have hout' : [(strayCounted k).msixWrite 0 2] = [(strayDecoder k).msixWrite 0 2] := (strayFired_wait_out hlate).symm.trans hout
  have hsame := (List.cons.inj hout').1
  simp only [State.msixWrite, Out.hostWrite.injEq] at hsame
  obtain ⟨-, -, hsum, -⟩ := hsame
  have hlt : (strayDecoder k).get (F.MSIX_ADDR_LO 0 2) < 2 ^ 32 := Nat.mod_lt _ (by decide)
  rw [haddr] at hsum
  omega

/-- A vector's write that no free value delays goes out as Tempo next passes. -/
theorem State.msixIssueSoon_wait_out {s : State} (hnone : s.hif.msix = []) (hprompt : (Config.freeValue s.draws).toNat % 161 = 0)
    (f v : Nat) {dt : Nat} (hdt : s.now + dt < 2 ^ 64) : ((s.msixIssueSoon f v).wait dt).out = s.out ++ [s.msixWrite f v] := by
  have hmsix : (s.msixIssueSoon f v).hif.msix = [⟨f, v, s.now / 8 * 8 + (Config.freeValue s.draws).toNat % 161⟩] := by
    simp [State.msixIssueSoon, hnone, State.draw, State.now]
  refine State.wait_issues_due hmsix ?_ hdt
  show s.now / 8 * 8 + (Config.freeValue s.draws).toNat % 161 ≤ s.now
  omega

/-- With no encoder pulse running a vector's write goes out within 160 Tempo units, whatever the free value drawn. -/
theorem State.msixIssueSoon_wait_out_of_noPulses {s : State} (hnone : s.hif.msix = []) (hpulses : s.pulses = []) (f v : Nat) {dt : Nat}
    (hlong : 160 ≤ dt) (hdt : s.now + dt < 2 ^ 64) : ((s.msixIssueSoon f v).wait dt).out = s.out ++ [s.msixWrite f v] := by
  have hmsix : (s.msixIssueSoon f v).hif.msix = [⟨f, v, s.now / 8 * 8 + (Config.freeValue s.draws).toNat % 161⟩] := by
    simp [State.msixIssueSoon, hnone, State.draw, State.now]
  have hwait : (s.msixIssueSoon f v).wait dt = (s.msixIssueSoon f v).pass dt := if_pos hpulses
  have hnow : ((s.msixIssueSoon f v).pass dt).now = s.now + dt := State.pass_now hdt
  rw [hwait]
  refine (State.pass_issues_due hmsix ?_).1
  rw [hnow]
  show s.now / 8 * 8 + (Config.freeValue s.draws).toNat % 161 ≤ s.now + dt
  omega

/-- O36 is neither proved nor refuted here: it holds exactly if no free value delays an MSI-X write. Its clause about a delayed write
ranges over every decoder table, and in the state `strayDecoder` a pulse that is rejected meanwhile changes the vector's address. The
free values are opaque (assumption 3), so that neither side can be shown. Where no pulse runs the clause holds
(`State.msixIssueSoon_wait_out_of_noPulses`). -/
theorem hostInterruptsAreHeldWhileMasked_iff_prompt :
    Obligations.HostInterruptsAreHeldWhileMasked ↔ ∀ k, (Config.freeValue k).toNat % 161 = 0 := by
  refine ⟨fun h k => Classical.byContradiction fun hlate => not_hostInterruptsAreHeldWhileMasked_of_delay hlate h, fun hprompt s f v => ?_⟩
  rw [State.taskTrigger_host]
  refine ⟨fun hflr => State.msixFire_of_inFlr hflr v, ?issued, ?held, ?unmasked⟩
  case issued =>
    intro hflr hctrl hbme hnone dt _ hdt
    rw [State.msixFire_of_open hflr (State.msixOpen_eq_true.2 ⟨hctrl, hbme⟩)]
    exact ⟨rfl, by simp [State.msixGoing, State.msixIssueSoon], State.msixIssueSoon_wait_out hnone (hprompt _) f v hdt⟩
  case held =>
    intro hflr hshut
    rw [State.msixFire_of_shut hflr (State.msixOpen_eq_false.2 hshut)]
    exact ⟨s.bit_setPending_same f v, s.setPending_out f v, fun v' hv' => s.bit_setPending_other f hv'⟩
  case unmasked =>
    intro hpending hbme dt who s₀ hs h
    exact ⟨_, hostNetworkAndTwinCommandsComplete.1 dt who f v s₀ s hs h, State.unmask_sends_held hpending hbme⟩

end Sys2Proof.Machine
end

section
/-! PROOFS. Web timing (02): its commands complete under their conditions, and what a load of the Web Coordinate does (R47, R50). -/

namespace Sys2Proof.Machine

/-! ### Commands -/

/-- An event of the device whose rule's condition does not hold only lets time pass. -/
theorem evCmd_idles {s : State} {guard : State → Bool} (s₀ : State) (dt : Nat) (hs : s = s₀.wait dt) (hguard : guard s = false)
    (effect : State → State) : evCmd dt guard effect s₀ = .next s := by
  subst hs
  simp [evCmd, hguard]

/-- A trigger by an event task has its effect where no reset holds the device. -/
theorem trigCmd_task {s : State} (s₀ : State) (dt : Nat) (hs : s = s₀.wait dt) (hheld : s.held = false) (off : Nat)
    (effect : State → State) : trigCmd dt .task off effect s₀ = .next (effect s) := by
  subst hs
  have hheld₀ : s₀.held = false := by simpa [State.held] using hheld
  simp [trigCmd, hheld₀]

/-- Settles O41: register writes, triggers by a write or a task, and events whose guards are the conditions; a launch and a commit act on
the line whose time the condition names. -/
theorem webTimingCommandsComplete : Obligations.WebTimingCommandsComplete := by
  refine ⟨?encoderInputEdge, ?encoderTransitionAccepted, ?standstillTimeout, ?stuckLine, ?levelTimeout, ?wcoLoad, ?wcoSourceWrite,
    ?snapshotCapture, ?snapshotTask, ?ssiRequest, ?ssiTask, ?ssiTransferDone, ?lineLaunch, ?lineCommit, ?generatorEnable,
    ?generatorDisable, ?generatorRestart, ?slotArm, ?slotFire⟩
  case encoderInputEdge =>
    intro dt n line s₀ s hs hheld
    exact evCmd_happens (guard := fun _ => true) s₀ dt hs hheld rfl fun s => (s.acceptAll 3 n).inputEdge n line
  case stuckLine | levelTimeout =>
    intros
    rename_i hs hheld hguard
    dsimp only [exec, execStuckLine, execLevelTimeout]
    exact evCmd_happens _ _ hs hheld hguard _
  case encoderTransitionAccepted | standstillTimeout | ssiTransferDone | slotFire =>
    intros
    rename_i hs hheld hguard
    dsimp only [exec]
    exact evCmd_happens _ _ hs hheld hguard _
  case wcoLoad | wcoSourceWrite | generatorEnable | generatorDisable | generatorRestart | slotArm =>
    intros
    rename_i hs h
    dsimp only [exec]
    exact regCmd_takes h _ _ hs _
  case snapshotCapture =>
    intro dt who k s₀ s hs h
    exact regCmd_takes h s₀ dt hs fun s => s.capture k
  case ssiRequest =>
    intro dt who m s₀ s hs h
    exact regCmd_takes h s₀ dt hs fun s => s.ssiRequest m
  case snapshotTask | ssiTask =>
    intros
    rename_i hs hheld
    dsimp only [exec]
    exact trigCmd_task _ _ hs hheld _ _
  case lineLaunch =>
    intro dt g s₀ s due hs hheld hdue htempo
    dsimp only [exec, execLineLaunch]
    rw [evCmd_happens (guard := fun s => s.launchDue g) s₀ dt hs hheld hdue]
    simp only [htempo]
  case lineCommit =>
    intro dt g s₀ s k due hs hheld hdue hk htempo
    dsimp only [exec, execLineCommit]
    rw [evCmd_happens (guard := fun s => s.commitDue g) s₀ dt hs hheld hdue]
    simp only [hk, htempo]

/-! ### What a load of WCO changes -/

/-- `t` differs from `s` in registers and the WTU alone. -/
def State.WtuMoved (s t : State) : Prop := ∃ r w, t = { s with regs := r, wtu := w }

theorem State.WtuMoved.trans {a b c : State} (h : a.WtuMoved b) (k : b.WtuMoved c) : a.WtuMoved c := by
  obtain ⟨r, w, rfl⟩ := h
  obtain ⟨r', w', rfl⟩ := k
  exact ⟨r', w', rfl⟩

theorem State.WtuMoved.put (s : State) (f : Fld) (v : Nat) : s.WtuMoved (s.put f v) := by
  refine ⟨(s.put f v).regs, s.wtu, ?_⟩
  unfold State.put
  split <;> rfl

theorem State.WtuMoved.setWtu (s : State) (w : Wtu) : s.WtuMoved { s with wtu := w } := ⟨s.regs, w, rfl⟩

/-- `t` differs from `s` in the line generators and in registers from theirs on: the WTU's own registers stay. -/
def State.GensMoved (s t : State) : Prop :=
  (∃ r g, t = { s with regs := r, wtu := { s.wtu with gen := g } }) ∧ ∀ j < 0x00101000, t.word j = s.word j

theorem State.GensMoved.rfl' (s : State) : s.GensMoved s := ⟨⟨s.regs, s.wtu.gen, rfl⟩, fun _ _ => rfl⟩

theorem State.GensMoved.trans {a b c : State} (h : a.GensMoved b) (k : b.GensMoved c) : a.GensMoved c := by
  obtain ⟨⟨r, g, rfl⟩, hword⟩ := h
  obtain ⟨⟨r', g', rfl⟩, hword'⟩ := k
  exact ⟨⟨r', g', rfl⟩, fun j hj => (hword' j hj).trans (hword j hj)⟩

theorem State.GensMoved.foldl {α : Type} {f : State → α → State} (h : ∀ s a, State.GensMoved s (f s a)) (l : List α) (s : State) :
    s.GensMoved (l.foldl f s) := by
  induction l generalizing s with
  | nil => exact .rfl' s
  | cons a l ih => exact (h s a).trans (ih _)

theorem State.GensMoved.wtuMoved {s t : State} (h : s.GensMoved t) : s.WtuMoved t := by
  obtain ⟨⟨r, g, rfl⟩, -⟩ := h
  exact ⟨r, _, rfl⟩

theorem State.GensMoved.acc {s t : State} (h : s.GensMoved t) : t.wtu.acc = s.wtu.acc := by
  obtain ⟨⟨r, g, rfl⟩, -⟩ := h
  rfl

theorem State.GensMoved.now {s t : State} (h : s.GensMoved t) : t.now = s.now := by
  obtain ⟨⟨r, g, rfl⟩, -⟩ := h
  rfl

theorem State.GensMoved.putGen (s : State) (g : Nat) (l : LineGen) : s.GensMoved (s.putGen g l) := by
  unfold State.putGen
  refine ⟨⟨((s.setGen g l).put (F.WTU_LG_CTRL_OUTSTANDING g) l.launched.length).regs, _, rfl⟩, fun j hj => ?_⟩
  refine (State.word_put_other _ _ _ _ ?_).trans rfl
  simp [Fld.covers, F.WTU_LG_CTRL_OUTSTANDING]
  omega

theorem State.GensMoved.noteMissed (s : State) (g : Nat) : s.GensMoved (s.noteMissed g) := .putGen s g _

/-- A field reads the same where its words do. -/
theorem State.get_of_words {s t : State} {f : Fld} (h : t.word f.off = s.word f.off) (h4 : t.word (f.off + 4) = s.word (f.off + 4)) :
    t.get f = s.get f := by
  simp [State.get, State.raw, h, h4]

theorem State.GensMoved.get {s t : State} (h : s.GensMoved t) {f : Fld} (hf : f.off + 4 < 0x00101000) : t.get f = s.get f :=
  State.get_of_words (h.2 _ (by omega)) (h.2 _ hf)

/-- The generators' lines move after the accumulator and the latch pair are set (R47). -/
theorem State.wcoSet_gensMoved (s : State) (v : Nat) : ∃ u, s.GensMoved u ∧
    ({ u with wtu := { u.wtu with acc := BitVec.ofNat 80 (2 ^ 16 * v) } }.setPair (2 ^ 16 * v : Nat) u.now 0 (2 ^ 16 * v : Nat)).GensMoved
      (s.wcoSet v) :=
  ⟨_, .foldl .noteMissed _ s, .foldl (fun _ _ => .putGen _ _ _) _ _⟩

/-- A latch pair set shows the integer part of its position (R50). -/
theorem State.setPair_get_latchWco (s : State) {w : Nat} (hw : w < 2 ^ 80) (t : Nat) (v base : Int) :
    (s.setPair w t v base).get F.WTU_LATCH_WCO = w / 2 ^ 16 := by
  unfold State.setPair
  rw [State.get_put_other _ _ _ _ (by decide) (by decide), State.get_put_same_wide _ _ _ (by decide) (by decide) (by decide)]
  simp [F.WTU_LATCH_WCO]
  omega

/-- Tempo has 64 bits (R35). -/
theorem State.now_lt (s : State) : s.now < 2 ^ 64 := s.tempo.isLt

/-- A latch pair set shows its stamp. -/
theorem State.setPair_get_latchTempo (s : State) (w : Int) {t : Nat} (ht : t < 2 ^ 64) (v base : Int) :
    (s.setPair w t v base).get F.WTU_LATCH_TEMPO = t :=
  (State.get_put_same_wide _ _ _ (by decide) (by decide) (by decide)).trans (Nat.mod_eq_of_lt ht)

/-- A latch pair is no part of the accumulator. -/
theorem State.setPair_acc (s : State) (w : Int) (t : Nat) (v base : Int) : (s.setPair w t v base).wtu.acc = s.wtu.acc := by
  simp [State.setPair, State.settleClamp]

theorem State.WtuMoved.settleClamp (s : State) : s.WtuMoved s.settleClamp :=
  (State.WtuMoved.put s F.WTU_CLAMP_COUNT _).trans (.setWtu _ _)

theorem State.WtuMoved.setPair (s : State) (w : Int) (t : Nat) (v base : Int) : s.WtuMoved (s.setPair w t v base) :=
  (State.WtuMoved.settleClamp s).trans <| (State.WtuMoved.setWtu s.settleClamp _).trans <|
    (State.WtuMoved.put _ F.WTU_LATCH_WCO _).trans (.put _ F.WTU_LATCH_TEMPO t)

/-- A value given to WCO: the accumulator takes it, the latch pair shows it, and registers and the WTU alone change (R47, R50). -/
theorem State.wcoSet_spec (s : State) {v : Nat} (hv : v < 2 ^ 64) :
    (s.wcoSet v).wtu.acc = BitVec.ofNat 80 (2 ^ 16 * v) ∧ (s.wcoSet v).get F.WTU_LATCH_WCO = v
      ∧ (s.wcoSet v).get F.WTU_LATCH_TEMPO = s.now ∧ s.WtuMoved (s.wcoSet v) := by
  obtain ⟨u, hbefore, hafter⟩ := s.wcoSet_gensMoved v
  refine ⟨hafter.acc.trans (State.setPair_acc _ _ _ _ _), ?wco, ?tempo, ?frame⟩
  case wco =>
    rw [hafter.get (by decide), State.setPair_get_latchWco _ (by omega)]
    omega
  case tempo => rw [hafter.get (by decide), State.setPair_get_latchTempo _ _ u.now_lt, hbefore.now]
  case frame => exact ((hbefore.wtuMoved.trans (.setWtu _ _)).trans (.setPair _ _ _ _ _)).trans hafter.wtuMoved

theorem State.wcoLoad_of_still {s : State} (h : s.motion s.src = stStill) : s.wcoLoad = s.wcoSet (s.get F.WTU_WCO_LOADVAL) := if_pos h

theorem State.wcoLoad_of_moving {s : State} (h : s.motion s.src ≠ stStill) :
    s.wcoLoad = s.logErr (siteWtu 0) 0x01 0x001 [0] := if_neg h

/-- Settles O13: the load sets the latch pair between two moves of the line generators, which leave the WTU's own registers alone; in
any other motion state than STILL it is an error of the WTU. -/
theorem wcoLoadNeedsStill : Obligations.WcoLoadNeedsStill := by
  intro dt who s₀ s hs h
  have hload : exec (.wcoLoad dt who) s₀ = .next s.wcoLoad := regCmd_takes h s₀ dt hs State.wcoLoad
  rw [hload]
  refine ⟨fun hstill => ⟨_, rfl, ?still⟩, fun hmoving => ⟨_, rfl, State.wcoLoad_of_moving hmoving, ?moving⟩⟩
  case still =>
    rw [State.wcoLoad_of_still hstill]
    have hval : s.get F.WTU_WCO_LOADVAL < 2 ^ 64 := Nat.mod_lt _ (by decide)
    obtain ⟨hacc, hwco, htempo, r, u, hframe⟩ := s.wcoSet_spec hval
    refine ⟨hacc, hwco, htempo, ?_⟩
    rw [hframe]
    exact ⟨rfl, rfl, rfl, rfl, rfl, rfl⟩
  case moving => rw [State.wcoLoad_of_moving hmoving, State.logErr_wtu]

end Sys2Proof.Machine
end

section
/-! PROOFS. Launch slots (02 R61, R62): the parts of a firing, and what each writes to the slot's registers and leaves alone. -/

namespace Sys2Proof.Machine

/-! ### Errors and events -/

theorem State.KeepsEvents.logPush (s : State) (ring cyc code tempo : Nat) (d : List Nat) :
    s.KeepsEvents (s.logPush ring cyc code tempo d) := by
  unfold State.logPush
  dsimp only
  split <;> exact .of_eq (by simp) (by simp)

theorem State.KeepsEvents.markError (s : State) (e : Site) : s.KeepsEvents (s.markError e) := by
  unfold State.markError
  split <;> exact .of_eq (by simp) (by simp)

/-- An error keeps the events already presented. -/
theorem State.KeepsEvents.logErr (s : State) (e : Site) (cls cause : Nat) (d : List Nat) :
    s.KeepsEvents (s.logErr e cls cause d) := by
  rw [s.logErr_eq]
  exact ((State.KeepsEvents.markError s e).trans (.logPush _ _ _ _ _ _)).trans (.raiseAux _ _ _)

/-- Offsets apart from the WTU's first page, where its status and log ring are, and from the PMU. -/
def apartFromWtu (j : Nat) : Bool := (decide (j < 0x00100000) || decide (0x00101000 ≤ j)) && !inPmu j

theorem apartFromWtu_iff {j : Nat} : apartFromWtu j = true ↔ (j < 0x00100000 ∨ 0x00101000 ≤ j) ∧ inPmu j = false := by
  simp [apartFromWtu]

/-- An error of the WTU changes registers of its first page and the PMU's alone. -/
theorem State.logErr_wtu_word (s : State) (i cls cause : Nat) (d : List Nat) {j : Nat} (hj : apartFromWtu j = true) :
    (s.logErr (siteWtu i) cls cause d).word j = s.word j := by
  obtain ⟨hj, hpmu⟩ := apartFromWtu_iff.1 hj
  refine State.logErr_word _ _ _ _ _ _ hpmu (by simp only [siteWtu]; omega) fun f hf => ?_
  cases hf
  simp [Fld.covers, F.WTU_ERR]
  omega

/-! ### The parts of a firing -/

/-- The slot is disarmed, or armed anew where ARM was written in the cycle of the firing (R62). -/
def State.slotSpend (s : State) (i x : Nat) : State :=
  if s.rearmed i x then s.setLaunchSlot i { target := s.armTarget i } else s.put (F.WTU_SLOT_CTRL_ARM i) 0

/-- FIRED, the Tempo of the firing and the event (R61). -/
def State.slotReport (s : State) (i x : Nat) : State :=
  ((s.flag (F.WTU_SLOT_CTRL_FIRED i)).put (F.WTU_SLOT_FIRE_TEMPO i) x).raise (144 + i)

/-- LATE, its count and its error (R61). -/
def State.slotNoteLate (s : State) (i : Nat) : State :=
  ((s.flag (F.WTU_SLOT_CTRL_LATE i)).bump F.WTU_LATE_COUNT).logErr (siteWtu 0) 0x03 0x025 [i]

theorem State.slotFires_eq (s : State) (i x : Nat) (t : SlotTarget) : s.slotFires i x t =
    if s.slotLate i x t then ((s.slotSpend i x).slotReport i x).slotNoteLate i else (s.slotSpend i x).slotReport i x := rfl

/-! ### The spending of the slot -/

theorem State.slotSpend_of_rearmed {s : State} {i x : Nat} (h : s.rearmed i x = true) :
    s.slotSpend i x = s.setLaunchSlot i { target := s.armTarget i } := if_pos h

theorem State.slotSpend_of_not_rearmed {s : State} {i x : Nat} (h : s.rearmed i x = false) :
    s.slotSpend i x = s.put (F.WTU_SLOT_CTRL_ARM i) 0 := by
  simp [State.slotSpend, h]

theorem State.slotSpend_wtuMoved (s : State) (i x : Nat) : s.WtuMoved (s.slotSpend i x) := by
  unfold State.slotSpend
  split
  · exact .setWtu _ _
  · exact .put _ _ _

theorem State.slotSpend_word (s : State) (i x : Nat) {j : Nat} (hj : j ≠ O.WTU_SLOT_CTRL i) : (s.slotSpend i x).word j = s.word j := by
  unfold State.slotSpend
  split
  · rfl
  · exact State.word_put_other _ _ _ _ (by simpa [Fld.covers, F.WTU_SLOT_CTRL_ARM, O.WTU_SLOT_CTRL] using hj)

/-! ### The note of a late firing -/

/-- `t` keeps what `s` shows of slot `i` but LATE: the events presented, the state beyond registers, events and logs, the control bits
below LATE, and every other register that errors leave alone. -/
structure State.KeepsFiring (i : Nat) (s t : State) : Prop where
  events : s.KeepsEvents t
  logged : s.Logged t
  ctrl : ∀ f : Fld, f.off = O.WTU_SLOT_CTRL i → f.lo ≤ f.hi → f.hi < 3 → t.get f = s.get f
  word : ∀ j, j ≠ O.WTU_SLOT_CTRL i → apartFromWtu j = true → t.word j = s.word j

theorem State.KeepsFiring.rfl' (i : Nat) (s : State) : s.KeepsFiring i s :=
  ⟨.of_eq rfl rfl, .rfl' s, fun _ _ _ _ => rfl, fun _ _ _ => rfl⟩

theorem apartFromWtu_slot (i : Fin 32) {k : Nat} (hk : k < 0x20) : apartFromWtu (O.WTU_SLOT_CTRL i + k) = true := by
  simp [apartFromWtu_iff, O.WTU_SLOT_CTRL, inPmu]
  omega

theorem inPmu_slot (i : Fin 32) {k : Nat} (hk : k < 0x20) : inPmu (O.WTU_SLOT_CTRL i + k) = false :=
  (apartFromWtu_iff.1 (apartFromWtu_slot i hk)).2

theorem State.KeepsFiring.slotNoteLate (i : Fin 32) (s : State) : State.KeepsFiring i s (s.slotNoteLate i) := by
  have hword : ∀ j, apartFromWtu j = true → (s.slotNoteLate i).word j = (s.flag (F.WTU_SLOT_CTRL_LATE i)).word j := by
    intro j hj
    refine (State.logErr_wtu_word _ _ _ _ _ hj).trans (State.word_put_other _ _ _ _ ?_)
    obtain ⟨hj, -⟩ := apartFromWtu_iff.1 hj
    simp [Fld.covers, F.WTU_LATE_COUNT]
    omega
  refine ⟨?events, ?logged, ?ctrl, ?word⟩
  case events => exact (State.KeepsEvents.of_eq (by simp) (by simp)).trans (.logErr _ _ _ _ _)
  case logged => exact ((State.Raised.flag _ _).trans (.bump _ _ _)).logged.trans (.logErr _ _ _ _ _)
  case ctrl =>
    intro f hoff hle hhi
    have hctrl : (s.slotNoteLate i).word f.off = (s.flag (F.WTU_SLOT_CTRL_LATE i)).word f.off :=
      hword _ (by rw [hoff]; exact apartFromWtu_slot i (k := 0) (by decide))
    rw [State.get_of_word (by omega) hctrl, State.get_flag]
    exact State.get_put_below _ _ _ _ hoff (Nat.le_refl 3) hhi (by simp [F.WTU_SLOT_CTRL_LATE]) hle
  case word =>
    intro j hne hj
    rw [hword j hj]
    exact State.word_flag_other _ _ _ (by simpa [Fld.covers, F.WTU_SLOT_CTRL_LATE, O.WTU_SLOT_CTRL] using hne)

/-- A firing, late or not, shows of the slot what its report has written. -/
theorem State.slotFires_keepsReport (s : State) (i : Fin 32) (x : Nat) (t : SlotTarget) :
    State.KeepsFiring i ((s.slotSpend i x).slotReport i x) (s.slotFires i x t) := by
  rw [s.slotFires_eq]
  split
  · exact .slotNoteLate i _
  · exact .rfl' i _

/-! ### The report of a firing -/

theorem State.slotReport_word (s : State) (i : Fin 32) (x : Nat) {j : Nat}
    (hj : j ∉ [O.WTU_SLOT_CTRL i, O.WTU_SLOT_CTRL i + 0x10, O.WTU_SLOT_CTRL i + 0x14]) (hpmu : inPmu j = false) :
    (s.slotReport i x).word j = s.word j := by
  simp [O.WTU_SLOT_CTRL] at hj
  unfold State.slotReport
  rw [State.raise_word _ _ _ hpmu, State.word_put_other, State.word_flag_other]
  · simp [Fld.covers, F.WTU_SLOT_CTRL_FIRED]
    omega
  · simp [Fld.covers, F.WTU_SLOT_FIRE_TEMPO]
    omega

/-- The control register holds FIRED, and else what it held. -/
theorem State.slotReport_ctrl (s : State) (i : Fin 32) (x : Nat) :
    (s.slotReport i x).word (O.WTU_SLOT_CTRL i) = (s.put (F.WTU_SLOT_CTRL_FIRED i) 1).word (O.WTU_SLOT_CTRL i) := by
  unfold State.slotReport
  rw [State.raise_word _ _ (O.WTU_SLOT_CTRL i) (inPmu_slot i (k := 0) (by decide)), State.word_put_other, State.word_flag]
  simp [Fld.covers, F.WTU_SLOT_FIRE_TEMPO, O.WTU_SLOT_CTRL]
  omega

theorem State.slotReport_on_fired (s : State) (i : Fin 32) (x : Nat) :
    (s.slotReport i x).on (F.WTU_SLOT_CTRL_FIRED i) = true := by
  rw [State.on, State.get_of_word (by simp [F.WTU_SLOT_CTRL_FIRED]) (s.slotReport_ctrl i x)]
  exact State.on_put_one s (F.WTU_SLOT_CTRL_FIRED i) rfl (by simp [F.WTU_SLOT_CTRL_FIRED])

theorem State.slotReport_on_arm (s : State) (i : Fin 32) (x : Nat) :
    (s.slotReport i x).on (F.WTU_SLOT_CTRL_ARM i) = s.on (F.WTU_SLOT_CTRL_ARM i) := by
  rw [State.on, State.get_of_word (by simp [F.WTU_SLOT_CTRL_ARM]) (s.slotReport_ctrl i x),
    State.get_put_below s (F.WTU_SLOT_CTRL_FIRED i) (F.WTU_SLOT_CTRL_ARM i) 1 rfl (Nat.le_refl 2)
      (by simp [F.WTU_SLOT_CTRL_ARM, F.WTU_SLOT_CTRL_FIRED]) (by simp [F.WTU_SLOT_CTRL_FIRED]) (Nat.le_refl 0)]
  rfl

theorem State.slotReport_get_fireTempo (s : State) (i : Fin 32) {x : Nat} (hx : x < 2 ^ 64) :
    (s.slotReport i x).get (F.WTU_SLOT_FIRE_TEMPO i) = x := by
  have hoff : O.WTU_SLOT_CTRL i + 0x10 = (F.WTU_SLOT_FIRE_TEMPO i).off := by simp [O.WTU_SLOT_CTRL, F.WTU_SLOT_FIRE_TEMPO]; omega
  unfold State.slotReport
  rw [State.raise_get _ _ _ (hoff ▸ inPmu_slot i (by decide)) (hoff ▸ inPmu_slot i (k := 0x14) (by decide)),
    State.get_put_same_wide _ _ _ (Nat.zero_le _) (by simp [F.WTU_SLOT_FIRE_TEMPO]) (by simp [F.WTU_SLOT_FIRE_TEMPO])]
  exact Nat.mod_eq_of_lt hx

theorem State.slotReport_raised (s : State) (i x : Nat) : s.Raised (s.slotReport i x) :=
  ((State.Raised.flag _ _).trans (.put _ _ _)).trans (.raise _ _)

/-! ### The edge of a firing -/

/-- A target is evaluated from the cycle after it was set (R61, R62). -/
theorem State.start_le_edgeFor {s : State} {i : Nat} {t : SlotTarget} {x : Nat} (h : s.edgeFor i t = some x) :
    8 * (t.since / 8 + 1) ≤ x := by
  unfold State.edgeFor at h
  dsimp only at h
  generalize 8 * (t.since / 8 + 1) = start at h ⊢
  split at h
  case isTrue =>
    split at h
    next a b hjump hdeadline =>
      have ha : start ≤ a := by
        split at hjump
        · cases hjump; exact Nat.le_max_left _ _
        · cases hjump
      obtain ⟨d, -, hd⟩ := Option.map_eq_some_iff.1 hdeadline
      cases h
      omega
    next a hjump hdeadline =>
      split at hjump
      · cases hjump; cases h; exact Nat.le_max_left _ _
      · cases hjump
    next hjump =>
      obtain ⟨d, -, hd⟩ := Option.map_eq_some_iff.1 h
      omega
  case isFalse =>
    cases h
    exact Nat.le_max_left _ _

/-- A slot that holds just a target set in this cycle is not due in it. -/
theorem State.slotDue_of_fresh {s : State} {i : Nat} {t : SlotTarget} (hslot : s.launchSlot i = { target := t }) (ht : t.since = s.now) :
    s.slotDue i = false := by
  have hedge : s.slotEdge i = (s.edgeFor i t).map fun x => (x, t) := by simp [State.slotEdge, hslot]
  have hlate : ∀ x, s.edgeFor i t = some x → s.now < x := by
    intro x hx
    have := State.start_le_edgeFor hx
    omega
  rw [State.slotDue, hedge]
  cases hx : s.edgeFor i t with
  | none => simp
  | some x => simp [hlate x hx]

theorem State.slotDue_of_disarmed {s : State} {i : Nat} (h : s.on (F.WTU_SLOT_CTRL_ARM i) = false) : s.slotDue i = false := by
  simp [State.slotDue, h]

@[simp] theorem State.launchSlot_setLaunchSlot (s : State) (i : Nat) (e : Slot) : (s.setLaunchSlot i e).launchSlot i = e :=
  Sparse.get_set_same _ _ _ _

/-! ### The whole firing -/

theorem State.slotFire_of_edge {s : State} {i x : Nat} {t : SlotTarget} (h : s.slotEdge i = some (x, t)) :
    s.slotFire i = s.slotFires i x t := by
  simp [State.slotFire, h]

section
variable (s : State) (i : Fin 32) (x : Nat) (t : SlotTarget)

theorem State.slotFires_hasRaised : (s.slotFires i x t).hasRaised (144 + i) = true :=
  (s.slotFires_keepsReport i x t).events.hasRaised (State.hasRaised_raise _ _)

theorem State.slotFires_on_fired : (s.slotFires i x t).on (F.WTU_SLOT_CTRL_FIRED i) = true := by
  rw [State.on, (s.slotFires_keepsReport i x t).ctrl _ rfl (Nat.le_refl 2) (Nat.lt_succ_self 2)]
  exact State.slotReport_on_fired _ i x

/-- ARM is what the spending of the slot has left. -/
theorem State.slotFires_on_arm : (s.slotFires i x t).on (F.WTU_SLOT_CTRL_ARM i) = (s.slotSpend i x).on (F.WTU_SLOT_CTRL_ARM i) := by
  rw [State.on, (s.slotFires_keepsReport i x t).ctrl _ rfl (Nat.le_refl 0) (Nat.zero_lt_succ 2)]
  exact State.slotReport_on_arm _ i x

theorem State.slotFires_get_fireTempo (hx : x < 2 ^ 64) : (s.slotFires i x t).get (F.WTU_SLOT_FIRE_TEMPO i) = x := by
  have hoff : (F.WTU_SLOT_FIRE_TEMPO i).off = O.WTU_SLOT_CTRL i + 0x10 := by simp [O.WTU_SLOT_CTRL, F.WTU_SLOT_FIRE_TEMPO]; omega
  have hword := (s.slotFires_keepsReport i x t).word
  refine (State.get_of_words ?_ ?_).trans (State.slotReport_get_fireTempo (s.slotSpend i x) i hx)
  · exact hword _ (by omega) (hoff ▸ apartFromWtu_slot i (by decide))
  · exact hword _ (by omega) (hoff ▸ apartFromWtu_slot i (k := 0x14) (by decide))

/-- A firing writes the slot's CTRL and FIRE_TEMPO, and no other register that errors leave alone. -/
theorem State.slotFires_word {j : Nat} (hj : j ∉ [O.WTU_SLOT_CTRL i, O.WTU_SLOT_CTRL i + 0x10, O.WTU_SLOT_CTRL i + 0x14])
    (hapart : apartFromWtu j = true) : (s.slotFires i x t).word j = s.word j := by
  have hne : j ≠ O.WTU_SLOT_CTRL i := fun h => hj (by simp [h])
  rw [(s.slotFires_keepsReport i x t).word j hne hapart, State.slotReport_word _ _ _ hj (apartFromWtu_iff.1 hapart).2,
    State.slotSpend_word _ _ _ hne]

theorem State.slotFires_get_target : (s.slotFires i x t).get (F.WTU_SLOT_TARGET i) = s.get (F.WTU_SLOT_TARGET i) := by
  have hoff : (F.WTU_SLOT_TARGET i).off = O.WTU_SLOT_CTRL i + 8 := by simp [O.WTU_SLOT_CTRL, F.WTU_SLOT_TARGET]; omega
  refine State.get_of_words (s.slotFires_word i x t ?_ ?_) (s.slotFires_word i x t ?_ ?_)
  · simp [hoff]
  · exact hoff ▸ apartFromWtu_slot i (by decide)
  · simp [hoff]
    omega
  · exact hoff ▸ apartFromWtu_slot i (k := 12) (by decide)

/-- Once the slot is spent, a firing changes registers, events and logs alone. -/
theorem State.slotFires_logged : (s.slotSpend i x).Logged (s.slotFires i x t) :=
  (State.slotReport_raised _ _ _).logged.trans (s.slotFires_keepsReport i x t).logged

theorem State.slotFires_wtu : (s.slotFires i x t).wtu = (s.slotSpend i x).wtu := by
  obtain ⟨p, r, l, n, q, h⟩ := s.slotFires_logged i x t
  rw [h]

/-- A firing changes nothing but registers with their past, events, logs and the WTU. -/
theorem State.slotFires_frame : ∃ p r l n q w, s.slotFires i x t
    = { s with presented := p, regs := r, logs := l, netError := n, past := q, wtu := w } := by
  obtain ⟨p, r, l, n, q, h⟩ := s.slotFires_logged i x t
  obtain ⟨r', w, h'⟩ := s.slotSpend_wtuMoved i x
  rw [h, h']
  exact ⟨_, _, _, _, _, _, rfl⟩

theorem State.slotFires_now : (s.slotFires i x t).now = s.now := by
  obtain ⟨p, r, l, n, q, w, h⟩ := s.slotFires_frame i x t
  rw [h]
  rfl

end

/-- A slot that is not armed anew is done (R61). -/
theorem State.slotFires_of_not_rearmed {s : State} {i : Fin 32} {x : Nat} (h : s.rearmed i x = false) (t : SlotTarget) :
    (s.slotFires i x t).on (F.WTU_SLOT_CTRL_ARM i) = false ∧ (s.slotFires i x t).slotDue i = false
      ∧ (s.slotFires i x t).wtu = s.wtu := by
  have harm : (s.slotFires i x t).on (F.WTU_SLOT_CTRL_ARM i) = false := by
    rw [s.slotFires_on_arm, State.slotSpend_of_not_rearmed h]
    exact State.on_put_zero s (F.WTU_SLOT_CTRL_ARM i) rfl (by simp [F.WTU_SLOT_CTRL_ARM])
  exact ⟨harm, State.slotDue_of_disarmed harm, by rw [s.slotFires_wtu, State.slotSpend_of_not_rearmed h, State.put_wtu]⟩

/-- A slot armed anew in the cycle of its firing stays armed and does not fire again in that cycle (R62). -/
theorem State.slotFires_of_rearmed {s : State} {i : Fin 32} {x : Nat} (h : s.rearmed i x = true)
    (harmed : s.on (F.WTU_SLOT_CTRL_ARM i) = true) (t : SlotTarget) :
    (s.slotFires i x t).on (F.WTU_SLOT_CTRL_ARM i) = true ∧ (s.slotFires i x t).slotDue i = false := by
  have hslot : (s.slotFires i x t).launchSlot i = { target := s.armTarget i } := by
    rw [State.launchSlot, s.slotFires_wtu, State.slotSpend_of_rearmed h]
    exact s.launchSlot_setLaunchSlot i _
  refine ⟨?_, State.slotDue_of_fresh hslot (s.slotFires_now i x t).symm⟩
  rw [s.slotFires_on_arm, State.slotSpend_of_rearmed h]
  exact harmed

/-! ### The arming of an armed slot -/

theorem State.slotArm_of_armed {s : State} {i : Nat} (h : s.on (F.WTU_SLOT_CTRL_ARM i) = true) :
    s.slotArm i = s.setLaunchSlot i { s.launchSlot i with armWrite := s.now } := if_pos h

/-- A write of ARM counts for a firing in its own cycle alone. -/
theorem State.rearmed_other_cycle (s : State) (i : Nat) {x : Nat} (hx : x / 8 ≠ s.cycle) :
    (s.setLaunchSlot i { s.launchSlot i with armWrite := s.now }).rearmed i x = false := by
  have hcycle : s.now / 8 ≠ x / 8 := Ne.symm hx
  simp [State.rearmed, hcycle]

/-- Settles O14: a firing spends the slot, reports, and notes a late one, each part with its own registers; and a write of ARM to the
armed slot is seen by a firing of its own cycle alone. -/
theorem launchSlotFiresOnce : Obligations.LaunchSlotFiresOnce := by
  intro dt who slot s₀ s hs hheld
  refine ⟨?due, ?notDue, ?armedAgain⟩
  case due =>
    intro hdue x tgt hedge hx hnow
    have hfire : exec (.slotFire dt slot) s₀ = .next (s.slotFires slot x tgt) := by
      rw [← State.slotFire_of_edge hedge]
      exact evCmd_happens (guard := fun s => s.slotDue slot) s₀ dt hs hheld hdue fun s => s.slotFire slot
    obtain ⟨harmed, -⟩ := Bool.and_eq_true_iff.1 hdue
    refine ⟨_, hfire, s.slotFires_on_fired slot x tgt, s.slotFires_get_fireTempo slot x tgt (by omega), s.slotFires_hasRaised slot x tgt,
      s.slotFires_get_target slot x tgt, fun h => State.slotFires_of_not_rearmed h tgt,
      fun h => State.slotFires_of_rearmed h harmed tgt, fun o ho => s.slotFires_word slot x tgt ?outside ?apart, ?frame⟩
    case outside =>
      simp [O.WTU_SLOT_CTRL]
      omega
    case apart =>
      simp [apartFromWtu_iff, inPmu]
      omega
    case frame =>
      obtain ⟨p, r, l, n, q, w, h⟩ := s.slotFires_frame slot x tgt
      rw [h]
      exact ⟨rfl, rfl, rfl, rfl, rfl⟩
  case notDue =>
    intro hdue
    exact evCmd_idles (guard := fun s => s.slotDue slot) s₀ dt hs hdue fun s => s.slotFire slot
  case armedAgain =>
    intro htakes harmed
    rw [← State.slotArm_of_armed harmed]
    refine ⟨regCmd_takes htakes s₀ dt hs fun s => s.slotArm slot, fun _ x hx => ?_⟩
    rw [State.slotArm_of_armed harmed]
    exact s.rearmed_other_cycle slot hx

end Sys2Proof.Machine
end

section
/-! PROOFS. Commands of job ingest and compression (03 R75, R77–R79, R83–R85, R90): each completes under its conditions. -/

namespace Sys2Proof.Machine

/-- Settles O42: register writes, two of them to a 64-bit register's high word, and events whose guards are the conditions; the end of an
inflate stream and of a descriptor act on what the lane holds. -/
theorem jobIngestCommandsComplete : Obligations.JobIngestCommandsComplete := by
  refine ⟨?cmpRingEnable, ?ringProdWrite, ?ringResume, ?ringConsWrite, ?recordDispatch, ?inflateStreamEnd, ?planeEnable,
    ?dqProdWrite, ?descriptorDispatch, ?deflateComplete⟩
  case cmpRingEnable | ringResume | planeEnable | dqProdWrite =>
    intros
    rename_i hs h
    dsimp only [exec]
    exact regCmd_takes h _ _ hs _
  case ringProdWrite =>
    intro dt who r hi s₀ s hs h
    exact highCmd_takes h s₀ dt hs hi fun v s => s.setProd r v
  case ringConsWrite =>
    intro dt who r hi s₀ s hs h
    exact highCmd_takes h s₀ dt hs hi fun v s => s.setCons r v
  case recordDispatch | descriptorDispatch =>
    intros
    rename_i hs hheld hguard
    dsimp only [exec]
    exact evCmd_happens _ _ hs hheld hguard _
  case inflateStreamEnd =>
    intro dt lane s₀ s t hs hheld hlane
    have hguard : (s.lane lane).isSome = true := by rw [hlane, Option.isSome_some]
    dsimp only [exec, execInflateStreamEnd]
    rw [evCmd_happens (guard := fun s => (s.lane lane).isSome) s₀ dt hs hheld hguard]
    simp only [hlane]
  case deflateComplete =>
    intro dt lane s₀ s d hs hheld hlane
    have hguard : (s.deflLane lane).isSome = true := by rw [hlane, Option.isSome_some]
    dsimp only [exec, execDeflateComplete]
    rw [evCmd_happens (guard := fun s => (s.deflLane lane).isSome) s₀ dt hs hheld hguard]
    simp only [hlane]

end Sys2Proof.Machine
end

section
/-! PROOFS. Commands of the render pipes (04 R93, R94, R101, R108, R114, R120): each completes under its conditions. -/

namespace Sys2Proof.Machine

/-- Settles O43: register writes, one of them to a 64-bit register's high word, a register read, and events whose guards are the
conditions; the start and the end of a line's render act on the line that the pipe holds for them. -/
theorem renderPipeCommandsComplete : Obligations.RenderPipeCommandsComplete := by
  refine ⟨?lineRenderStart, ?lineRenderEnd, ?snapshotRetire, ?pipeEnable, ?pipeDisable, ?thresholdStoreWrite, ?thresholdStoreRead,
    ?slackRst⟩
  case lineRenderStart =>
    intro dt n s₀ s q hs hheld hline
    have hguard : (s.nextLine n).isSome = true := by rw [hline, Option.isSome_some]
    dsimp only [exec, execLineRenderStart]
    rw [evCmd_happens (guard := fun s => (s.nextLine n).isSome) s₀ dt hs hheld hguard]
    simp only [hline]
  case lineRenderEnd =>
    intro dt n s₀ s q t hs hheld hline
    have hguard : (s.renderedLine n).isSome = true := by rw [hline, Option.isSome_some]
    dsimp only [exec, execLineRenderEnd]
    rw [evCmd_happens (guard := fun s => (s.renderedLine n).isSome) s₀ dt hs hheld hguard]
    simp only [hline]
  case snapshotRetire =>
    intro dt n s₀ s hs hheld hguard
    exact evCmd_happens (guard := fun s => s.retirable n) s₀ dt hs hheld hguard fun s => s.retireSnap n
  case pipeEnable | pipeDisable | slackRst =>
    intros
    rename_i hs h
    dsimp only [exec]
    exact regCmd_takes h _ _ hs _
  case thresholdStoreWrite =>
    intro dt who hi s₀ s hs h
    exact highCmd_takes h s₀ dt hs hi fun v s => (s.tsStore (s.get F.RP_TS_ADDR) v).tsAdvance
  case thresholdStoreRead =>
    intro dt who s₀ s hs h
    exact readCmd_takes h s₀ dt hs fun s => s.tsRead who

end Sys2Proof.Machine
end

section
/-! PROOFS. Commands of fire timing and the head ports (05 R139–R141, 06 R154–R167): each completes under its conditions. -/

namespace Sys2Proof.Machine

/-- An event of the device that acts on what a look at the state finds (a line, a strobe) happens where there is one. -/
theorem evCmd_happens_found {α : Type} {s t : State} {look : State → Option α} {a : α} {effect : State → State} (s₀ : State) (dt : Nat)
    (hs : s = s₀.wait dt) (hheld : s.held = false) (hfound : look s = some a) (heffect : effect s = t) :
    evCmd dt (fun s => (look s).isSome) effect s₀ = .next t := by
  have hguard : (look s).isSome = true := by rw [hfound, Option.isSome_some]
  rw [evCmd_happens (guard := fun s => (look s).isSome) s₀ dt hs hheld hguard, heffect]

/-- Settles O45: register writes, events whose guards are the conditions, and events that act on the line or the strobe that they find for
the head. -/
theorem fireTimingCommandsComplete : Obligations.FireTimingCommandsComplete := by
  refine ⟨?overspeedRecord, ?inhibitEnd, ?overspeedPolicyWrite, ?packedDataArrival, ?headLineSend, ?latchAckReceive, ?strobeDecision,
    ?strobeStart, ?strobeEnd, ?ackTimeout, ?flagFall, ?flgStopped, ?flgResume, ?flagFallClear, ?headEnable, ?headDisableByWrite,
    ?headDisableByLink⟩
  case overspeedRecord | inhibitEnd | ackTimeout | flagFall | flgStopped =>
    intros
    rename_i hs hheld hguard
    dsimp only [exec]
    exact evCmd_happens _ _ hs hheld hguard _
  case latchAckReceive =>
    intro dt x status line s₀ s hs hheld
    exact evCmd_happens (guard := fun _ => true) s₀ dt hs hheld rfl fun s => s.ack x status line.toNat
  case overspeedPolicyWrite | flgResume | flagFallClear | headEnable =>
    intros
    rename_i hs h
    dsimp only [exec]
    exact regCmd_takes h _ _ hs _
  case headDisableByWrite =>
    intro dt x s₀ s who hs h
    exact regCmd_takes h s₀ dt hs fun s => (s.put (F.FTU_HEAD_CFG_EN x) 0).headStop x
  case packedDataArrival | headLineSend | strobeDecision | strobeStart =>
    intros
    rename_i hs hheld hfound
    dsimp only [exec, execPackedDataArrival, execHeadLineSend, execStrobeDecision, execStrobeStart]
    exact evCmd_happens_found _ _ hs hheld hfound (by simp only [hfound])
  case strobeEnd =>
    intro dt x s₀ s fall hs hheld hfall hover
    dsimp only [exec, execStrobeEnd]
    rw [evCmd_happens s₀ dt hs hheld (by simp only [hfall, hover, decide_true])]
    simp only [hfall]
  case headDisableByLink =>
    intro dt x s₀ s hs hheld hdown
    have hguard : (!s.on (F.FTU_LINK_STAT_UP (x / 4))) = true := by rw [hdown, Bool.not_false]
    exact evCmd_happens (guard := fun s => !s.on (F.FTU_LINK_STAT_UP (x / 4))) s₀ dt hs hheld hguard fun s => s.headStop x

end Sys2Proof.Machine
end

section
/-! PROOFS. What a Fuvor port sends (16 R435–R441) leaves alone: the transmitter, the credits and the replay buffer are its own. -/

namespace Sys2Proof.Machine

/-- A state that differs from another at most in what the sending over a link changes: the links themselves, what has gone out, the PMU,
and registers, events and logs. -/
def State.Sent (s t : State) : Prop :=
  ∃ v o m p r l n q, t = { s with fvl := v, out := o, pmu := m, presented := p, regs := r, logs := l, netError := n, past := q }

theorem State.Sent.trans {a b c : State} (h : a.Sent b) (k : b.Sent c) : a.Sent c := by
  obtain ⟨v, o, m, p, r, l, n, q, rfl⟩ := h
  obtain ⟨v', o', m', p', r', l', n', q', rfl⟩ := k
  exact ⟨v', o', m', p', r', l', n', q', rfl⟩

theorem State.Logged.sent {s t : State} (h : s.Logged t) : s.Sent t := by
  obtain ⟨p, r, l, n, q, rfl⟩ := h
  exact ⟨s.fvl, s.out, s.pmu, p, r, l, n, q, rfl⟩

theorem State.Sent.rfl' (s : State) : s.Sent s := (State.Logged.rfl' s).sent

theorem State.Sent.emit (s : State) (o : Out) : s.Sent (s.emit o) :=
  ⟨s.fvl, s.out ++ [o], s.pmu, s.presented, s.regs, s.logs, s.netError, s.past, rfl⟩

theorem State.Sent.setFvPort (s : State) (p : Nat) (v : FvlPort) : s.Sent (s.setFvPort p v) :=
  ⟨(s.setFvPort p v).fvl, s.out, s.pmu, s.presented, s.regs, s.logs, s.netError, s.past, rfl⟩

theorem State.Sent.countBytes (s : State) (slot n : Nat) : s.Sent (s.countBytes slot n) := by
  unfold State.countBytes
  split
  · exact ⟨s.fvl, s.out, _, s.presented, s.regs, s.logs, s.netError, s.past, rfl⟩
  · exact .rfl' s

theorem State.Sent.putData (s : State) (p seq : Nat) (words : List DWord) : s.Sent (s.putData p seq words) :=
  ((State.Sent.setFvPort _ _ _).trans (.emit _ _)).trans (.emit _ _)

theorem State.Sent.fvTransmit (s : State) (p : Nat) (t : LinkTx) : s.Sent (s.fvTransmit p t) := by
  refine State.Sent.trans ?_ (.putData _ _ _ _)
  refine State.Sent.trans ?_ (.countBytes _ _ _)
  refine State.Sent.trans ?_ (State.Raised.tally _ _ _ _ _).logged.sent
  exact (State.Sent.setFvPort _ _ _).trans (State.Raised.bump _ _ _).logged.sent

theorem State.Sent.fvFlushAux (fuel : Nat) (s : State) (p : Nat) : s.Sent (s.fvFlushAux p fuel) := by
  induction fuel generalizing s with
  | zero => exact .rfl' s
  | succ fuel ih =>
    unfold State.fvFlushAux
    split
    · exact (State.Sent.fvTransmit _ _ _).trans (ih _)
    · exact .rfl' s

theorem State.Sent.fvFlush (s : State) (p : Nat) : s.Sent (s.fvFlush p) := by
  unfold State.fvFlush
  split
  · exact .fvFlushAux _ _ _
  · exact .rfl' s

theorem State.Sent.fvSend (s : State) (p : Nat) (t : LinkTx) : s.Sent (s.fvSend p t) := by
  unfold State.fvSend
  split
  · exact (State.Sent.setFvPort _ _ _).trans (.fvFlush _ _)
  · exact .rfl' s

/-- A transaction goes to the port of its endpoint, or is an error of the FVL (R440). -/
theorem State.Sent.sendTo (s : State) (ep : Nat) (t : LinkTx) : s.Sent (s.sendTo ep t) := by
  unfold State.sendTo
  split
  · exact .fvSend _ _ _
  · exact (State.Logged.logErr _ _ _ _ _).sent

theorem State.Sent.sendStream (s : State) (p dest : Nat) (words : List DWord) : s.Sent (s.sendStream p dest words) := by
  unfold State.sendStream State.clientSend
  split
  · exact .sendTo _ _ _
  · exact .rfl' s

theorem State.Sent.sendTwin (s : State) (mtype : Nat) (words : List DWord) : s.Sent (s.sendTwin mtype words) :=
  (State.Sent.emit _ _).trans (.sendStream _ _ _ _)

end Sys2Proof.Machine
end

section
/-! PROOFS. A masked update of the nozzle table (05 R124–R126): how it comes to wait for the update port, and what the port's next use
changes and leaves alone. -/

namespace Sys2Proof.Machine

/-! ### Entries -/

theorem State.ntCell_setNtCell_same (s : State) (i : Nat) (c : Cell) : (s.setNtCell i c).ntCell i = c := Sparse.get_set_same _ _ _ _

theorem State.ntCell_setNtCell_other (s : State) {i j : Nat} (c : Cell) (h : j ≠ i) : (s.setNtCell i c).ntCell j = s.ntCell j :=
  Sparse.get_set_other _ _ _ _ _ h

/-- An entry that could be read is good after any write (R126). -/
theorem markAfter_of_readable (op : NtOp) {m : Mark} (h : m = .good ∨ m = .corrected) : markAfter op m = .good := by
  unfold markAfter
  obtain rfl | rfl := h <;> simp

/-! ### The set's registers -/

/-- A field whose words lie apart from another's reads as before. -/
theorem State.get_put_apart (s : State) {f g : Fld} (v : Nat) (h : g.off + 8 ≤ f.off ∨ f.off + 8 ≤ g.off) :
    (s.put f v).get g = s.get g := by
  have hlow : f.covers g.off = false := by simp [Fld.covers]; omega
  have hhigh : f.covers (g.off + 4) = false := by simp [Fld.covers]; omega
  exact State.get_put_other s f g v hlow fun _ => hhigh

/-- A write of DATA leaves the set's other registers as they are. -/
theorem State.get_put_rmwData (s : State) (i v : Nat) :
    (s.put (F.RP_NT_RMW_DATA i) v).get (F.RP_NT_RMW_INDEX i) = s.get (F.RP_NT_RMW_INDEX i)
      ∧ (s.put (F.RP_NT_RMW_DATA i) v).get (F.RP_NT_RMW_MASK i) = s.get (F.RP_NT_RMW_MASK i)
      ∧ (s.put (F.RP_NT_RMW_DATA i) v).get (F.RP_NT_RMW_RESULT i) = s.get (F.RP_NT_RMW_RESULT i) := by
  refine ⟨s.get_put_apart v ?_, s.get_put_apart v ?_, s.get_put_apart v ?_⟩ <;>
    simp only [F.RP_NT_RMW_DATA, F.RP_NT_RMW_INDEX, F.RP_NT_RMW_MASK, F.RP_NT_RMW_RESULT] <;> omega

/-! ### The update comes to the port -/

/-- The write that an update of set `i` with `data` puts before the port, as the set's registers stand (R125). -/
def State.rmwWrite (s : State) (i data : Nat) : NtWrite :=
  { idx := s.get (F.RP_NT_RMW_INDEX i)
    op := .rmw i (BitVec.ofNat 64 (s.get (F.RP_NT_RMW_MASK i))) (BitVec.ofNat 64 data)
    at_ := s.now
    held := s.nt.initAt.isSome }

theorem State.ntRmw_of_inRange {s : State} {i : Nat} (h : s.get (F.RP_NT_RMW_INDEX i) < 524288) (data : Nat) :
    s.ntRmw i data
      = { s.put (F.RP_NT_RMW_DATA i) data with nt := { s.nt with waiting := s.nt.waiting ++ [s.rmwWrite i data] } } := by
  obtain ⟨hindex, hmask, -⟩ := s.get_put_rmwData i data
  simp only [State.ntRmw, hindex, hmask, if_neg (Nat.not_le.2 h), State.ntSubmit, State.put_nt, State.now, State.put_tempo]
  rfl

theorem State.ntRmw_of_outOfRange {s : State} {i : Nat} (h : 524288 ≤ s.get (F.RP_NT_RMW_INDEX i)) (data : Nat) :
    s.ntRmw i data = (s.put (F.RP_NT_RMW_DATA i) data).flag F.RP_NT_STAT_RMW_RANGE := by
  obtain ⟨hindex, -, -⟩ := s.get_put_rmwData i data
  simp only [State.ntRmw, hindex, if_pos h]

/-- The write of DATA changes registers and what waits for the port, and nothing else. -/
theorem State.ntRmw_frame (s : State) (i data : Nat) :
    ∃ r p e n, s.ntRmw i data = { s with regs := r, past := p, presented := e, nt := n } := by
  by_cases h : s.get (F.RP_NT_RMW_INDEX i) < 524288
  · obtain ⟨e, r, p, hput⟩ := State.Raised.put s (F.RP_NT_RMW_DATA i) data
    exact ⟨r, p, e, _, by rw [State.ntRmw_of_inRange h, hput]⟩
  · obtain ⟨e, r, p, hflag⟩ := (State.Raised.put s (F.RP_NT_RMW_DATA i) data).trans (.flag _ F.RP_NT_STAT_RMW_RANGE)
    exact ⟨r, p, e, s.nt, by rw [State.ntRmw_of_outOfRange (Nat.not_lt.1 h), hflag]⟩

/-- The write of DATA leaves RESULT as it is. -/
theorem State.get_ntRmw_result (s : State) (i data : Nat) :
    (s.ntRmw i data).get (F.RP_NT_RMW_RESULT i) = s.get (F.RP_NT_RMW_RESULT i) := by
  obtain ⟨-, -, hresult⟩ := s.get_put_rmwData i data
  by_cases h : s.get (F.RP_NT_RMW_INDEX i) < 524288
  · rw [State.ntRmw_of_inRange h]
    exact hresult
  · have hapart : F.RP_NT_STAT_RMW_RANGE.off + 8 ≤ (F.RP_NT_RMW_RESULT i).off := by
      simp only [F.RP_NT_STAT_RMW_RANGE, F.RP_NT_RMW_RESULT]
      omega
    rw [State.ntRmw_of_outOfRange (Nat.not_lt.1 h), State.get_flag, State.get_put_apart _ _ (.inr hapart), hresult]

/-! ### The port serves it -/

/-- Of one write alone the port's next is that one. -/
theorem nextWrite_singleton {w : NtWrite} (h : w.op.order < 7) : nextWrite [w] = some w := by
  unfold nextWrite
  cases hheld : w.held with
  | true => simp [hheld]
  | false =>
    simp only [List.find?_cons, List.find?_nil, hheld]
    generalize w.op.order = k at h
    obtain rfl | rfl | rfl | rfl | rfl | rfl | rfl : k = 0 ∨ k = 1 ∨ k = 2 ∨ k = 3 ∨ k = 4 ∨ k = 5 ∨ k = 6 := by omega
    all_goals rfl

theorem State.ntServe_singleton {s : State} {w : NtWrite} (hwaiting : s.nt.waiting = [w]) (hthere : w.at_ ≤ s.now)
    (horder : w.op.order < 7) : s.ntServe = s.ntApply w := by
  have hhere : s.nt.waiting.filter s.ntThere = [w] := by simp [hwaiting, State.ntThere, hthere]
  simp only [State.ntServe, hhere, nextWrite_singleton horder]

theorem State.ntReady_singleton {s : State} {w : NtWrite} (hinit : s.nt.initAt = none) (hwaiting : s.nt.waiting = [w])
    (hlater : w.at_ / 4 < s.now / 4) : s.ntReady = true := by
  simp [State.ntReady, hinit, hwaiting, hlater]

/-- What the running renders note of a write stands in the pipes alone (R136). -/
theorem State.ntNote_eq (s : State) (i : Nat) (c : Cell) : ∃ r, s.ntNote i c = { s with rp := r } := by
  unfold State.ntNote
  generalize List.range 8 = pipes
  induction pipes generalizing s with
  | nil => exact ⟨s.rp, rfl⟩
  | cons n pipes ih =>
    rw [List.foldl_cons]
    dsimp only
    split
    · obtain ⟨r, hr⟩ := ih (s.setPipe n _)
      exact ⟨r, hr⟩
    · exact ih s

theorem State.Sent.ntMirror (s : State) (w : NtWrite) (after : DWord) : s.Sent (s.ntMirror w after) := by
  unfold State.ntMirror
  dsimp only
  split
  · split
    · exact .sendTwin _ _ _
    · exact .sendTwin _ _ _
    · exact .sendTwin _ _ _
    · exact .rfl' s
  · exact .rfl' s

/-- The entry that a masked update leaves of `c`, where `c` could be read (R125, R126). -/
def maskedCell (c : Cell) (m d : DWord) : Cell := { bits := (c.bits &&& ~~~m) ||| (d &&& m), mark := .good }

/-- The port applies the one update that waits: the entry changes, the renders note it, the twin may be sent it, and RESULT shows the
entry as it stood before. -/
theorem State.ntApply_rmw {s : State} {w : NtWrite} {i : Nat} {m d : DWord} (hwaiting : s.nt.waiting = [w]) (hop : w.op = .rmw i m d)
    (hreadable : (s.ntCell w.idx).mark = .good ∨ (s.ntCell w.idx).mark = .corrected) :
    ∃ r u, State.Sent (State.setNtCell { s with rp := r, nt := { s.nt with waiting := [] } } w.idx (maskedCell (s.ntCell w.idx) m d)) u
      ∧ s.ntApply w = u.put (F.RP_NT_RMW_RESULT i) (s.ntCell w.idx).bits.toNat := by
  have hmark : ¬ ((s.ntCell w.idx).mark = .uncorrectable || (s.ntCell w.idx).mark = .poison : Bool) = true := by
    obtain h | h := hreadable <;> simp [h]
  have hempty : ((s.nt.waiting.erase w).filter fun u => !(u.op == .scrub && u.idx == w.idx)) = [] := by simp [hwaiting]
  obtain ⟨r, hr⟩ := State.ntNote_eq { s with nt := { s.nt with waiting := [] } } w.idx (s.ntCell w.idx)
  refine ⟨r, _, .ntMirror _ w (maskedCell (s.ntCell w.idx) m d).bits, ?_⟩
  simp only [State.ntApply, hempty, hr, hop, NtOp.apply, markAfter_of_readable _ hreadable, maskedCell]
  exact if_neg hmark

/-- What the port's next use leaves of the one update that waits: the entry masked, the old entry in RESULT, every other entry and every
unit but the pipes and the links as before. -/
theorem State.ntServe_rmw {s : State} {w : NtWrite} {i : Nat} (hi : i < 4) {m d : DWord} (hwaiting : s.nt.waiting = [w])
    (hop : w.op = .rmw i m d) (hthere : w.at_ ≤ s.now)
    (hreadable : (s.ntCell w.idx).mark = .good ∨ (s.ntCell w.idx).mark = .corrected) :
    s.ntServe.ntCell w.idx = maskedCell (s.ntCell w.idx) m d
      ∧ s.ntServe.get (F.RP_NT_RMW_RESULT i) = (s.ntCell w.idx).bits.toNat
      ∧ (∀ j, j ≠ w.idx → s.ntServe.ntCell j = s.ntCell j)
      ∧ s.ntServe.nt.waiting = []
      ∧ s.ntServe.wtu = s.wtu ∧ s.ntServe.ftu = s.ftu ∧ s.ntServe.mem = s.mem ∧ s.ntServe.eng = s.eng := by
  have horder : w.op.order < 7 := by rw [hop]; simp only [NtOp.order]; omega
  obtain ⟨r, u, hsent, happly⟩ := State.ntApply_rmw hwaiting hop hreadable
  rw [State.ntServe_singleton hwaiting hthere horder, happly]
  obtain ⟨_, _, _, _, _, _, _, _, rfl⟩ := hsent
  have hresult : (s.ntCell w.idx).bits.toNat % 2 ^ 64 = (s.ntCell w.idx).bits.toNat := Nat.mod_eq_of_lt (BitVec.isLt _)
  refine ⟨?_, ?_, ?_, ?_, ?_, ?_, ?_, ?_⟩
  · rw [State.ntCell, State.put_nt]
    exact State.ntCell_setNtCell_same _ _ _
  · exact (State.get_put_same_wide _ _ _ (show 0 ≤ 63 by decide) (show ¬ 63 < 32 by decide) (show 63 < 64 by decide)).trans hresult
  · intro j hj
    rw [State.ntCell, State.put_nt]
    exact State.ntCell_setNtCell_other _ _ hj
  · rw [State.put_nt]; rfl
  · rw [State.put_wtu]; rfl
  · rw [State.put_ftu]; rfl
  · rw [State.put_mem]; rfl
  · rw [State.put_eng]; rfl

/-- The port's use in a later PIX cycle than the update's own applies it (assumption 97): see `State.ntServe_rmw`. -/
theorem updatePortApply_rmw {s u : State} {dt : Nat} (hu : u = s.wait dt) {w : NtWrite} {i : Nat} (hi : i < 4) {m d : DWord}
    (hheld : s.held = false) (hinit : s.nt.initAt = none) (hwaiting : s.nt.waiting = [w]) (hop : w.op = .rmw i m d)
    (hreadable : (s.ntCell w.idx).mark = .good ∨ (s.ntCell w.idx).mark = .corrected) (hlater : w.at_ / 4 < u.now / 4) :
    ∃ v, exec (.updatePortApply dt) s = .next v
      ∧ v.ntCell w.idx = maskedCell (s.ntCell w.idx) m d
      ∧ v.get (F.RP_NT_RMW_RESULT i) = (s.ntCell w.idx).bits.toNat
      ∧ (∀ j, j ≠ w.idx → v.ntCell j = s.ntCell j)
      ∧ v.nt.waiting = []
      ∧ v.wtu = u.wtu ∧ v.ftu = u.ftu ∧ v.mem = u.mem ∧ v.eng = u.eng := by
  have hnt : u.nt = s.nt := by rw [hu, State.wait_nt]
  have hcell : ∀ j, u.ntCell j = s.ntCell j := fun j => by rw [State.ntCell, hnt]; rfl
  have huheld : u.held = false := by rw [State.held, hu, State.wait_boot]; exact hheld
  have hready : u.ntReady = true := State.ntReady_singleton (hnt ▸ hinit) (hnt ▸ hwaiting) hlater
  have hserved := State.ntServe_rmw (s := u) hi (hnt ▸ hwaiting) hop (by omega) (by rw [hcell]; exact hreadable)
  simp only [hcell] at hserved
  exact ⟨u.ntServe, evCmd_happens s dt hu huheld hready State.ntServe, hserved⟩

/-! ### The obligation -/

/-- Settles O15: within the table's range the update goes to the free port with the mask and the data that the set then holds, and the
port's next use applies it; out of range it sets RMW_RANGE and goes nowhere. That the port applies it in a later PIX cycle also where
nothing contends for it is the model's choice (assumption 97), not a clause of R124. -/
theorem nozzleTableMaskedUpdate : Obligations.NozzleTableMaskedUpdate := by
  intro dt who i hi s₀ s hs h
  have hexec : exec (.ntRmwUpdate dt who i hi) s₀
      = .next ((s.consumeLow who (O.RP_NT_RMW_DATA i)).ntRmw i (s.joined who (O.RP_NT_RMW_DATA i) hi)) :=
    highCmd_takes h s₀ dt hs hi fun v s => s.ntRmw i v
  obtain ⟨hheld, -⟩ := h
  generalize s.joined who (O.RP_NT_RMW_DATA i) hi = data at hexec ⊢
  have hresult := (s.consumeLow who (O.RP_NT_RMW_DATA i)).get_ntRmw_result i data
  constructor
  · intro hfree hinit hindex hreadable
    have hnt : ((s.consumeLow who (O.RP_NT_RMW_DATA i)).ntRmw i data).nt = { s.nt with waiting := [s.rmwWrite i data] } := by
      rw [State.ntRmw_of_inRange (s := s.consumeLow _ _) hindex]
      show ({ s.nt with waiting := s.nt.waiting ++ [s.rmwWrite i data] } : Nt) = _
      rw [hfree, List.nil_append]
    obtain ⟨r, p, e, n, hframe⟩ := (s.consumeLow who (O.RP_NT_RMW_DATA i)).ntRmw_frame i data
    rw [hframe] at hexec hresult hnt
    obtain rfl : n = { s.nt with waiting := [s.rmwWrite i data] } := hnt
    refine ⟨_, hexec, fun _ => rfl, hresult, rfl, rfl, rfl, rfl, rfl, rfl, fun dt' u hu hlater => ?_⟩
    obtain ⟨v, hserve, hentry, hrest⟩ := updatePortApply_rmw hu i.isLt hheld hinit rfl rfl hreadable hlater
    exact ⟨v, hserve, congrArg Cell.bits hentry, congrArg Cell.mark hentry, hrest⟩
  · intro hindex
    have hout := State.ntRmw_of_outOfRange (s := s.consumeLow who (O.RP_NT_RMW_DATA i)) hindex data
    refine ⟨_, hexec, ?_, hresult, ?_⟩
    · rw [hout, State.flag_nt, State.put_nt]
      rfl
    · rw [hout, State.on_flag]
      exact State.on_put_one _ _ rfl (by decide)

end Sys2Proof.Machine
end

section
/-! PROOFS. Payload positions (06 R149): the position at which a nozzle is packed and the nozzle that the wiring gives a position are
inverses on the nozzles of a head. -/

namespace Sys2Proof.Machine

/-! ### Shift order within a segment -/

/-- The shift cycle of a segment position, and the segment position of a shift cycle: near end first keeps it, far end first
mirrors it. -/
def shiftOrder (near : Bool) (len n : Nat) : Nat := if near then n else len - 1 - n

theorem shiftOrder_lt {len n : Nat} (near : Bool) (h : n < len) : shiftOrder near len n < len := by
  unfold shiftOrder; split <;> omega

theorem shiftOrder_shiftOrder {len n : Nat} (near : Bool) (h : n < len) :
    shiftOrder near len (shiftOrder near len n) = n := by
  unfold shiftOrder; split <;> omega

/-! ### Segments of a head -/

/-- S of R149. -/
def State.segments (s : State) (x : Nat) : Nat := 2 ^ s.get (F.FTU_HEAD_CFG_SEG_LOG2 x)

/-- L of R149. -/
def State.segLen (s : State) (x : Nat) : Nat := s.nozzles x / s.segments x

/-- Whether the head shifts segment `j` near end first. -/
def State.nearFirst (s : State) (x j : Nat) : Bool := bit (s.get (F.FTU_HEAD_CFG_DIR x)) j

theorem State.segments_pos (s : State) (x : Nat) : 0 < s.segments x := Nat.two_pow_pos _

/-- The segments divide a head evenly. -/
theorem State.segLen_mul_segments {s : State} {x : Nat} (hseg : s.get (F.FTU_HEAD_CFG_SEG_LOG2 x) ≤ 2) :
    s.segLen x * s.segments x = s.nozzles x := by
  have hdvd : s.segments x ∣ 2 ^ 6 := Nat.pow_dvd_pow 2 (by omega)
  exact Nat.div_mul_cancel (Nat.dvd_mul_right_of_dvd hdvd _)

/-- The nozzle within the head at position `n` of segment `j`, in interleaved or contiguous segments. -/
def State.segNozzle (s : State) (x j n : Nat) : Nat :=
  if s.on (F.FTU_HEAD_CFG_SEG_MODE x) then n * s.segments x + j else j * s.segLen x + n

/-- The payload position of position `n` of segment `j`. -/
def State.segPosition (s : State) (x j n : Nat) : Nat :=
  shiftOrder (s.nearFirst x j) (s.segLen x) n * s.segments x + j

/-- The wiring of R149: position i is shift cycle i / S of segment i mod S. -/
theorem State.nozzleOf_eq (s : State) (x i : Nat) :
    s.nozzleOf x i = s.segNozzle x (i % s.segments x)
      (shiftOrder (s.nearFirst x (i % s.segments x)) (s.segLen x) (i / s.segments x)) := rfl

theorem State.payloadPos_of_interleaved {s : State} {x : Nat} (hmode : s.on (F.FTU_HEAD_CFG_SEG_MODE x) = true) (q : Nat) :
    s.payloadPos x q = s.segPosition x (q % s.segments x) (q / s.segments x) := by
  simp only [State.payloadPos, hmode, if_true]
  rfl

theorem State.payloadPos_of_contiguous {s : State} {x : Nat} (hmode : s.on (F.FTU_HEAD_CFG_SEG_MODE x) = false) (q : Nat) :
    s.payloadPos x q = s.segPosition x (q / s.segLen x) (q % s.segLen x) := by
  simp only [State.payloadPos, hmode, Bool.false_eq_true, if_false]
  rfl

theorem mul_add_div_of_lt {b c : Nat} (a : Nat) (h : c < b) : (a * b + c) / b = a := by
  rw [Nat.mul_comm, Nat.mul_add_div (Nat.zero_lt_of_lt h), Nat.div_eq_of_lt h, Nat.add_zero]

theorem mul_add_lt_mul {a b c d : Nat} (ha : a < d) (hc : c < b) : a * b + c < d * b :=
  (Nat.div_lt_iff_lt_mul (Nat.zero_lt_of_lt hc)).1 (by rwa [mul_add_div_of_lt a hc])

theorem State.segNozzle_lt {s : State} {x j n : Nat} (hseg : s.get (F.FTU_HEAD_CFG_SEG_LOG2 x) ≤ 2) (hj : j < s.segments x)
    (hn : n < s.segLen x) : s.segNozzle x j n < s.nozzles x := by
  rw [← s.segLen_mul_segments hseg]
  unfold State.segNozzle
  split
  · exact mul_add_lt_mul hn hj
  · rw [Nat.mul_comm (s.segLen x)]
    exact mul_add_lt_mul hj hn

/-- Every nozzle of a head lies in a segment. -/
theorem State.exists_segNozzle {s : State} {x q : Nat} (hseg : s.get (F.FTU_HEAD_CFG_SEG_LOG2 x) ≤ 2) (hq : q < s.nozzles x) :
    ∃ j n, j < s.segments x ∧ n < s.segLen x ∧ s.segNozzle x j n = q := by
  rw [← s.segLen_mul_segments hseg] at hq
  cases hmode : s.on (F.FTU_HEAD_CFG_SEG_MODE x) with
  | true =>
    refine ⟨q % s.segments x, q / s.segments x, Nat.mod_lt _ (s.segments_pos x),
      (Nat.div_lt_iff_lt_mul (s.segments_pos x)).2 hq, ?_⟩
    rw [State.segNozzle, if_pos hmode, Nat.div_add_mod']
  | false =>
    have hlen : 0 < s.segLen x := Nat.pos_of_lt_mul_right hq
    rw [Nat.mul_comm] at hq
    refine ⟨q / s.segLen x, q % s.segLen x, (Nat.div_lt_iff_lt_mul hlen).2 hq, Nat.mod_lt _ hlen, ?_⟩
    rw [State.segNozzle, if_neg (ne_true_of_eq_false hmode), Nat.div_add_mod']

/-- Both layouts give segment and segment position back from the nozzle. -/
theorem State.payloadPos_segNozzle {s : State} {x j n : Nat} (hj : j < s.segments x) (hn : n < s.segLen x) :
    s.payloadPos x (s.segNozzle x j n) = s.segPosition x j n := by
  cases hmode : s.on (F.FTU_HEAD_CFG_SEG_MODE x) with
  | true =>
    rw [State.payloadPos_of_interleaved hmode, State.segNozzle, if_pos hmode, Nat.mul_add_mod_of_lt hj, mul_add_div_of_lt _ hj]
  | false =>
    rw [State.payloadPos_of_contiguous hmode, State.segNozzle, if_neg (ne_true_of_eq_false hmode), Nat.mul_add_mod_of_lt hn,
      mul_add_div_of_lt _ hn]

/-- A position gives its segment and its shift cycle back, and the shift cycle its segment position. -/
theorem State.nozzleOf_segPosition {s : State} {x j n : Nat} (hj : j < s.segments x) (hn : n < s.segLen x) :
    s.nozzleOf x (s.segPosition x j n) = s.segNozzle x j n := by
  rw [State.nozzleOf_eq, State.segPosition, Nat.mul_add_mod_of_lt hj, mul_add_div_of_lt _ hj, shiftOrder_shiftOrder _ hn]

/-- The wiring leads from the position of a nozzle back to the nozzle. -/
theorem State.nozzleOf_payloadPos {s : State} {x q : Nat} (hseg : s.get (F.FTU_HEAD_CFG_SEG_LOG2 x) ≤ 2)
    (hq : q < s.nozzles x) : s.nozzleOf x (s.payloadPos x q) = q := by
  obtain ⟨j, n, hj, hn, rfl⟩ := State.exists_segNozzle hseg hq
  rw [State.payloadPos_segNozzle hj hn, State.nozzleOf_segPosition hj hn]

/-! ### The obligation -/

/-- Settles O17: a position is shift cycle c of segment j; the nozzle's segment and segment position are those of the wiring, and the
direction is applied twice, which restores c. -/
theorem payloadPositionsFollowTheWiring : Obligations.PayloadPositionsFollowTheWiring := by
  intro s x i hseg hi
  have hj : i % s.segments x < s.segments x := Nat.mod_lt _ (s.segments_pos x)
  have hc : i / s.segments x < s.segLen x := by
    rwa [Nat.div_lt_iff_lt_mul (s.segments_pos x), s.segLen_mul_segments hseg]
  have hn := shiftOrder_lt (s.nearFirst x (i % s.segments x)) hc
  rw [State.nozzleOf_eq]
  refine ⟨State.segNozzle_lt hseg hj hn, ?_⟩
  rw [State.payloadPos_segNozzle hj hn, State.segPosition, shiftOrder_shiftOrder _ hc, Nat.div_add_mod']

end Sys2Proof.Machine
end

section
/-! PROOFS. What a head is sent (06 R150, R152): each dose in three bits of the payload, and the payload in the words of the
fragments. -/

namespace Sys2Proof.Machine

/-! ### The dose at each position -/

/-- Putting a dose at one position leaves the dose of every other. -/
theorem bits_setBits_position {a b : Nat} (h : a ≠ b) (n v : Nat) :
    bits (setBits n (3 * a + 2) (3 * a) v) (3 * b + 2) (3 * b) = bits n (3 * b + 2) (3 * b) := by
  rcases Nat.lt_or_gt_of_ne h with h | h
  · exact bits_setBits_above _ _ _ _ _ _ (by omega) (by omega)
  · exact bits_setBits_below _ _ _ _ _ _ (by omega) (by omega) (by omega)

/-- Whether a dot is packed for head `x`. -/
def State.packs (s : State) (x : Nat) (d : Nat × Nat) : Bool := headOf d.1 = x && d.1 % 4096 < s.nozzles x

theorem State.packs_iff {s : State} {x : Nat} {d : Nat × Nat} :
    s.packs x d = true ↔ headOf d.1 = x ∧ d.1 % 4096 < s.nozzles x := by
  rw [State.packs, Bool.and_eq_true, decide_eq_true_iff, decide_eq_true_iff]

/-- The payload position of a dot of head `x`. -/
def State.dotPos (s : State) (x : Nat) (d : Nat × Nat) : Nat := s.payloadPos x (d.1 % 4096)

/-- One dot joins a payload. -/
def State.packDot (s : State) (x w : Nat) (d : Nat × Nat) : Nat :=
  if s.packs x d then setBits w (3 * s.dotPos x d + 2) (3 * s.dotPos x d) d.2 else w

theorem State.packHead_eq (s : State) (x : Nat) (dots : List (Nat × Nat)) :
    s.packHead x dots = dots.foldl (s.packDot x) 0 := rfl

/-- Dots of one head that name different nozzles have different positions. -/
theorem State.dotPos_ne {s : State} {x : Nat} {d e : Nat × Nat} (hseg : s.get (F.FTU_HEAD_CFG_SEG_LOG2 x) ≤ 2)
    (hd : s.packs x d = true) (he : s.packs x e = true) (hne : e.1 ≠ d.1) : s.dotPos x e ≠ s.dotPos x d := by
  intro hpos
  obtain ⟨hdx, hdq⟩ := State.packs_iff.1 hd
  obtain ⟨hex, heq⟩ := State.packs_iff.1 he
  have hq : e.1 % 4096 = d.1 % 4096 := by
    rw [← State.nozzleOf_payloadPos hseg heq, ← State.nozzleOf_payloadPos hseg hdq]
    exact congrArg (s.nozzleOf x) hpos
  unfold headOf at hdx hex
  omega

/-- A dot that is packed puts its dose into its three bits. -/
theorem State.bits_packDot_same {s : State} {x : Nat} {d : Nat × Nat} (hd : s.packs x d = true) (w : Nat) :
    bits (s.packDot x w d) (3 * s.dotPos x d + 2) (3 * s.dotPos x d) = d.2 % 8 := by
  have hput := bits_setBits_same w (3 * s.dotPos x d + 2) (3 * s.dotPos x d) d.2 (Nat.le_add_right _ _)
  rw [Nat.add_sub_cancel_left] at hput
  rw [State.packDot, if_pos hd]
  exact hput

/-- A dot of another nozzle leaves them. -/
theorem State.bits_packDot_other {s : State} {x : Nat} {d e : Nat × Nat} (hseg : s.get (F.FTU_HEAD_CFG_SEG_LOG2 x) ≤ 2)
    (hd : s.packs x d = true) (hne : e.1 ≠ d.1) (w : Nat) :
    bits (s.packDot x w e) (3 * s.dotPos x d + 2) (3 * s.dotPos x d) = bits w (3 * s.dotPos x d + 2) (3 * s.dotPos x d) := by
  unfold State.packDot
  split
  next he => exact bits_setBits_position (State.dotPos_ne hseg hd he hne) _ _
  next => rfl

/-- So do any number of dots of other nozzles. -/
theorem State.bits_foldl_packDot_others {s : State} {x : Nat} {d : Nat × Nat} (hseg : s.get (F.FTU_HEAD_CFG_SEG_LOG2 x) ≤ 2)
    (hd : s.packs x d = true) (dots : List (Nat × Nat)) (hne : ∀ e ∈ dots, e.1 ≠ d.1) (w : Nat) :
    bits (dots.foldl (s.packDot x) w) (3 * s.dotPos x d + 2) (3 * s.dotPos x d)
      = bits w (3 * s.dotPos x d + 2) (3 * s.dotPos x d) := by
  induction dots generalizing w with
  | nil => rfl
  | cons e dots ih =>
    obtain ⟨he, hdots⟩ := List.forall_mem_cons.1 hne
    rw [List.foldl_cons, ih hdots, State.bits_packDot_other hseg hd he]

/-- The payload holds the low three bits of every packed dot, where no nozzle is named twice. -/
theorem State.bits_packHead {s : State} {x : Nat} (hseg : s.get (F.FTU_HEAD_CFG_SEG_LOG2 x) ≤ 2) {dots : List (Nat × Nat)}
    (hnodup : (dots.map (·.1)).Nodup) {d : Nat × Nat} (hmem : d ∈ dots) (hd : s.packs x d = true) :
    bits (s.packHead x dots) (3 * s.dotPos x d + 2) (3 * s.dotPos x d) = d.2 % 8 := by
  obtain ⟨before, after, rfl⟩ := List.append_of_mem hmem
  have hafter : ∀ e ∈ after, e.1 ≠ d.1 := by
    rw [List.map_append, List.map_cons, List.nodup_append, List.nodup_cons] at hnodup
    obtain ⟨-, ⟨hfresh, -⟩, -⟩ := hnodup
    exact fun e he heq => hfresh (heq ▸ List.mem_map_of_mem he)
  rw [State.packHead_eq, List.foldl_append, List.foldl_cons, State.bits_foldl_packDot_others hseg hd after hafter,
    State.bits_packDot_same hd]

/-! ### The words of the fragments -/

/-- Data word `w` of a payload. -/
def payloadWord (payload w : Nat) : DWord := BitVec.ofNat 64 (payload / 2 ^ (64 * w))

theorem getLsbD_payloadWord (payload b : Nat) : (payloadWord payload (b / 64)).getLsbD (b % 64) = payload.testBit b := by
  have hlt : b % 64 < 64 := Nat.mod_lt _ (by decide)
  rw [payloadWord, BitVec.getLsbD_ofNat, Nat.testBit_div_two_pow, Nat.mod_add_div, decide_eq_true hlt,
    Bool.true_and]

/-- Cutting the numbers below `n` into runs of 64 keeps them all, in order. -/
theorem flatMap_runs_of_64 (n m : Nat) :
    (List.range m).flatMap (fun i => (List.range (min 64 (n - 64 * i))).map (64 * i + ·)) = List.range (min n (64 * m)) := by
  induction m with
  | zero => rw [Nat.mul_zero, Nat.min_zero, List.range_zero, List.flatMap_nil]
  | succ m ih =>
    rw [List.range_succ, List.flatMap_append, ih, List.flatMap_singleton]
    rcases Nat.le_total n (64 * m) with h | h
    · have hrun : n - 64 * m = 0 := by omega
      have hall : min n (64 * (m + 1)) = n := by omega
      rw [hrun, hall, Nat.min_eq_left h, Nat.min_zero, List.range_zero, List.map_nil, List.append_nil]
    · rw [Nat.min_eq_right h, ← List.range_add]
      congr 1
      omega

/-- The fragments carry the payload's words in order after their headers. -/
theorem fragments_words (h k nw payload : Nat) :
    (fragments h k nw payload).flatMap (·.drop 1) = (List.range nw).map (payloadWord payload) := by
  have hall : min nw (64 * ((nw + 63) / 64)) = nw := by omega
  rw [← hall, ← flatMap_runs_of_64, List.map_flatMap, hall]
  simp only [fragments, List.flatMap_map, List.drop_succ_cons, List.drop_zero, List.map_map, Function.comp_def, payloadWord]

/-! ### The obligation -/

/-- Settles O16: packing the dots one after another, each dose stays in its three bits, since the later nozzles have other positions
(the wiring, R149); the fragments cut the words into runs of 64. -/
theorem payloadHoldsEachDose : Obligations.PayloadHoldsEachDose := by
  intro s x k dots hnodup hseg
  rw [fragments_words]
  refine ⟨fun d hmem hdose hhead hq => ?_, rfl, ?_, fun b hb => ?_⟩
  · have h := State.bits_packHead hseg hnodup hmem (State.packs_iff.2 ⟨hhead, hq⟩)
    rwa [Nat.mod_eq_of_lt hdose] at h
  · rw [List.length_map, List.length_range]
  · have hw : b / 64 < s.payloadWords x := by omega
    rw [List.getD_eq_getElem?_getD, List.getElem?_map, List.getElem?_range hw]
    exact getLsbD_payloadWord _ b

end Sys2Proof.Machine
end

section
/-! PROOFS. Commands of the drop gates (07 R177–R192), the half-band chains, camera ingest and inspection (07 R197, 08 R211–R220, 09
R238–R269): each completes under its conditions. -/

namespace Sys2Proof.Machine

/-- Settles O46: two register writes, and three events whose guards are the conditions. -/
theorem dropGateCommandsComplete : Obligations.DropGateCommandsComplete := by
  refine ⟨?cicOutput, ?channelRestart, ?scanArm, ?scanAbort, ?resultRecordWrite⟩
  case cicOutput | channelRestart | resultRecordWrite =>
    intros
    rename_i hs hheld hguard
    dsimp only [exec]
    exact evCmd_happens _ _ hs hheld hguard _
  case scanArm | scanAbort =>
    intros
    rename_i hs h
    dsimp only [exec]
    exact regCmd_takes h _ _ hs _

/-- Settles O47: register writes, events whose guards are the conditions, and events that act on the line that they find; the data port of
the IPL's tables is written or read as the access says. -/
theorem cameraAndInspectionCommandsComplete : Obligations.CameraAndInspectionCommandsComplete := by
  refine ⟨?hbChainEnable, ?cinPortEnable, ?cinPortDisable, ?cameraPacketReceive, ?expCommit, ?telemetrySilent, ?iplEnable,
    ?iplDisable, ?rruEnable, ?rruDisable, ?stitchedLineForm, ?referenceLineStart, ?referenceLineComplete, ?iplTableWrite,
    ?iplTableRead⟩
  case hbChainEnable | cinPortEnable | cinPortDisable | expCommit | iplEnable | iplDisable | rruEnable | rruDisable =>
    intros
    rename_i hs h
    dsimp only [exec]
    exact regCmd_takes h _ _ hs _
  case iplTableWrite =>
    intro dt who s₀ s v hs h
    exact regCmd_takes h s₀ dt hs fun s => s.tblAccess who (some v)
  case iplTableRead =>
    intro dt who s₀ s hs h
    exact readCmd_takes h s₀ dt hs fun s => s.tblAccess who none
  case cameraPacketReceive | telemetrySilent =>
    intros
    rename_i hs hheld hguard
    dsimp only [exec]
    exact evCmd_happens _ _ hs hheld hguard _
  case stitchedLineForm =>
    intro dt s₀ s t hs hheld hformable henabled
    have hguard : (s.get F.IPL_STAT_STATE != unitDisabled && s.formable.isSome) = true := by
      rw [hformable, Option.isSome_some, Bool.and_true, bne_iff_ne]
      exact henabled
    dsimp only [exec, execStitchedLineForm]
    rw [evCmd_happens s₀ dt hs hheld hguard]
    simp only [hformable]
  case referenceLineStart =>
    intro dt s₀ s r hs hheld hready
    dsimp only [exec, execReferenceLineStart]
    exact evCmd_happens_found _ _ hs hheld hready (by simp only [hready])
  case referenceLineComplete =>
    intro dt s₀ s r rest hs hheld hbusy
    have hguard : (s.rru.busy != []) = true := by
      rw [hbusy]
      rfl
    dsimp only [exec, execReferenceLineComplete]
    rw [evCmd_happens s₀ dt hs hheld hguard]
    simp only [hbusy]

end Sys2Proof.Machine
end

section
/-! PROOFS. The Defect Queue (10 R278–R292): what a change of the stored packets touches, what DROP_REST discards, and the commands
completing under their conditions. -/

namespace Sys2Proof.Machine

/-! ### The stored packets replaced -/

/-- An event that some condition calls for: nothing but registers and events changes, whether it is raised or not. -/
theorem State.Raised.raiseIf (s : State) (c : Prop) [Decidable c] (src : Nat) : s.Raised (if c then s.raise src else s) := by
  split
  · exact .raise s src
  · exact .rfl' s

/-- An event that some condition calls for leaves the registers outside the PMU alone. -/
theorem State.raiseIf_word (s : State) (c : Prop) [Decidable c] (src : Nat) {j : Nat} (hj : inPmu j = false) :
    (if c then s.raise src else s).word j = s.word j := by
  split
  · exact s.raise_word src j hj
  · rfl

/-- Other packets stored: beyond the queue itself, only registers and events follow (R290, R292). -/
theorem State.Raised.setQueue (s : State) (l : List Stored) :
    State.Raised { s with dfq := { s.dfq with stored := l } } (s.setQueue l) :=
  (State.Raised.put _ F.DFQ_STAT_FILL _).trans <| (State.Raised.put _ F.DFQ_STAT_EMPTY _).trans <|
    (State.Raised.put _ F.DFQ_PEAK _).trans <| (State.Raised.raiseIf _ _ (576 + 3)).trans (.raiseIf _ _ 576)

/-- Of the registers outside the PMU, only DFQ_STAT and DFQ_PEAK follow what is stored. -/
theorem State.setQueue_word (s : State) (l : List Stored) {j : Nat} (hstat : j ≠ F.DFQ_STAT_FILL.off) (hpeak : j ≠ F.DFQ_PEAK.off)
    (hj : inPmu j = false) : (s.setQueue l).word j = s.word j := by
  have hputs (n e k : Nat) : (((s.put F.DFQ_STAT_FILL n).put F.DFQ_STAT_EMPTY e).put F.DFQ_PEAK k).word j = s.word j := by
    rw [State.word_put_other _ F.DFQ_PEAK _ _ (by simpa [Fld.covers, F.DFQ_PEAK] using hpeak),
      State.word_put_other _ F.DFQ_STAT_EMPTY _ _ (by simpa [Fld.covers, F.DFQ_STAT_EMPTY, F.DFQ_STAT_FILL] using hstat),
      State.word_put_other _ F.DFQ_STAT_FILL _ _ (by simpa [Fld.covers, F.DFQ_STAT_FILL] using hstat)]
  exact (State.raiseIf_word _ _ _ hj).trans <| (State.raiseIf_word _ _ _ hj).trans (hputs _ _ _)

/-! ### DROP_REST (R282) -/

theorem State.dropRest_of_outside {s : State} {r : Nat} (h : s.dfq.stored.find? (fun q => q.begun == some r) = none) :
    s.dropRest r = s := by
  simp only [State.dropRest, h]

/-- The queue without the packets that `r` has begun, and `n` records counted in DFQ_DROPPED. -/
def State.dropCounted (s : State) (r n : Nat) : State :=
  (s.setQueue (s.dfq.stored.filter fun q => q.begun != some r)).bump F.DFQ_DROPPED n

theorem State.Raised.dropCounted (s : State) (r n : Nat) :
    State.Raised { s with dfq := { s.dfq with stored := s.dfq.stored.filter fun q => q.begun != some r } } (s.dropCounted r n) :=
  (State.Raised.setQueue s _).trans (.bump _ F.DFQ_DROPPED n)

/-- DFQ_DROPPED wraps at its 32 bits (R549). -/
theorem State.dropCounted_get_dropped (s : State) (r n : Nat) :
    (s.dropCounted r n).get F.DFQ_DROPPED = (s.get F.DFQ_DROPPED + n) % 2 ^ 32 := by
  have hqueue (l : List Stored) : (s.setQueue l).get F.DFQ_DROPPED = s.get F.DFQ_DROPPED :=
    State.get_of_word (by decide) (s.setQueue_word l (by decide) (by decide) (by decide))
  rw [← hqueue]
  exact State.get_put_same _ F.DFQ_DROPPED _ (by decide) (by decide)

/-- Registers outside the DFQ and the PMU stay. -/
theorem State.dropCounted_word (s : State) (r n : Nat) {j : Nat} (hdfq : j < 0x00900000 ∨ 0x00A00000 ≤ j) (hj : inPmu j = false) :
    (s.dropCounted r n).word j = s.word j := by
  have hdropped : F.DFQ_DROPPED.covers j = false := by simp [Fld.covers, F.DFQ_DROPPED]; omega
  have hstat : j ≠ F.DFQ_STAT_FILL.off := by simp only [F.DFQ_STAT_FILL]; omega
  have hpeak : j ≠ F.DFQ_PEAK.off := by simp only [F.DFQ_PEAK]; omega
  exact (State.word_put_other _ F.DFQ_DROPPED _ _ hdropped).trans (s.setQueue_word _ hstat hpeak hj)

/-- Inside a packet: the packet goes, its records are counted, and they are noted for a read of the same cycle (R286). -/
theorem State.dropRest_of_inside {s : State} {r : Nat} {p : Stored} (h : s.dfq.stored.find? (fun q => q.begun == some r) = some p) :
    s.dropRest r =
      { s.dropCounted r p.recs.length with
        dfq := { (s.dropCounted r p.recs.length).dfq with dropped := [(r, p.recs, (s.dropCounted r p.recs.length).now)] } } := by
  simp only [State.dropRest, h, State.dropCounted]

/-- A DROP_REST that is taken discards the rest of its requester's packet. -/
theorem exec_dropRest {dt : Nat} {who : Requester} {s₀ s : State} (hs : s = s₀.wait dt) (h : s.TakesWrite who O.DFQ_CTRL) :
    exec (.dropRest dt who) s₀ = .next (s.dropRest (s.dfqReq who)) :=
  regCmd_takes h s₀ dt hs fun s => s.dropRest (s.dfqReq who)

/-- A queue without the packets that a requester has begun holds none that it has begun. -/
theorem find?_begun_filter (l : List Stored) (r : Nat) :
    (l.filter fun q => q.begun != some r).find? (fun q => q.begun == some r) = none := by
  rw [List.find?_eq_none]
  intro q hq
  obtain ⟨-, hother⟩ := List.mem_filter.1 hq
  simpa using hother

/-- Settles O18: the requester's packet goes from the queue as a change of the stored packets, and its records are counted; outside a
packet there is nothing to discard. -/
theorem dropRestDiscardsThePacket : Obligations.DropRestDiscardsThePacket := by
  intro dt who s₀ s hs h
  rw [exec_dropRest hs h]
  refine ⟨fun p hinside => ⟨_, rfl, ?inside⟩, fun houtside => by rw [State.dropRest_of_outside houtside]⟩
  rw [State.dropRest_of_inside hinside]
  have hcount := s.dropCounted_get_dropped (s.dfqReq who) p.recs.length
  have hword (o : Nat) (ho : o < 0x00900000 ∨ (0x00A00000 ≤ o ∧ o < 0x01500000) ∨ 0x01600000 ≤ o) :
      (s.dropCounted (s.dfqReq who) p.recs.length).word o = s.word o :=
    s.dropCounted_word _ _ (by omega) (by simp [inPmu]; omega)
  obtain ⟨e, regs, q, hframe⟩ := State.Raised.dropCounted s (s.dfqReq who) p.recs.length
  rw [hframe] at hcount hword ⊢
  exact ⟨hcount, rfl, find?_begun_filter _ _, rfl, rfl, rfl, hword, rfl, rfl, rfl⟩

/-- Settles O48: three register writes, one register read, and two events whose guards are the conditions. -/
theorem defectQueueCommandsComplete : Obligations.DefectQueueCommandsComplete := by
  refine ⟨?dfqAdmit, ?dfqRecordTake, ?dropRest, ?flush, ?pushCommit, ?drainPacketWrite⟩
  case dfqAdmit =>
    intro dt s₀ s hs hheld hdue
    exact evCmd_happens (guard := fun s => s.offersDue != []) s₀ dt hs hheld (bne_iff_ne.2 hdue) State.serveOffer
  case dfqRecordTake =>
    intro dt who s₀ s hs h
    exact readCmd_takes h s₀ dt hs fun s => s.readTake who
  case dropRest =>
    intro dt who s₀ s hs h
    exact exec_dropRest hs h
  case flush =>
    intro dt who s₀ s hs h
    exact regCmd_takes h s₀ dt hs State.flushQueue
  case pushCommit =>
    intro dt who s₀ s hs h
    exact regCmd_takes h s₀ dt hs fun s => s.pushCommit (s.dfqReq who)
  case drainPacketWrite =>
    intro dt s₀ s hs hheld hhead
    exact evCmd_happens (guard := fun s => s.drainHead.isSome) s₀ dt hs hheld hhead State.drainPacket

end Sys2Proof.Machine
end

section
/-! PROOFS. The fabric image and the splice (11): what a GO does in each state of the FAB (R303), and the commands completing under
their conditions. -/

namespace Sys2Proof.Machine

/-! ### GO (R303) -/

/-- A state that differs from another in its registers and the FAB only, and in no register outside the FAB. -/
def State.FabMoved (s t : State) : Prop :=
  (∃ r f, t = { s with regs := r, fab := f }) ∧ ∀ j, j < 0x00A00000 ∨ 0x00B00000 ≤ j → t.word j = s.word j

theorem State.FabMoved.trans {a b c : State} (h : a.FabMoved b) (k : b.FabMoved c) : a.FabMoved c := by
  obtain ⟨⟨r, f, rfl⟩, hword⟩ := h
  obtain ⟨⟨r', f', rfl⟩, hword'⟩ := k
  exact ⟨⟨r', f', rfl⟩, fun j hj => (hword' j hj).trans (hword j hj)⟩

theorem State.FabMoved.setFab (s : State) (f : Fab) : s.FabMoved { s with fab := f } := ⟨⟨s.regs, f, rfl⟩, fun _ _ => rfl⟩

theorem State.FabMoved.put (s : State) (f : Fld) (v : Nat) (hf : 0x00A00000 ≤ f.off ∧ f.off + 4 < 0x00B00000 := by decide) :
    s.FabMoved (s.put f v) := by
  refine ⟨⟨(s.put f v).regs, s.fab, ?_⟩, fun j hj => State.word_put_other _ _ _ _ ?_⟩
  · unfold State.put
    split <;> rfl
  · simp [Fld.covers]
    omega

/-- An accepted load clears the FAB's status registers and sets up its own state. -/
theorem State.FabMoved.fabAccept (s : State) (base len : Nat) : s.FabMoved (s.fabAccept base len) := by
  have hpos : s.FabMoved (s.put F.FAB_POS 0) := .put s F.FAB_POS 0
  have hstat := ((hpos.trans (.put _ F.FAB_STAT_SPLICE_VALID 0)).trans (.put _ F.FAB_STAT_SWITCHED 0)).trans
    (.put _ F.FAB_STAT_MISSED 0)
  have hmask := (hstat.trans (.put _ F.FAB_STAT_TWIN_GO 0)).trans (.put _ F.FAB_MASK 0)
  exact ((hmask.trans (.setFab _ _)).trans (.put _ F.FAB_QUEUED _)).trans (.put _ F.FAB_STAT_STATE _)

theorem State.fabAccept_base (s : State) (base len : Nat) : (s.fabAccept base len).fab.base = base := by
  simp [State.fabAccept, State.showQueued, State.setFabState]

theorem State.fabAccept_len (s : State) (base len : Nat) : (s.fabAccept base len).fab.len = len := by
  simp [State.fabAccept, State.showQueued, State.setFabState]

/-- The state field holds the seven states of the FAB. -/
theorem State.fabState_setFabState (s : State) {st : Nat} (h : st < 8) : (s.setFabState st).fabState = st :=
  (State.get_put_same _ F.FAB_STAT_STATE _ (by decide) (by decide)).trans (Nat.mod_eq_of_lt h)

theorem State.fabState_fabAccept (s : State) (base len : Nat) : (s.fabAccept base len).fabState = fbVerifying :=
  State.fabState_setFabState _ (by decide)

/-- An error of the FAB leaves its state field alone. -/
theorem State.fabState_logErr (s : State) (cls cause : Nat) (d : List Nat) :
    (s.logErr siteFab cls cause d).fabState = s.fabState := by
  refine State.get_of_word (by decide) (State.logErr_word _ _ _ _ _ _ (by decide) (by decide) fun f hf => ?_)
  cases hf
  decide

/-- In IDLE, GO accepts a load from an aligned base and of a length within bounds, and is an error with any other. -/
theorem State.fabGo_of_idle {s : State} (hidle : s.fabState = fbIdle) :
    s.fabGo =
      if s.get F.FAB_LOAD_BASE % 64 = 0
          ∧ s.get F.FAB_LOAD_LEN % 8 = 0 ∧ 48 ≤ s.get F.FAB_LOAD_LEN ∧ s.get F.FAB_LOAD_LEN ≤ 2 ^ 30 then
        s.fabAccept (s.get F.FAB_LOAD_BASE) (s.get F.FAB_LOAD_LEN)
      else s.logErr siteFab 0x01 0x001 [] := by
  rw [State.fabGo, if_neg fun hbusy => hbusy hidle]
  simp only [Bool.and_eq_true, decide_eq_true_eq, and_assoc]

theorem State.fabGo_of_busy {s : State} (hbusy : s.fabState ≠ fbIdle) : s.fabGo = s := if_pos hbusy

theorem exec_fabGo {dt : Nat} {who : Requester} {s₀ s : State} (hs : s = s₀.wait dt) (h : s.TakesWrite who O.FAB_CTRL) :
    exec (.fabGo dt who) s₀ = .next s.fabGo :=
  regCmd_takes h s₀ dt hs State.fabGo

/-- Settles O19: a GO that is taken accepts the load, is refused or is ignored, as the FAB's state and the load registers say; an accepted
load touches the FAB alone, and an error of the FAB leaves its state as it was. -/
theorem fabGoStartsALoad : Obligations.FabGoStartsALoad := by
  intro dt who s₀ s hs h
  rw [exec_fabGo hs h]
  refine ⟨fun hidle hbase hlen => ⟨_, rfl, ?accepted⟩, fun hidle hbad => ⟨_, rfl, ?refused⟩,
    fun hbusy => by rw [State.fabGo_of_busy hbusy]⟩
  case accepted =>
    rw [State.fabGo_of_idle hidle, if_pos ⟨hbase, hlen⟩]
    refine ⟨s.fabState_fabAccept _ _, s.fabAccept_base _ _, s.fabAccept_len _ _, ?_⟩
    obtain ⟨⟨r, f, hframe⟩, hword⟩ := State.FabMoved.fabAccept s (s.get F.FAB_LOAD_BASE) (s.get F.FAB_LOAD_LEN)
    refine ⟨fun o ho => hword o (by omega), ?_⟩
    rw [hframe]
    exact ⟨rfl, rfl, rfl, rfl⟩
  case refused =>
    rw [State.fabGo_of_idle hidle, if_neg hbad]
    exact ⟨rfl, (s.fabState_logErr _ _ _).trans hidle, State.logErr_fab s _ _ _ _⟩

/-! ### The commands -/

/-- Settles O49: register writes, and events whose guards are the conditions; the end of an arm's checks acts on the arm under way, a
station switches at its launch or at station 9's moment, and a SPLICE message acts by its tag. -/
theorem spliceCommandsComplete : Obligations.SpliceCommandsComplete := by
  refine ⟨?fabGo, ?verifyPassEnd, ?applyPassEnd, ?fabAbort, ?fabArm, ?armCheckEnd, ?spliceWcoWrite, ?globalSwitch, ?launchSwitch,
    ?commitQueueWrite, ?fabRearm, ?twinSpliceDecision, ?spliceMessage, ?spliceMessageBadTag⟩
  case fabGo =>
    intro dt who s₀ s hs h
    exact exec_fabGo hs h
  case fabAbort | fabArm | fabRearm | spliceWcoWrite =>
    intros
    rename_i hs h
    dsimp only [exec]
    exact regCmd_takes h _ _ hs _
  case verifyPassEnd | applyPassEnd =>
    intros
    rename_i hs hheld hstate
    dsimp only [exec, execVerifyPassEnd, execApplyPassEnd]
    exact evCmd_happens _ _ hs hheld (by simp only [hstate, beq_self_eq_true]) _
  case armCheckEnd =>
    intro dt s₀ s rearm hs hheld harming
    dsimp only [exec, execArmCheckEnd]
    exact evCmd_happens_found _ _ hs hheld harming (by simp only [harming])
  case globalSwitch =>
    intro dt st s₀ s hs hheld hst hdue
    dsimp only [exec, execStationSwitch]
    simp only [if_pos hst]
    exact evCmd_happens (guard := State.globalDue) s₀ dt hs hheld hdue State.globalMoment
  case launchSwitch =>
    intro dt st s₀ s hs hheld hst hdue
    dsimp only [exec, execStationSwitch]
    simp only [if_neg hst]
    exact evCmd_happens (guard := fun s => s.launchDue (s.stationGen st)) s₀ dt hs hheld hdue fun s =>
      s.launchStation (s.stationGen st) (s.gen (s.stationGen st)).nextK
        (s.linePos (s.stationGen st) (s.gen (s.stationGen st)).nextK) st
  case commitQueueWrite =>
    intro dt s₀ s hs hheld hready
    exact evCmd_happens (guard := fun s => s.fab.ready != []) s₀ dt hs hheld (bne_iff_ne.2 hready) State.landQueued
  case twinSpliceDecision =>
    intro dt s₀ s hs hheld hdue
    exact evCmd_happens (guard := fun s => s.undecided && decide (s.decisionPoint ≤ (s.wco : Int))) s₀ dt hs hheld hdue
      State.twinDecide
  case spliceMessage =>
    intro dt msg s₀ s hs hheld htwin
    dsimp only [exec, execTwinSpliceMessage]
    simp only [if_true]
    exact evCmd_happens (guard := State.twinSplice) s₀ dt hs hheld htwin fun s => s.spliceMessage msg
  case spliceMessageBadTag =>
    intro dt msg s₀ s hs hheld htwin
    dsimp only [exec, execTwinSpliceMessage]
    simp only [Bool.false_eq_true, if_false]
    exact evCmd_happens (guard := State.twinSplice) s₀ dt hs hheld htwin fun s => s.logErr siteTwn 0x05 0x041 []

end Sys2Proof.Machine
end

section
/-! PROOFS. The words of the Cregar engines (12 R333–R335): a spelled word holds its instruction's opcode, func and operands in the
fields of its form, so that it decodes to that instruction with those operands. -/

namespace Sys2Proof.Machine

/-! ### The fields of a spelled word (R333) -/

/-- A word holds func and operands in the fields of a form, and 0 in the form's reserved fields. In I form the func is the kind
of a shift, which stands above its six bits of amount. -/
def Form.Holds (w func : Nat) (x : Operands) : Form → Prop
  | .r => insD w = x.d ∧ insA w = x.a ∧ insB w = x.b ∧ insFuncR w = func ∧ bits w 31 27 = 0
  | .i => insD w = x.d ∧ insA w = x.a ∧ insImm16 w = x.imm + 64 * func
  | .b => insD w = x.d ∧ insA w = x.a ∧ insImm16 w = x.imm
  | .j => insOff26 w = x.imm
  | .s => insD w = x.d ∧ insA w = x.a ∧ insFuncS w = func ∧ insImm8 w = x.imm
  | .v => insD w = x.d ∧ insA w = x.a ∧ insB w = x.b ∧ insFuncV w = func ∧ insU w = x.u ∧ insEsz w = x.esz ∧ insPm w = x.pm
  | .vm => insD w = x.d ∧ insA w = x.a ∧ insImm13 w = x.imm ∧ insPm w = x.pm

/-- What the funcs of a form stay below. -/
def Form.funcBound : Form → Nat
  | .r => 64
  | .i => 4
  | .s => 256
  | .v => 32
  | .b | .j | .vm => 1

/-- The opcode and the func of every instruction fit their fields. -/
theorem Op.spelling_lt (o : Op) : o.spelling.2.1 < 64 ∧ o.spelling.2.2 < o.form.funcBound := by
  cases o <;> decide

/-- Only the shifts by an immediate have a kind (R335). -/
theorem Op.kind_eq_zero_or_shift {o : Op} (hform : o.form = .i) :
    o.spelling.2.2 = 0 ∨ o = .slli ∨ o = .srli ∨ o = .srai := by
  revert hform
  cases o <;> decide

/-- The immediate of an I form fits its field together with the kind above it: the amount of a shift has six bits. -/
theorem Op.kind_fits {o : Op} {x : Operands} (hform : o.form = .i) (h : o.fits x = true) :
    x.imm + 64 * o.spelling.2.2 < 2 ^ 16 := by
  obtain ⟨hin, hallows⟩ := Bool.and_eq_true_iff.1 h
  have himm : x.imm < 2 ^ 16 := by
    rw [hform] at hin
    simp [Operands.inForm] at hin
    omega
  obtain hkind | rfl | rfl | rfl := Op.kind_eq_zero_or_shift hform
  · omega
  all_goals
    simp [Op.allows] at hallows
    simp [Op.spelling]
    omega

/-- A spelled word has 32 bits and holds opcode, func and operands in the fields of its form. -/
theorem encodeCregar_holds {o : Op} {x : Operands} (h : o.fits x = true) :
    encodeCregar o x < 2 ^ 32 ∧ insOp (encodeCregar o x) = o.spelling.2.1
      ∧ o.form.Holds (encodeCregar o x) o.spelling.2.2 x := by
  have hlt := o.spelling_lt
  have hkind := fun hform => Op.kind_fits (o := o) hform h
  obtain ⟨hin, -⟩ := Bool.and_eq_true_iff.1 h
  unfold encodeCregar
  unfold Op.form at *
  generalize o.spelling = sp at *
  obtain ⟨form, op, func⟩ := sp
  cases form
  all_goals
    simp [Form.Holds, Form.funcBound, Operands.inForm] at hlt hin hkind ⊢
    simp [insD, insA, insB, insOp, insFuncR, insFuncS, insFuncV, insImm16, insImm8, insImm13, insOff26, insU, insEsz, insPm, bits,
      bit]
  case v => cases x.u <;> simp [b2n] <;> omega
  all_goals omega

/-! ### What the immediate's own fields are (R335) -/

theorem bits_kind (w : Nat) : bits w 23 22 = insImm16 w / 64 % 4 := by
  simp [bits, insImm16]
  omega

theorem bits_above_kind (w : Nat) : bits w 31 24 = insImm16 w / 256 := by
  simp [bits, insImm16]
  omega

theorem bits_extLen (w : Nat) : bits w 21 16 = insImm16 w % 64 := by
  simp [bits, insImm16]

theorem bits_extReserved (w : Nat) : bits w 24 22 = insImm16 w / 64 % 8 := by
  simp [bits, insImm16]
  omega

theorem bits_extPos (w : Nat) : bits w 31 26 = insImm16 w / 1024 := by
  simp [bits, insImm16]
  omega

theorem bits_above_halfword (w : Nat) : bits w 15 13 = insA w / 4 := by
  simp [bits, insA]
  omega

/-! ### The round trip -/

/-- The opcode and the func of a spelled word name its instruction; for a shift by an immediate, the kind does. -/
theorem opOf_encodeCregar {o : Op} {x : Operands} (h : o.fits x = true) : opOf (encodeCregar o x) = some o := by
  obtain ⟨-, hop, hholds⟩ := encodeCregar_holds h
  obtain ⟨-, hallows⟩ := Bool.and_eq_true_iff.1 h
  generalize encodeCregar o x = w at hop hholds
  cases o
  case slli | srli | srai =>
    obtain ⟨-, -, himm⟩ := hholds
    simp [Op.allows] at hallows
    have hkind := bits_kind w
    rw [himm, Nat.add_mul_div_left _ _ (by decide), Nat.div_eq_of_lt hallows] at hkind
    simp [Op.spelling] at hop hkind
    simp [opOf, hop, hkind]
  all_goals
    simp [Op.spelling] at hop
    simp [Op.form, Op.spelling, Form.Holds] at hholds
    simp [opOf, opAlu, opSys, opCache, opVec, hop, hholds]

/-- The reserved fields and selectors of a spelled word are as its instruction's row has them. -/
theorem fieldsOk_encodeCregar {o : Op} {x : Operands} (h : o.fits x = true) : fieldsOk (encodeCregar o x) o = true := by
  obtain ⟨-, -, hholds⟩ := encodeCregar_holds h
  obtain ⟨-, hallows⟩ := Bool.and_eq_true_iff.1 h
  generalize encodeCregar o x = w at hholds
  cases o
  all_goals
    simp [Op.form, Op.spelling, Form.Holds] at hholds
    simp [Op.allows] at hallows
    simp [fieldsOk, bits_above_kind, bits_extLen, bits_extReserved, bits_extPos, bits_above_halfword, hholds, hallows]
  all_goals omega

/-- The word of a well-formed instruction spells that instruction. -/
theorem cregar_encodeCregar {o : Op} {x : Operands} (h : o.fits x = true) : cregar (encodeCregar o x) = some o := by
  rw [cregar, opOf_encodeCregar h, Option.filter_some, fieldsOk_encodeCregar h]
  rfl

/-- The immediate that a word of I form has for operand: of a shift it is the amount, below the kind. -/
theorem imm_operandsOf {o : Op} {x : Operands} {w : Nat} (hform : o.form = .i) (hallows : o.allows x = true)
    (himm : insImm16 w = x.imm + 64 * o.spelling.2.2) : (operandsOf o w).imm = x.imm := by
  cases o
  case slli | srli | srai =>
    simp [Op.allows] at hallows
    show insImm16 w % 64 = x.imm
    rw [himm, Nat.add_mul_mod_self_left, Nat.mod_eq_of_lt hallows]
  case addi | andi | ori | ins16 | ext | ldb | ldh | ldw | ldd | stb | sth | stw | std => exact himm
  all_goals cases hform

/-- A spelled word holds the operands that its instruction's form has, and the others are 0. -/
theorem operandsOf_encodeCregar {o : Op} {x : Operands} (h : o.fits x = true) : operandsOf o (encodeCregar o x) = x := by
  obtain ⟨-, -, hholds⟩ := encodeCregar_holds h
  obtain ⟨hin, hallows⟩ := Bool.and_eq_true_iff.1 h
  generalize encodeCregar o x = w at hholds ⊢
  have himm := imm_operandsOf (o := o) (x := x) (w := w)
  unfold operandsOf at himm ⊢
  obtain ⟨d, a, b, imm, u, esz, pm⟩ := x
  cases hform : o.form
  all_goals
    simp [hform, Form.Holds] at hholds
    simp [hform, Operands.inForm] at hin
    simp [hform, hallows, hholds] at himm
    simp [hholds, hin, himm]

/-- Settles O25: the word has 32 bits, opcode and func name the instruction, its reserved fields are as its row has them, and each field
of its form holds its operand. -/
theorem cregarWordsRoundTrip : Obligations.CregarWordsRoundTrip := fun _ _ h =>
  ⟨(encodeCregar_holds h).1, cregar_encodeCregar h, operandsOf_encodeCregar h⟩

end Sys2Proof.Machine
end

section
/-! PROOFS. How the instructions of the Cregar engines (12 R334–R338) end: one lemma for each way, by which every instruction and control
command completes with its own effect. -/

namespace Sys2Proof.Machine

/-! ### How an instruction that runs ends -/

section
variable {s u v : State} {e : Nat} {o : Op} {w : Nat} {body : Nat → State → EngRes}

/-- An instruction that touches no memory and does not branch retires. -/
theorem engCmd_retires (h : s.Runs e o w u) (s₀ : State) (dt : Nat) (hs : s = s₀.wait dt) (hbody : body w u = .ok v) :
    engCmd dt e o body s₀ = .next (u.retired e o w v) := by
  rw [engCmd_runs h s₀ dt hs, hbody, State.engFinish_ok]

/-- An access that succeeds retires with its address in the record. -/
theorem engCmd_accesses (h : s.Runs e o w u) (s₀ : State) (dt : Nat) (hs : s = s₀.wait dt) {a : DWord} {miss : Bool}
    (hbody : body w u = .done v (u.dataOf e a) miss) : engCmd dt e o body s₀ = .next (u.retiredAccess e o w a miss v) := by
  rw [engCmd_runs h s₀ dt hs, hbody, State.engFinish_access]

/-- A branch that is not taken goes on with the next instruction. -/
theorem engCmd_skips (h : s.Runs e o w u) (s₀ : State) (dt : Nat) (hs : s = s₀.wait dt) {target : DWord}
    (hbody : body w u = .branch v false target) : engCmd dt e o body s₀ = .next (u.branched e o w target false v) := by
  rw [engCmd_runs h s₀ dt hs, hbody, State.engFinish_skipped]

/-- A branch that is taken to where the engine can fetch goes there. -/
theorem engCmd_jumps (h : s.Runs e o w u) (s₀ : State) (dt : Nat) (hs : s = s₀.wait dt) {target : DWord}
    (hbody : body w u = .branch v true target) (htarget : u.goodTarget e target) :
    engCmd dt e o body s₀ = .next (u.branched e o w target true v) := by
  rw [engCmd_runs h s₀ dt hs, hbody, State.engFinish_taken _ _ _ _ _ _ htarget]

/-- An access that faults leaves the engine FAULTED. -/
theorem engCmd_faults (h : s.Runs e o w u) (s₀ : State) (dt : Nat) (hs : s = s₀.wait dt) {cause : Nat} {a : DWord}
    (hbody : body w u = .fault v cause a) : engCmd dt e o body s₀ = .next (v.engFault e cause a) := by
  rw [engCmd_runs h s₀ dt hs, hbody, State.engFinish_fault]

end

/-- Settles O51: each of the 26 instructions retires with its result in its destination. -/
theorem engineScalarInstructionsComplete : Obligations.EngineScalarInstructionsComplete := by
  refine ⟨?add, ?sub, ?and, ?or, ?xor, ?sll, ?srl, ?sra, ?slt, ?sltu, ?min, ?max, ?popc, ?mul, ?div, ?divu, ?rem, ?remu, ?addi,
    ?andi, ?ori, ?slli, ?srli, ?srai, ?ins16, ?ext⟩
  all_goals
    intro dt e s₀ s w u hs h
    exact engCmd_retires h s₀ dt hs rfl

/-- VLD from a local or cluster memory. -/
theorem vldBody_own {e : Fin 192} {w : Nat} {u v : State} {bs : List Byte} (hfault : u.vectorFault e (u.addrVm e w) = none)
    (hown : u.region e (u.addrVm e w).toNat ≠ .dev) (hread : u.ememRead e (u.region e (u.addrVm e w).toNat) 64 = (some bs, v)) :
    vldBody e w u = .done (v.setV e (insD w) (loadedVec u e w bs)) (u.dataOf e (u.addrVm e w)) false := by
  simp only [vldBody, hfault, State.ememLoad, hread, loadedVec]

/-- VST to a local or cluster memory. -/
theorem vstBody_own {e : Fin 192} {w : Nat} {u : State} (hfault : u.vectorFault e (u.addrVm e w) = none)
    (hown : u.region e (u.addrVm e w).toNat ≠ .dev) :
    vstBody e w u = .done (u.ememWrite (u.region e (u.addrVm e w).toNat) (activeBytes (u.preg e (insPm w)) (u.vreg e (insD w))))
      (u.dataOf e (u.addrVm e w)) false := by
  simp only [vstBody, hfault]

/-- Settles O54: the register instructions retire with their results; a load or a store that meets no fault ends with its access. -/
theorem engineVectorInstructionsComplete : Obligations.EngineVectorInstructionsComplete := by
  refine ⟨?vadd, ?vsub, ?vmul, ?vmin, ?vmax, ?vand, ?vor, ?vshl, ?vshr, ?vabsd, ?vcmpeq, ?vcmplt, ?vsel, ?vredadd, ?vbcast, ?vextr,
    ?pand, ?pnot, ?vldDev, ?vldOwn, ?vstDev, ?vstOwn⟩
  case vldDev =>
    intro dt e s₀ s w u bs miss v hs h hfault hdev hload
    refine engCmd_accesses h s₀ dt hs ?_
    simp only [vldBody, hfault, hdev, hload, loadedVec]
  case vldOwn =>
    intro dt e s₀ s w u bs v hs h hfault hown hread
    exact engCmd_accesses h s₀ dt hs (vldBody_own hfault hown hread)
  case vstDev =>
    intro dt e s₀ s w u bs miss v hs h hfault hdev hstore
    refine engCmd_accesses h s₀ dt hs ?_
    simp only [vstBody, hfault, hdev, hstore]
  case vstOwn =>
    intro dt e s₀ s w u hs h hfault hown
    exact engCmd_accesses h s₀ dt hs (vstBody_own hfault hown)
  all_goals
    intro dt e s₀ s w u hs h
    exact engCmd_retires h s₀ dt hs rfl

/-- What an atomic stores of the value that it makes: nothing where it makes none. -/
def State.atomicPut (s : State) (r : Region) : Option DWord → State
  | some v => s.ememWrite r ((toBytes 8 v.toNat).map some)
  | none => s

/-- An atomic on an aligned doubleword that the engine may reach: what it reads goes to s[d], and what it makes of that is stored. -/
theorem atomicBody_done {e : Fin 192} {f : Nat → DWord → State → Option DWord} {w : Nat} {u v : State} {bs : List Byte}
    (haligned : (u.sreg e (insA w)).toNat % 8 = 0) (hatomic : (u.region e (u.sreg e (insA w)).toNat).atomic = true)
    (hmay : u.engKeptOut e (u.region e (u.sreg e (insA w)).toNat) = false)
    (hread : u.ememRead e (u.region e (u.sreg e (insA w)).toNat) 8 = (some bs, v)) :
    atomicBody e f w u = .done
      ((v.atomicPut (u.region e (u.sreg e (insA w)).toNat) (f w (BitVec.ofNat 64 (ofBytes bs)) u)).setS e (insD w)
        (BitVec.ofNat 64 (ofBytes bs))) (u.dataOf e (u.sreg e (insA w))) false := by
  simp only [atomicBody, haligned, hatomic, hmay, hread, ne_eq, not_true_eq_false, Bool.not_true, Bool.false_eq_true, if_false]
  cases f w (BitVec.ofNat 64 (ofBytes bs)) u <;> rfl

/-- Settles O53: loads and stores end as the access that they make does, and an atomic with the doubleword that it reads. -/
theorem engineMemoryInstructionsComplete : Obligations.EngineMemoryInstructionsComplete := by
  refine ⟨?ldb, ?ldh, ?ldw, ?ldd, ?stb, ?sth, ?stw, ?std, ?amoadd, ?cas⟩
  case ldb | ldh | ldw | ldd =>
    intro dt e s₀ s w u bs miss v hs h hload
    refine engCmd_accesses h s₀ dt hs ?_
    simp only [loadBody, hload]
  case stb | sth | stw | std =>
    intro dt e s₀ s w u bs miss v hs h hstore
    refine engCmd_accesses h s₀ dt hs ?_
    simp only [storeBody, hstore]
  case amoadd =>
    intro dt e s₀ s w u bs v hs h haligned hatomic hmay hread
    exact engCmd_accesses h s₀ dt hs (atomicBody_done haligned hatomic hmay hread)
  case cas =>
    intro dt e s₀ s w u bs v hs h haligned hatomic hmay hread
    refine engCmd_accesses h s₀ dt hs ((atomicBody_done haligned hatomic hmay hread).trans ?_)
    split <;> rfl

/-! ### Cache instructions -/

section
variable {e w : Nat} {f : State → Nat → DLine → State} {back : Bool} {u : State}

/-- A cache instruction in device memory acts on the line at s[a], where it is not to write back a line whose bytes are lost. -/
theorem cacheOp_line (hdev : u.region e (u.sreg e (insA w)).toNat = .dev) {l : DLine}
    (hline : u.dline e ((u.sreg e (insA w)).toNat / 64) = some l) (hgood : (back && l.lost) = false) :
    cacheOp e f back w u = .ok (f u ((u.sreg e (insA w)).toNat / 64) l) := by
  simp only [cacheOp, hdev, hline, hgood, Bool.false_eq_true, if_false]

/-- A cache instruction on a line that the cache does not hold does nothing. -/
theorem cacheOp_absent (hdev : u.region e (u.sreg e (insA w)).toNat = .dev)
    (hline : u.dline e ((u.sreg e (insA w)).toNat / 64) = none) : cacheOp e f back w u = .ok u := by
  simp only [cacheOp, hdev, hline]

/-- A cache instruction does nothing in a region that is not cached. -/
theorem cacheOp_uncached (hdev : u.region e (u.sreg e (insA w)).toNat ≠ .dev)
    (hmapped : u.region e (u.sreg e (insA w)).toNat ≠ .none) : cacheOp e f back w u = .ok u := by
  simp only [cacheOp]

end

/-- Where no dirty bytes are lost, DC.CLEANALL writes back every line and keeps it. -/
theorem foldl_cleanLine_of_kept {e : Nat} (lines : List (Nat × DLine)) (hgood : ∀ p ∈ lines, p.2.lost = false) (s : State) :
    lines.foldl (fun (s : State) p => if p.2.lost then (s.dropLine e p.1).startBack e p.1 p.2 else s.cleanLine e p.1 p.2) s
      = lines.foldl (fun (s : State) p => s.cleanLine e p.1 p.2) s := by
  refine List.foldl_ext _ _ _ fun s p hp => ?_
  simp only [hgood p hp, Bool.false_eq_true, if_false]

/-- Settles O52: a branch goes to its target or on to the next instruction, a cache instruction acts on the line at its address where the
cache holds it, and each other instruction has its own effect. -/
theorem engineFlowInstructionsComplete : Obligations.EngineFlowInstructionsComplete := by
  refine ⟨?beqTaken, ?beq, ?bneTaken, ?bne, ?bltTaken, ?blt, ?bgeTaken, ?bge, ?bltuTaken, ?bltu, ?bgeuTaken, ?bgeu, ?j, ?jal, ?jalr,
    ?fence, ?isync, ?wait, ?waitSleeps, ?signal, ?rdsys, ?halt, ?dcClean, ?dcCleanOwn, ?dcInv, ?dcInvOwn, ?dcCinv, ?dcCinvOwn,
    ?dcCleanall, ?icInvall⟩
  case beqTaken | bneTaken | bltTaken | bgeTaken | bltuTaken | bgeuTaken =>
    intro dt e s₀ s w u hs h hcond htarget
    exact engCmd_jumps h s₀ dt hs (by simp only [formB, hcond]) htarget
  case beq | bne | blt | bge | bltu | bgeu =>
    intro dt e s₀ s w u hs h hcond
    exact engCmd_skips h s₀ dt hs (by simp only [formB, hcond])
  case j | jal | jalr =>
    intro dt e s₀ s w u hs h htarget
    exact engCmd_jumps h s₀ dt hs rfl htarget
  case fence | isync | signal | rdsys | icInvall =>
    intro dt e s₀ s w u hs h
    exact engCmd_retires h s₀ dt hs rfl
  case wait =>
    intro dt e s₀ s w u hs h hcond
    exact engCmd_retires h s₀ dt hs (by simp only [hcond, if_true])
  case waitSleeps =>
    intro dt e s₀ s w u hs h hcond
    exact (engCmd_runs h s₀ dt hs _).trans (by simp only [hcond, State.engFinish, Bool.false_eq_true, if_false])
  case halt =>
    intro dt e s₀ s w u hs h
    exact engCmd_runs h s₀ dt hs _
  case dcClean | dcCinv =>
    intro dt e s₀ s w u hs h hdev hgood
    refine engCmd_retires h s₀ dt hs ?_
    split
    next l hline => exact cacheOp_line hdev hline (hgood l hline)
    next hline => exact cacheOp_absent hdev hline
  case dcInv =>
    intro dt e s₀ s w u hs h hdev
    refine engCmd_retires h s₀ dt hs ?_
    split
    next l hline => exact cacheOp_line hdev hline rfl
    next hline => exact cacheOp_absent hdev hline
  case dcCleanOwn | dcInvOwn | dcCinvOwn =>
    intro dt e s₀ s w u hs h hdev hmapped
    exact engCmd_retires h s₀ dt hs (cacheOp_uncached hdev hmapped)
  case dcCleanall =>
    intro dt e s₀ s w u hs h hgood
    refine engCmd_retires h s₀ dt hs ?_
    have hnone : ((u.engine e).dc.find? fun p => p.2.lost) = none := List.find?_eq_none.2 fun p hp => by simp [hgood p hp]
    simp only [hnone, foldl_cleanLine_of_kept _ hgood]

/-- Settles O50: three register writes, and events of an engine whose guards are the conditions. -/
theorem engineControlCommandsComplete : Obligations.EngineControlCommandsComplete := by
  refine ⟨?waitEnd, ?illegalWord, ?illegalFetch, ?start, ?stop, ?stopComplete, ?off, ?offComplete, ?initDone⟩
  case waitEnd =>
    intro dt e s₀ s w deadline hs hheld hwaiting hoff hwait hholds
    dsimp only [exec, execEngWaitEnd]
    rw [evCmd_happens s₀ dt hs hheld]
    · simp only [hwait]
    · simp only [hwaiting, hoff, hwait, hholds, beq_self_eq_true, Bool.not_false, Bool.and_self]
  case illegalWord =>
    intro dt e s₀ s w u hs hheld hissuing hfetch hword
    dsimp only [exec, execEngIllegal]
    rw [evCmd_happens (guard := fun s => s.issuing e) s₀ dt hs hheld hissuing]
    simp only [hfetch, hword, Option.isNone_none, if_true]
  case illegalFetch =>
    intro dt e s₀ s cause u hs hheld hissuing hfetch
    dsimp only [exec, execEngIllegal]
    rw [evCmd_happens (guard := fun s => s.issuing e) s₀ dt hs hheld hissuing]
    simp only [hfetch]
  case start | stop | off =>
    intro dt who w v s₀ s hs h
    dsimp only [exec]
    exact regCmd_takes h s₀ dt hs _
  case stopComplete | offComplete =>
    intro dt e s₀ s hs hheld hguard
    dsimp only [exec]
    exact evCmd_happens s₀ dt hs hheld hguard _
  case initDone =>
    intro dt s₀ s hs hheld hstat
    dsimp only [exec]
    exact evCmd_happens (guard := fun s => !s.on F.ENG_STAT) s₀ dt hs hheld (by simp only [hstat, Bool.not_false]) _

end Sys2Proof.Machine
end

section
/-! PROOFS. The elements of a vector (12 R336): what a vector of given elements holds at each place. -/

namespace Sys2Proof.Machine

/-! ### Elements of a vector (R336) -/

/-- The number that the first `n` elements make up: element `i` stands at weight 2^(width × i). -/
def elemSum (esz : Nat) (f : Nat → Nat) (n : Nat) : Nat :=
  (List.range n).foldl (fun n i => n + 2 ^ (elemBits esz * i) * (f i % 2 ^ elemBits esz)) 0

theorem elemSum_succ (esz : Nat) (f : Nat → Nat) (n : Nat) :
    elemSum esz f (n + 1) = elemSum esz f n + 2 ^ (elemBits esz * n) * (f n % 2 ^ elemBits esz) := by
  rw [elemSum, List.range_succ, List.foldl_append]
  rfl

/-- The first `n` elements stay below the weight of the next. -/
theorem elemSum_lt (esz : Nat) (f : Nat → Nat) (n : Nat) : elemSum esz f n < 2 ^ (elemBits esz * n) := by
  induction n with
  | zero => simp [elemSum]
  | succ n ih =>
    have hdigit : f n % 2 ^ elemBits esz + 1 ≤ 2 ^ elemBits esz := Nat.mod_lt _ (Nat.two_pow_pos _)
    calc elemSum esz f (n + 1)
        < 2 ^ (elemBits esz * n) + 2 ^ (elemBits esz * n) * (f n % 2 ^ elemBits esz) := by
          rw [elemSum_succ]
          omega
      _ = 2 ^ (elemBits esz * n) * (f n % 2 ^ elemBits esz + 1) := by ring
      _ ≤ 2 ^ (elemBits esz * n) * 2 ^ elemBits esz := Nat.mul_le_mul_left _ hdigit
      _ = 2 ^ (elemBits esz * (n + 1)) := by rw [← Nat.pow_add, Nat.mul_succ]

/-- The number reads back each element at its weight. -/
theorem elemSum_digit (esz : Nat) (f : Nat → Nat) {i n : Nat} (h : i < n) :
    elemSum esz f n / 2 ^ (elemBits esz * i) % 2 ^ elemBits esz = f i % 2 ^ elemBits esz := by
  induction n with
  | zero => cases h
  | succ n ih =>
    rw [elemSum_succ]
    obtain hlt | rfl := Nat.lt_succ_iff_lt_or_eq.1 h
    · obtain ⟨k, rfl⟩ := Nat.exists_eq_add_of_lt hlt
      have hweight : 2 ^ (elemBits esz * (i + k + 1)) = 2 ^ (elemBits esz * i) * (2 ^ elemBits esz * 2 ^ (elemBits esz * k)) := by
        ring
      rw [hweight, Nat.mul_assoc, Nat.add_mul_div_left _ _ (Nat.two_pow_pos _), Nat.mul_assoc, Nat.add_mul_mod_self_left, ih hlt]
    · rw [Nat.add_mul_div_left _ _ (Nat.two_pow_pos _), Nat.div_eq_of_lt (elemSum_lt esz f i), Nat.zero_add, Nat.mod_mod]

/-- The elements fit into the 512 bits of a vector. -/
theorem elemBits_mul_elemCount_le (esz : Nat) : elemBits esz * elemCount esz ≤ 512 := by
  have h := Nat.mul_div_le 64 (2 ^ esz)
  unfold elemBits elemCount
  rw [Nat.mul_assoc]
  omega

theorem toNat_ofElems (esz : Nat) (f : Nat → Nat) : (ofElems esz f).toNat = elemSum esz f (elemCount esz) := by
  have hle := Nat.pow_le_pow_right Nat.two_pos (elemBits_mul_elemCount_le esz)
  exact (BitVec.toNat_ofNat _ _).trans (Nat.mod_eq_of_lt (Nat.lt_of_lt_of_le (elemSum_lt esz f _) hle))

/-- An element of a vector of given elements. -/
theorem elem_ofElems (esz : Nat) (f : Nat → Nat) {i : Nat} (h : i < elemCount esz) :
    elem esz (ofElems esz f) i = f i % 2 ^ elemBits esz := by
  rw [elem, toNat_ofElems, elemSum_digit esz f h]

theorem elem_lt (esz : Nat) (v : VWord) (i : Nat) : elem esz v i < 2 ^ elemBits esz := Nat.mod_lt _ (Nat.two_pow_pos _)

/-- An element of a merge: the new one where the predicate names it, the old one elsewhere. -/
theorem elem_mergeElems (esz : Nat) (p : DWord) (old : VWord) (f : Nat → Nat) {i : Nat} (h : i < elemCount esz) :
    elem esz (mergeElems esz p old f) i = if active esz p i then f i % 2 ^ elemBits esz else elem esz old i := by
  rw [mergeElems, elem_ofElems _ _ h]
  split
  · rfl
  · exact Nat.mod_eq_of_lt (elem_lt _ _ _)

/-- Settles O23: the elements of a merge read back one by one, the active ones new and the others old. -/
theorem vectorWritesActiveElements : Obligations.VectorWritesActiveElements := by
  intro f u e w i hi
  rw [vecResult, elem_mergeElems _ _ _ _ hi, active, Nat.mul_comm]
  rfl

end Sys2Proof.Machine
end

section
/-! PROOFS. The registers and the states of a Cregar engine (12 R323, R340, R341, R343): the hard-wired registers, and what a start does to
an engine that is OFF. -/

namespace Sys2Proof.Machine

/-! ### Registers of an engine (R323) -/

theorem State.engine_setEngine (s : State) (e e' : Nat) (g : Engine) :
    (s.setEngine e g).engine e' = if e' = e then g else s.engine e' := Sparse.get_set _ _ _ _ _

@[simp] theorem State.engine_setEngine_same (s : State) (e : Nat) (g : Engine) : (s.setEngine e g).engine e = g :=
  Sparse.get_set_same _ _ _ _

theorem State.engine_setEngine_other (s : State) {e e' : Nat} (g : Engine) (h : e' ≠ e) :
    (s.setEngine e g).engine e' = s.engine e' := Sparse.get_set_other _ _ _ _ _ h

@[simp] theorem State.sreg_zero (s : State) (e : Nat) : s.sreg e 0 = 0 := if_pos rfl

@[simp] theorem State.preg_zero (s : State) (e : Nat) : s.preg e 0 = BitVec.allOnes 64 := if_pos rfl

@[simp] theorem State.setS_zero (s : State) (e : Nat) (v : DWord) : s.setS e 0 v = s := if_pos rfl

@[simp] theorem State.setP_zero (s : State) (e : Nat) (v : DWord) : s.setP e 0 v = s := if_pos rfl

theorem State.sreg_setS_same (s : State) (e : Nat) {r : Nat} (h : r ≠ 0) (v : DWord) : (s.setS e r v).sreg e r = v := by
  simp [State.setS, State.sreg, h]

theorem State.sreg_setS_other (s : State) (e : Nat) {q r : Nat} (h : q ≠ r) (v : DWord) :
    (s.setS e r v).sreg e q = s.sreg e q := by
  by_cases hr : r = 0
  · rw [hr, State.setS_zero]
  · simp [State.setS, State.sreg, hr, Sparse.get_set_other _ _ _ _ _ h]

theorem State.preg_setP_same (s : State) (e : Nat) {r : Nat} (h : r ≠ 0) (v : DWord) : (s.setP e r v).preg e r = v := by
  simp [State.setP, State.preg, h]

theorem State.preg_setP_other (s : State) (e : Nat) {q r : Nat} (h : q ≠ r) (v : DWord) :
    (s.setP e r v).preg e q = s.preg e q := by
  by_cases hr : r = 0
  · rw [hr, State.setP_zero]
  · simp [State.setP, State.preg, hr, Sparse.get_set_other _ _ _ _ _ h]

/-- Settles O20: register 0 is decided before the table of registers is looked at, and the table reads back what was put there. -/
theorem hardWiredEngineRegisters : Obligations.HardWiredEngineRegisters := fun s e _ v p =>
  ⟨s.sreg_zero e, s.preg_zero e, s.setS_zero e v, s.setP_zero e p,
    fun h => ⟨s.sreg_setS_same e h v, s.preg_setP_same e h p⟩, fun _ h => ⟨s.sreg_setS_other e h v, s.preg_setP_other e h p⟩⟩

/-! ### States of an engine (R340) -/

@[simp] theorem State.setEngState_eng (s : State) (e st : Nat) : (s.setEngState e st).eng = s.eng := by
  simp [State.setEngState, State.putEngBit]

@[simp] theorem State.setEngState_emem (s : State) (e st : Nat) : (s.setEngState e st).emem = s.emem := by
  simp [State.setEngState, State.putEngBit]

@[simp] theorem State.setEngState_engine (s : State) (e st e' : Nat) : (s.setEngState e st).engine e' = s.engine e' := by
  simp [State.engine]

/-- A change of an engine's state writes its ENGe_STAT and its word of ENG_RUNNING. -/
theorem State.setEngState_word (s : State) (e st : Nat) {j : Nat} (hstat : j ≠ 0x00B01000 + 0x40 * e)
    (hrunning : j ≠ 0x00B000A0 + 0x4 * (e / 32)) : (s.setEngState e st).word j = s.word j := by
  rw [State.setEngState, State.putEngBit, State.word_put_other _ _ _ _ (by simp [Fld.covers, F.ENG_RUNNING, hrunning]),
    State.word_put_other _ _ _ _ (by simp [Fld.covers, F.ENGINE_STAT_STATE, hstat])]

theorem State.engState_setEngState (s : State) (e : Nat) {st : Nat} (h : st < 8) : (s.setEngState e st).engState e = st := by
  have hrunning : (F.ENG_RUNNING (e / 32)).covers (F.ENGINE_STAT_STATE e).off = false := by
    simp [Fld.covers, F.ENG_RUNNING, F.ENGINE_STAT_STATE]
    omega
  rw [State.engState, State.setEngState, State.putEngBit, State.get_put_other _ _ _ _ hrunning (by simp [F.ENGINE_STAT_STATE]),
    State.get_put_same _ _ _ (by simp [F.ENGINE_STAT_STATE]) (by simp [F.ENGINE_STAT_STATE])]
  exact Nat.mod_eq_of_lt h

theorem State.pc_setEngState (s : State) (e st : Nat) : (s.setEngState e st).pc e = s.pc e := by
  rw [State.pc, State.get_of_words (s := s) (s.setEngState_word e st ?_ ?_) (s.setEngState_word e st ?_ ?_), State.pc] <;>
    simp only [F.ENGINE_PC] <;> omega

/-! ### A start (R340, R341, R343) -/

/-- The engine that a start from OFF gives: its number in s1, ENGe_ARG in s2, every other register 0, and the caches empty (R341). -/
def State.freshEngine (s : State) (e : Nat) : Engine :=
  { x := Sparse.set (fun _ => 0) (Sparse.set (fun _ => 0) [] 1 (BitVec.ofNat 64 e)) 2 (BitVec.ofNat 64 (s.get (F.ENGINE_ARG e)))
    startAt := some s.now }

section
variable {s : State} {e : Nat}

/-- A start in the ENG cycle of an OFF does nothing (R343). -/
theorem State.engStart_of_offCycle (h : s.thisEng (s.engine e).offAt = true) : s.engStart e = s :=
  if_pos (by simp only [h, Bool.or_true, Bool.true_or])

variable (hstate : s.engState e = egOff) (hoff : (s.engine e).off = false) (hcycle : s.thisEng (s.engine e).offAt = false)
include hstate hoff hcycle

/-- A start from OFF that is not refused (R340, R341). -/
theorem State.engStart_of_off (hinit : s.on F.ENG_STAT = true) (hpc : (s.pc e).toNat % 4 = 0) :
    s.engStart e = (s.setEngine e (s.freshEngine e)).setEngState e egRunning := by
  simp [State.engStart, hstate, hoff, hcycle, hinit, hpc, egOff, egRunning, egWaiting, State.freshEngine]

/-- A start before INIT_DONE, or with a PC that is no multiple of 4, is refused (R339, R341). -/
theorem State.engStart_of_bad (hbad : s.on F.ENG_STAT = false ∨ (s.pc e).toNat % 4 ≠ 0) : s.engStart e = s.engRefuse e := by
  obtain hinit | hpc := hbad
  · simp [State.engStart, hstate, hoff, hcycle, hinit, egOff, egRunning, egWaiting]
  · simp [State.engStart, hstate, hoff, hcycle, hpc, egOff, egRunning, egWaiting]

end

/-- Settles O24: a start either does nothing, is refused, or puts the fresh engine in the place of the old one. -/
theorem engineStartSetsRegisters : Obligations.EngineStartSetsRegisters := by
  intro s e hstate hoff
  refine ⟨State.engStart_of_offCycle, fun hcycle => ⟨?starts, State.engStart_of_bad hstate hoff hcycle⟩⟩
  intro hinit hpc
  rw [State.engStart_of_off hstate hoff hcycle hinit hpc]
  refine ⟨State.engState_setEngState _ _ (by decide), ?s1, ?s2, ?others, ?vectors, ?predicates, State.pc_setEngState _ _ _, by simp⟩
  case s1 => simp [State.sreg, State.freshEngine, Sparse.get_set]
  case s2 => simp [State.sreg, State.freshEngine]
  case others =>
    intro r hr
    simp [State.sreg, State.freshEngine, Sparse.get_set, show r ≠ 1 by omega, show r ≠ 2 by omega, Sparse.get]
  case vectors =>
    intro r
    simp [State.vreg, State.freshEngine, Sparse.get]
  case predicates =>
    intro r hr
    simp [State.preg, State.freshEngine, Sparse.get, show r ≠ 0 by omega]

end Sys2Proof.Machine
end

section
/-! PROOFS. What an instruction of a Cregar engine leaves alone (12 R323, R325, R335, R338, R339): fetch, the caches, retirement and a
fault, each by a lemma of its own; then the frame of the scalar instructions, and the misaligned access. -/

namespace Sys2Proof.Machine

/-! ### What fetch, the caches and retirement leave alone -/

/-- Whether the word at an offset is part of some engine's ENGe_PC. -/
def isPcWord (j : Nat) : Prop := 0x00B01000 ≤ j ∧ j < 0x00B04000 ∧ (j % 0x40 = 8 ∨ j % 0x40 = 12)

/-- `t` has the registers and the PC of every engine, the local and cluster memories, the DMA channels and the queue of `s`. -/
structure State.KeepsCores (s t : State) : Prop where
  regs : ∀ e, (t.engine e).x = (s.engine e).x ∧ (t.engine e).v = (s.engine e).v ∧ (t.engine e).p = (s.engine e).p
  emem : t.emem = s.emem
  dma : t.dma = s.dma
  pending : t.pending = s.pending
  word : ∀ j, isPcWord j → t.word j = s.word j

namespace State.KeepsCores

theorem of_eng {s t : State} (heng : t.eng = s.eng) (hemem : t.emem = s.emem) (hdma : t.dma = s.dma)
    (hpending : t.pending = s.pending) (hword : ∀ j, isPcWord j → t.word j = s.word j) : s.KeepsCores t :=
  ⟨fun e => by simp [State.engine, heng], hemem, hdma, hpending, hword⟩

theorem refl (s : State) : s.KeepsCores s := of_eng rfl rfl rfl rfl fun _ _ => rfl

theorem trans {a b c : State} (h : a.KeepsCores b) (k : b.KeepsCores c) : a.KeepsCores c := by
  refine ⟨fun e => ?_, k.emem.trans h.emem, k.dma.trans h.dma, k.pending.trans h.pending, fun j hj =>
    (k.word j hj).trans (h.word j hj)⟩
  obtain ⟨hx, hv, hp⟩ := h.regs e
  obtain ⟨kx, kv, kp⟩ := k.regs e
  exact ⟨kx.trans hx, kv.trans hv, kp.trans hp⟩

theorem foldl {α : Type} {f : State → α → State} (h : ∀ s a, State.KeepsCores s (f s a)) (l : List α) (s : State) :
    s.KeepsCores (l.foldl f s) := by
  induction l generalizing s with
  | nil => exact refl s
  | cons a l ih => exact (h s a).trans (ih _)

/-- A fold that carries an answer beside the state. -/
theorem foldl_snd {α β : Type} {f : β × State → α → β × State} (h : ∀ b a, State.KeepsCores b.2 (f b a).2) (l : List α)
    (b : β × State) : b.2.KeepsCores (l.foldl f b).2 := by
  induction l generalizing b with
  | nil => exact refl b.2
  | cons a l ih => exact (h b a).trans (ih _)

theorem setEngine (s : State) (e : Nat) {g : Engine} (hx : g.x = (s.engine e).x) (hv : g.v = (s.engine e).v)
    (hp : g.p = (s.engine e).p) : s.KeepsCores (s.setEngine e g) := by
  refine ⟨fun e' => ?_, rfl, rfl, rfl, fun _ _ => rfl⟩
  by_cases h : e' = e
  · rw [h, State.engine_setEngine_same]
    exact ⟨hx, hv, hp⟩
  · rw [State.engine_setEngine_other _ _ h]
    exact ⟨rfl, rfl, rfl⟩

theorem put (s : State) {f : Fld} (v : Nat) (h : ∀ j, isPcWord j → f.covers j = false) : s.KeepsCores (s.put f v) :=
  of_eng (by simp) (by simp) (by simp) (by simp) fun j hj => State.word_put_other _ _ _ _ (h j hj)

/-- A register beyond those of the engines. -/
theorem putAbove (s : State) {f : Fld} (v : Nat) (h : 0x00B04000 ≤ f.off) : s.KeepsCores (s.put f v) := by
  refine put s v fun j hj => ?_
  obtain ⟨-, hj, -⟩ := hj
  simp [Fld.covers]
  omega

theorem putEccCorr (s : State) (e v : Nat) : s.KeepsCores (s.put (F.ENGINE_ECC_CORR e) v) := by
  refine put s v fun j hj => ?_
  obtain ⟨-, -, hj⟩ := hj
  simp [Fld.covers, F.ENGINE_ECC_CORR]
  omega

theorem inPmu_of_isPcWord {j : Nat} (h : isPcWord j) : inPmu j = false := by
  obtain ⟨-, hj, -⟩ := h
  simp [inPmu]
  omega

theorem raise (s : State) (src : Nat) : s.KeepsCores (s.raise src) :=
  of_eng (by simp) (by simp) (by simp) (by simp) fun _ hj => State.raise_word _ _ _ (inPmu_of_isPcWord hj)

theorem tally (s : State) (u i e n : Nat) : s.KeepsCores (s.tally u i e n) :=
  of_eng (by simp) (by simp) (by simp) (by simp) fun _ hj => State.tally_word _ _ _ _ _ _ (inPmu_of_isPcWord hj)

theorem logErr (s : State) {e : Site} (cls cause : Nat) (d : List Nat) (hring : e.ring + 0x14 ≤ 0x00B01000 ∨ 0x00B04000 ≤ e.ring)
    (hflag : ∀ f, e.flag = some f → f.off + 4 < 0x00B01000 ∨ 0x00B04000 ≤ f.off) : s.KeepsCores (s.logErr e cls cause d) := by
  refine of_eng (by simp) (by simp) (by simp) (by simp) fun j hj => ?_
  have hpmu := inPmu_of_isPcWord hj
  obtain ⟨hlow, hhigh, -⟩ := hj
  refine State.logErr_word _ _ _ _ _ _ hpmu (by omega) fun f hf => ?_
  have hoff := hflag f hf
  simp [Fld.covers]
  omega

theorem logMem (s : State) (n cls cause : Nat) (d : List Nat) : s.KeepsCores (s.logErr (siteMem n) cls cause d) :=
  logErr s cls cause d (by simp [siteMem]) (by simp [siteMem, F.MEM_ERR])

theorem draw (s : State) : s.KeepsCores s.draw.2 := of_eng rfl rfl rfl rfl fun _ _ => rfl

theorem setChan (s : State) (n : Nat) (c : MemChan) : s.KeepsCores (s.setChan n c) := of_eng rfl rfl rfl rfl fun _ _ => rfl

theorem setFlaw (s : State) (b : Nat) (f : Flaw) : s.KeepsCores (s.setFlaw b f) := of_eng rfl rfl rfl rfl fun _ _ => rfl

theorem countBytes (s : State) (slot n : Nat) : s.KeepsCores (s.countBytes slot n) := by
  unfold State.countBytes
  split
  · exact of_eng rfl rfl rfl rfl fun _ _ => rfl
  · exact refl s

theorem setEnabled (s : State) (d : Nat) (l : List (Option Byte)) : s.KeepsCores (s.setEnabled d l) := by
  induction l generalizing s d with
  | nil => exact refl s
  | cons a l ih =>
    cases a with
    | none => exact ih _ _
    | some v => exact (of_eng rfl rfl rfl rfl fun _ _ => rfl : s.KeepsCores (s.setByte d v)).trans (ih _ _)

/-! Device memory. -/

theorem turnAway (s : State) (d : Nat) : s.KeepsCores (s.turnAway d) := by
  unfold State.turnAway
  dsimp only
  have h := putAbove s (s.get (F.MC_FENCED_ACC (s.channelOf d)) + 1) (f := F.MC_FENCED_ACC (s.channelOf d))
    (Nat.le_add_right_of_le (by decide))
  split
  · exact (h.trans (setChan _ _ _)).trans (logMem _ _ _ _ _)
  · exact h

theorem wakeChannel (s : State) (n : Nat) : s.KeepsCores (s.wakeChannel n) := by
  unfold State.wakeChannel
  dsimp only
  refine trans ?_ (setChan _ _ _)
  refine trans ?_ (putAbove _ _ (Nat.le_add_right_of_le (by decide)))
  split
  · exact putAbove _ _ (Nat.le_add_right_of_le (by decide))
  · exact refl s

theorem rowCounts (s : State) (n : Nat) (hit full capped : Bool) : s.KeepsCores (s.rowCounts n hit full capped) := by
  have hhit : s.KeepsCores (s.bump (if hit then F.MC_ROW_HITS n else F.MC_ROW_MISSES n)) := by
    cases hit <;> exact putAbove _ _ (Nat.le_add_right_of_le (by decide))
  have hfull : ∀ t : State, t.KeepsCores (t.bump (F.MC_RD_REFRESHES n)) :=
    fun t => putAbove _ _ (Nat.le_add_right_of_le (by decide))
  have hcapped : ∀ t : State, t.KeepsCores (t.bump (F.MC_CAP_EVENTS n)) :=
    fun t => putAbove _ _ (Nat.le_add_right_of_le (by decide))
  cases full <;> cases capped
  · exact hhit
  · exact hhit.trans (hcapped _)
  · exact hhit.trans (hfull _)
  · exact (hhit.trans (hfull _)).trans (hcapped _)

theorem access (s : State) (n b row : Nat) (q : RowQueue) : s.KeepsCores (s.access n b row q).2 :=
  (rowCounts s n _ _ _).trans (setChan _ _ _)

theorem rowQueue (s : State) (q : Option RowQueue) : s.KeepsCores (s.rowQueue q).2 := by
  cases q
  · exact draw s
  · exact refl s

theorem memAccess (s : State) (d k : Nat) (q : Option RowQueue) : s.KeepsCores (s.memAccess d k q) :=
  ((rowQueue s q).trans ((wakeChannel _ _).trans ((tally _ _ _ _ _).trans (access _ _ _ _ _)))).trans (tally _ _ _ _ _)

theorem findFlaw (s : State) (b : Nat) : s.KeepsCores (s.findFlaw b).2 := by
  unfold State.findFlaw
  split
  · exact (draw s).trans (setFlaw _ _ _)
  · exact refl s

theorem readBlock (s : State) (b : Nat) (q : Option RowQueue) : s.KeepsCores (s.readBlock b q).2 := by
  have hcorrected : ∀ (t : State) (n k : Nat), t.KeepsCores (t.bump (F.MC_ECC_CORR n) k) :=
    fun t n k => putAbove _ _ (Nat.le_add_right_of_le (by decide))
  have hbad : ∀ (t : State) (n d : Nat), t.KeepsCores ((t.bump (F.MC_ECC_UNCORR n)).put (F.MC_LAST_UNCORR n) d) :=
    fun t n d => (putAbove _ _ (Nat.le_add_right_of_le (by decide))).trans (putAbove _ _ (Nat.le_add_right_of_le (by decide)))
  have haccess := memAccess s (64 * b) 0 q
  unfold State.readBlock
  dsimp only
  generalize s.memAccess (64 * b) 0 q = t at haccess
  have hfound := haccess.trans (findFlaw t b)
  generalize t.findFlaw b = found at hfound
  split
  · exact refl s
  · split
    · exact turnAway s _
    · split
      · exact haccess
      · split
        · exact hfound
        · exact hfound
        · exact hfound.trans (hcorrected _ _ _)
        · exact hfound.trans (hcorrected _ _ _)
        · exact hfound.trans (hcorrected _ _ _)
        · exact (hfound.trans (hbad _ _ _)).trans (logMem _ _ _ _ _)
        · exact (hfound.trans (hbad _ _ _)).trans (logMem _ _ _ _ _)
        · exact hfound.trans (hbad _ _ _)

theorem memGet (s : State) (port d n : Nat) (q : Option RowQueue) : s.KeepsCores (s.memGet port d n q).2 :=
  (countBytes s (2 * port) n).trans
    (foldl_snd (f := fun a b => (a.1 && (a.2.readBlock b q).1, (a.2.readBlock b q).2)) (fun a b => readBlock a.2 b q)
      (blocksOf d n) (true, s.countBytes (2 * port) n))

theorem checkWrite (s : State) (d : Nat) (full poison : Bool) : s.KeepsCores (s.checkWrite d full poison) := by
  have hpoison : ∀ t : State, t.KeepsCores (t.poisonWrite d) := fun t => (setFlaw t _ _).trans (logMem _ _ _ _ _)
  have hfound := findFlaw s (d / 64)
  unfold State.checkWrite
  dsimp only
  split
  · exact refl s
  · split
    · exact setFlaw s _ _
    · split
      · exact setFlaw s _ _
      · split
        · exact hfound.trans (hpoison _)
        · exact hfound.trans (hpoison _)
        · exact hfound.trans (hpoison _)
        · exact hfound.trans (setFlaw _ _ _)

theorem writeEnabled (s : State) (port d : Nat) (data : List (Option Byte)) (p : Bool) (q : Option RowQueue) :
    s.KeepsCores (s.writeEnabled port d data p q).2 := by
  unfold State.writeEnabled
  dsimp only
  split
  · exact refl s
  · split
    · exact turnAway s _
    · exact (((countBytes s _ _).trans (memAccess _ _ _ _)).trans (setEnabled _ _ _)).trans (checkWrite _ _ _ _)

/-! The data caches. -/

theorem dropLine (s : State) (e b : Nat) : s.KeepsCores (s.dropLine e b) := setEngine s e rfl rfl rfl

theorem startBack (s : State) (e b : Nat) (l : DLine) : s.KeepsCores (s.startBack e b l) := by
  unfold State.startBack
  split
  · exact refl s
  · exact setEngine s e rfl rfl rfl

theorem landLine (s : State) (e b : Nat) (l : DLine) : s.KeepsCores (s.landLine e b l) :=
  (writeEnabled s _ _ _ _ _).trans (tally _ _ _ _ _)

theorem landAll (s : State) (e : Nat) (which : Nat → Bool) : s.KeepsCores (s.landAll e which) :=
  (setEngine s e (g := { s.engine e with wb := (s.engine e).wb.filter fun p => !which p.1 }) rfl rfl rfl).trans
    (foldl (α := Nat × DLine) (fun t p => landLine t e p.1 p.2) _ _)

theorem settleLine (s : State) (e b : Nat) : s.KeepsCores (s.settleLine e b) := by
  unfold State.settleLine
  dsimp only
  have h : s.KeepsCores (if bit s.draw.1.toNat 0 then s.draw.2.landAll e (· == b) else s.draw.2) := by
    split
    · exact (draw s).trans (landAll _ _ _)
    · exact draw s
  split
  next l _ =>
    split
    · have hback := h.trans ((dropLine _ e b).trans (startBack _ e b l))
      split
      · exact hback.trans (landAll _ _ _)
      · exact hback
    · exact h
  next => exact h

theorem settle (s : State) (d n : Nat) (own : Option Nat) : s.KeepsCores (s.settle d n own) :=
  foldl (fun _ _ => foldl (fun _ _ => settleLine _ _ _) _ _) _ _

theorem memRead (s : State) (port d n : Nat) : s.KeepsCores (s.memRead port d n).2 :=
  (settle s d n none).trans (memGet _ _ _ _ _)

theorem cacheMoves (s : State) (e : Nat) : s.KeepsCores (s.cacheMoves e).2 := by
  unfold State.cacheMoves
  dsimp only
  refine trans (foldl (fun t p => ?_) _ _) (foldl_snd (fun a p => ?_) _ (none, _))
  · split
    · exact (draw t).trans (landAll _ _ _)
    · exact draw t
  · split
    · exact draw a.2
    · exact (draw a.2).trans ((dropLine _ _ _).trans (startBack _ _ _ _))

/-! Instruction fetch. -/

theorem ememRead (s : State) (e : Nat) (r : Region) (n : Nat) : s.KeepsCores (s.ememRead e r n).2 := by
  have hcorrected : ∀ c k : Nat, s.KeepsCores (s.bump (F.ENG_CL_ECC_CORR c) k) :=
    fun c k => putAbove _ _ (Nat.le_add_right_of_le (by decide))
  have haddr : ∀ (t : State) (c v : Nat), t.KeepsCores (t.put (F.ENG_CL_UNCORR_ADDR c) v) :=
    fun t c v => putAbove _ _ (Nat.le_add_right_of_le (by decide))
  unfold State.ememRead
  split
  · exact putEccCorr _ _ _
  · dsimp only
    split
    · exact hcorrected _ _
    · exact (hcorrected _ _).trans (haddr _ _ _)
  · exact refl s

theorem readILine (s : State) (e line : Nat) : s.KeepsCores (s.readILine e line).2 := by
  unfold State.readILine
  split
  · exact memRead s _ _ _
  · exact ememRead s _ _ _

theorem fillILine (s : State) (e line : Nat) : s.KeepsCores (s.fillILine e line).2 := by
  have h := (tally s 0x0B e 4 1).trans (readILine _ e line)
  unfold State.fillILine
  dsimp only
  generalize (s.tally 0x0B e 4).readILine e line = r at h
  split
  · exact h.trans ((draw _).trans (setEngine _ _ rfl rfl rfl))
  · exact h

theorem fetchLine (s : State) (e line : Nat) : s.KeepsCores (s.fetchLine e line).2 := by
  have hfree : s.KeepsCores s.draw.2 ∧ s.KeepsCores (s.draw.2.fillILine e line).2 :=
    ⟨draw s, (draw s).trans (fillILine _ _ _)⟩
  obtain ⟨hdraw, hfill⟩ := hfree
  unfold State.fetchLine
  dsimp only
  split
  · split
    · exact hdraw
    · exact hfill
  · split
    · split
      · exact (putEccCorr s e _).trans (fillILine _ _ _)
      · split
        · exact hdraw
        · exact hfill
    · exact fillILine _ _ _

theorem engFetch (s : State) (e : Nat) : s.KeepsCores (s.engFetch e).2 := by
  have h := fetchLine s e ((s.pc e).toNat / 64)
  unfold State.engFetch
  dsimp only
  generalize s.fetchLine e ((s.pc e).toNat / 64) = r at h
  split
  · exact refl s
  · split
    · exact refl s
    · split
      · exact h
      · exact h

/-- What an instruction finds once it is fetched and the caches have made their free moves. -/
theorem of_runs {s u : State} {e : Nat} {o : Op} {w : Nat} (h : s.Runs e o w u) : s.KeepsCores u := by
  obtain ⟨-, -, f, hfetch, -, hmoves⟩ := h
  have hf := engFetch s e
  have hu := cacheMoves f e
  rw [hfetch] at hf
  rw [hmoves] at hu
  exact hf.trans hu

end State.KeepsCores

/-- As `KeepsCores`, with device memory as well: what the retirement of an instruction leaves alone. -/
structure State.Retires (s t : State) : Prop extends s.KeepsCores t where
  mem : t.mem = s.mem

namespace State.Retires

theorem refl (s : State) : s.Retires s := ⟨.refl s, rfl⟩

theorem trans {a b c : State} (h : a.Retires b) (k : b.Retires c) : a.Retires c :=
  ⟨h.toKeepsCores.trans k.toKeepsCores, k.mem.trans h.mem⟩

theorem foldl {α : Type} {f : State → α → State} (h : ∀ s a, State.Retires s (f s a)) (l : List α) (s : State) :
    s.Retires (l.foldl f s) := by
  induction l generalizing s with
  | nil => exact refl s
  | cons a l ih => exact (h s a).trans (ih _)

theorem draw (s : State) : s.Retires s.draw.2 := ⟨.draw s, rfl⟩

theorem tally (s : State) (u i e n : Nat) : s.Retires (s.tally u i e n) := ⟨.tally s u i e n, State.tally_mem s u i e n⟩

theorem raise (s : State) (src : Nat) : s.Retires (s.raise src) := ⟨.raise s src, State.raise_mem s src⟩

theorem putAbove (s : State) {f : Fld} (v : Nat) (h : 0x00B04000 ≤ f.off) : s.Retires (s.put f v) :=
  ⟨.putAbove s v h, State.put_mem s f v⟩

theorem bumpAbove (s : State) {f : Fld} (h : 0x00B04000 ≤ f.off) : s.Retires (s.bump f) := putAbove s _ h

theorem raiseIf (s : State) (c : Prop) [Decidable c] (src : Nat) : s.Retires (if c then s.raise src else s) := by
  split
  · exact raise s src
  · exact refl s

theorem putAboveIf (s : State) (c : Prop) [Decidable c] {f : Fld} (v : Nat) (h : 0x00B04000 ≤ f.off) :
    s.Retires (if c then s.put f v else s) := by
  split
  · exact putAbove s v h
  · exact refl s

theorem setWordAbove (s : State) {off : Nat} (v : Nat) (h : 0x00B04000 ≤ off) : s.Retires (s.setWord off v) := by
  refine ⟨.of_eng rfl rfl rfl rfl fun j hj => State.word_setWord_other _ _ _ _ ?_, rfl⟩
  obtain ⟨-, hj, -⟩ := hj
  omega

theorem logPmu (s : State) (c cls cause : Nat) (d : List Nat) : s.Retires (s.logErr (sitePmu c) cls cause d) :=
  ⟨.logErr s cls cause d (by simp [sitePmu]) (by simp [sitePmu, F.PMU_ERR]), State.logErr_mem _ _ _ _ _⟩

theorem setSampler (s : State) (c : Nat) (p : Sampler) : s.Retires (s.setSampler c p) :=
  ⟨.of_eng rfl rfl rfl rfl fun _ _ => rfl, rfl⟩

theorem drawInterval (s : State) (c : Nat) : s.Retires (s.drawInterval c).2 := draw s

theorem countRetired (s : State) (e : Nat) : s.Retires (s.countRetired e) := by
  unfold State.countRetired
  split
  · exact refl s
  · refine trans ?_ (tally _ _ _ _ _)
    exact trans (draw s) ⟨.setEngine _ _ rfl rfl rfl, rfl⟩

/-- A record lost, or one written into the buffer, that takes the place of the oldest where the buffer is full, and may reach the
watermark. -/
theorem sample (s : State) (c : Nat) (r : Sample) : s.Retires (s.sample c r) := by
  unfold State.sample
  dsimp only
  split
  · have hlost := bumpAbove s (f := F.PMU_SMP_LOST c) (Nat.le_add_right_of_le (by decide))
    split
    · exact hlost
    · exact hlost.trans (((setSampler _ _ _).trans (raise _ _)).trans (logPmu _ _ _ _ _))
  · refine trans ?_ (raiseIf _ _ _)
    refine trans ?_ (putAboveIf _ _ _ (Nat.le_add_right_of_le (by decide)))
    refine trans ?_ (bumpAbove _ (Nat.le_add_right_of_le (by decide)))
    refine trans ?_ (setSampler _ _ _)
    refine (draw s).trans (foldl (fun t x => setWordAbove t _ ?_) _ _)
    simp only [F.PMU_SBUF]
    omega

theorem engRetire (s : State) (e : Nat) (o : Op) (r : Sample) : s.Retires (s.engRetire e o r) := by
  have hcount := countRetired s e
  unfold State.engRetire
  dsimp only
  generalize s.countRetired e = t at hcount
  split
  · have hdrawn := hcount.trans (drawInterval t (e / 16))
    cases (t.sampler (e / 16)).left
    all_goals
      dsimp only
      split
      · split
        · refine trans ?_ ((setSampler _ _ _).trans (sample _ _ _))
          assumption
        · refine trans ?_ (setSampler _ _ _)
          assumption
      · refine trans ?_ (setSampler _ _ _)
        assumption
  · exact hcount

end State.Retires

section
variable {s t : State} (h : s.KeepsCores t)
include h

theorem State.KeepsCores.sreg (e r : Nat) : t.sreg e r = s.sreg e r := by
  obtain ⟨hx, -, -⟩ := h.regs e
  rw [State.sreg, hx, State.sreg]

theorem State.KeepsCores.vreg (e r : Nat) : t.vreg e r = s.vreg e r := by
  obtain ⟨-, hv, -⟩ := h.regs e
  rw [State.vreg, hv, State.vreg]

theorem State.KeepsCores.preg (e r : Nat) : t.preg e r = s.preg e r := by
  obtain ⟨-, -, hp⟩ := h.regs e
  rw [State.preg, hp, State.preg]

theorem State.KeepsCores.pc (e : Fin 192) : t.pc e = s.pc e := by
  have hlow : isPcWord (F.ENGINE_PC e).off := by
    simp only [isPcWord, F.ENGINE_PC]
    omega
  have hhigh : isPcWord ((F.ENGINE_PC e).off + 4) := by
    simp only [isPcWord, F.ENGINE_PC]
    omega
  rw [State.pc, State.get_of_words (h.word _ hlow) (h.word _ hhigh), State.pc]

end

/-! ### Writing the destination and the PC -/

@[simp] theorem State.setS_emem (s : State) (e r : Nat) (v : DWord) : (s.setS e r v).emem = s.emem := by
  unfold State.setS
  split <;> rfl

@[simp] theorem State.setS_mem (s : State) (e r : Nat) (v : DWord) : (s.setS e r v).mem = s.mem := by
  unfold State.setS
  split <;> rfl

@[simp] theorem State.setS_dma (s : State) (e r : Nat) (v : DWord) : (s.setS e r v).dma = s.dma := by
  unfold State.setS
  split <;> rfl

@[simp] theorem State.setS_pending (s : State) (e r : Nat) (v : DWord) : (s.setS e r v).pending = s.pending := by
  unfold State.setS
  split <;> rfl

theorem State.engine_setS_other (s : State) {e e' : Nat} (r : Nat) (v : DWord) (h : e' ≠ e) :
    (s.setS e r v).engine e' = s.engine e' := by
  unfold State.setS
  split
  · rfl
  · exact State.engine_setEngine_other _ _ h

@[simp] theorem State.vreg_setS (s : State) (e r : Nat) (v : DWord) (e' q : Nat) : (s.setS e r v).vreg e' q = s.vreg e' q := by
  unfold State.setS
  split
  · rfl
  · by_cases h : e' = e <;> simp [State.vreg, State.engine_setEngine, h]

@[simp] theorem State.preg_setS (s : State) (e r : Nat) (v : DWord) (e' q : Nat) : (s.setS e r v).preg e' q = s.preg e' q := by
  unfold State.setS
  split
  · rfl
  · by_cases h : e' = e <;> simp [State.preg, State.engine_setEngine, h]

theorem State.pc_setPc (s : State) (e : Nat) (a : DWord) : (s.setPc e a).pc e = a := by
  rw [State.pc, State.setPc, State.get_put_same_wide _ _ _ (by simp [F.ENGINE_PC]) (by simp [F.ENGINE_PC]) (by simp [F.ENGINE_PC])]
  exact BitVec.eq_of_toNat_eq (Nat.mod_mod _ _ |>.trans (Nat.mod_eq_of_lt a.isLt))

@[simp] theorem State.sreg_setPc (s : State) (e : Nat) (a : DWord) (e' r : Nat) : (s.setPc e a).sreg e' r = s.sreg e' r := by
  simp [State.sreg, State.setPc, State.engine]

@[simp] theorem State.vreg_setPc (s : State) (e : Nat) (a : DWord) (e' r : Nat) : (s.setPc e a).vreg e' r = s.vreg e' r := by
  simp [State.vreg, State.setPc, State.engine]

@[simp] theorem State.preg_setPc (s : State) (e : Nat) (a : DWord) (e' r : Nat) : (s.setPc e a).preg e' r = s.preg e' r := by
  simp [State.preg, State.setPc, State.engine]

/-! ### Scalar instructions (R335, R338) -/

/-- What a scalar instruction that ran in `u` and wrote `v` to its destination leaves alone. -/
theorem State.retired_setS_keeps (u : State) (e : Fin 192) (o : Op) (w : Nat) (v : DWord) :
    ((u.setS e (insD w) v).setPc e (u.pc e + 4)).Retires (u.retired e o w (u.setS e (insD w) v)) :=
  .engRetire _ _ _ _

/-- Settles O21: the destination and the PC are all that the instruction writes; fetch and retirement leave the registers alone. -/
theorem scalarInstructionFrame : Obligations.ScalarInstructionFrame := by
  intro p hp dt e s₀ s w u hs h
  have hresult : ∃ v, exec (p.1 dt e) s₀ = .next (u.retired e p.2 w (u.setS e (insD w) v)) := by
    fin_cases hp <;> exact ⟨_, engCmd_retires h s₀ dt hs rfl⟩
  obtain ⟨v, hexec⟩ := hresult
  have hkeeps := u.retired_setS_keeps e p.2 w v
  have hfetched := State.KeepsCores.of_runs h
  refine ⟨_, hexec, ?pc, ?sreg, ?own, ?others, ?emem, ?mem, ?dma, ?pending⟩
  case pc => rw [hkeeps.pc, State.pc_setPc, hfetched.pc]
  case sreg =>
    intro r hr
    rw [hkeeps.sreg, State.sreg_setPc, State.sreg_setS_other _ _ hr, hfetched.sreg]
  case own =>
    intro r
    rw [hkeeps.vreg, hkeeps.preg, State.vreg_setPc, State.preg_setPc, State.vreg_setS, State.preg_setS, hfetched.vreg, hfetched.preg]
    exact ⟨rfl, rfl⟩
  case others =>
    intro e' r he
    rw [hkeeps.sreg, hkeeps.vreg, hkeeps.preg, State.sreg_setPc, State.vreg_setPc, State.preg_setPc, State.vreg_setS, State.preg_setS,
      State.sreg, State.engine_setS_other _ _ _ he, ← State.sreg, hfetched.sreg, hfetched.vreg, hfetched.preg]
    exact ⟨rfl, rfl, rfl⟩
  case emem => rw [hkeeps.emem, State.setPc, State.put_emem, State.setS_emem, hfetched.emem]
  case mem => rw [hkeeps.mem, State.setPc, State.put_mem, State.setS_mem]
  case dma => rw [hkeeps.dma, State.setPc, State.put_dma, State.setS_dma, hfetched.dma]
  case pending => rw [hkeeps.pending, State.setPc, State.put_pending, State.setS_pending, hfetched.pending]

/-! ### Faults (R338, R339) -/

theorem State.KeepsCores.setEngState (s : State) (e : Fin 192) (st : Nat) : s.KeepsCores (s.setEngState e st) := by
  have hdma : (s.setEngState e st).dma = s.dma := by simp [State.setEngState, State.putEngBit]
  have hpending : (s.setEngState e st).pending = s.pending := by simp [State.setEngState, State.putEngBit]
  refine .of_eng (by simp) (by simp) hdma hpending fun j hj => ?_
  obtain ⟨hlow, -, hpc⟩ := hj
  exact s.setEngState_word e st (by omega) (by omega)

/-- What a fault writes to the engine's own registers: it is FAULTED, with cause and address placed and its bit in ENG_FAULTED. -/
def State.faultPlaced (s : State) (e cause : Nat) (addr : DWord) : State :=
  (((s.engStill e egFaulted).put (F.ENGINE_STAT_FAULT_CAUSE e) cause).put (F.ENGINE_FAULT_ADDR e) addr.toNat).putEngBit
    (F.ENG_FAULTED (e / 32)) e true

theorem State.engFault_eq (s : State) (e cause : Nat) (addr : DWord) :
    s.engFault e cause addr
      = ((s.faultPlaced e cause addr).logErr siteEng (faultClass cause) cause [e, addr.toNat]).raise (704 + 48) := rfl

/-- A bit put into a bitmap register of the engines reads back. -/
theorem State.bit_putEngBit (s : State) {f : Fld} (hlo : f.lo = 0) (hhi : f.hi = 31) (e : Nat) :
    bit ((s.putEngBit f e true).get f) (e % 32) = true := by
  have hreads : bit (setBits (s.get f) (e % 32) (e % 32) 1) (e % 32) = true := by
    have hbits := bits_setBits_same (s.get f) (e % 32) (e % 32) 1 le_rfl
    simpa [bits, bit] using hbits
  rw [State.putEngBit, State.get_put_same _ _ _ (by omega) (by omega), hlo, hhi]
  exact (bit_mod_two_pow _ (Nat.mod_lt e (by decide))).trans hreads

section
variable (s : State) (e : Fin 192) (cause : Nat) (addr : DWord)

theorem State.KeepsCores.faultPlaced : s.KeepsCores (s.faultPlaced e cause addr) := by
  have hstill : s.KeepsCores (s.engStill e egFaulted) :=
    (State.KeepsCores.setEngine s e (g := { s.engine e with wait := none, stop := false, behind := [] }) rfl rfl rfl).trans
      (.setEngState _ e egFaulted)
  have hbit : ∀ t : State, t.KeepsCores (t.putEngBit (F.ENG_FAULTED (e / 32)) e true) := fun t => .put t _ ?bit
  refine ((hstill.trans (.put _ _ ?cause)).trans (.put _ _ ?addr)).trans (hbit _)
  all_goals
    intro j hj
    obtain ⟨hlow, hhigh, hpc⟩ := hj
    simp [Fld.covers, F.ENGINE_STAT_FAULT_CAUSE, F.ENGINE_FAULT_ADDR, F.ENG_FAULTED]
    omega

theorem State.KeepsCores.engFault : s.KeepsCores (s.engFault e cause addr) := by
  rw [State.engFault_eq]
  refine ((State.KeepsCores.faultPlaced s e cause addr).trans (.logErr _ _ _ _ ?_ ?_)).trans (.raise _ _)
  · simp [siteEng]
  · simp [siteEng, F.ENG_ERR]

theorem State.engFault_mem : (s.engFault e cause addr).mem = s.mem := by
  simp [State.engFault_eq, State.faultPlaced, State.engStill, State.setEngState, State.putEngBit]

/-- The error that a fault logs writes ENG_ERR, the ring of the ENG and counters of the PMU. -/
theorem State.get_engFault {f : Fld} (h : 0x00B000A0 ≤ f.off ∧ f.off + 4 < 0x00B00F00 ∨ 0x00B01000 ≤ f.off ∧ f.off < 0x00B04000) :
    (s.engFault e cause addr).get f = (s.faultPlaced e cause addr).get f := by
  have hword : ∀ j, 0x00B000A0 ≤ j ∧ j < 0x00B00F00 ∨ 0x00B01000 ≤ j ∧ j < 0x00B04004 →
      (s.engFault e cause addr).word j = (s.faultPlaced e cause addr).word j := by
    intro j hj
    have hpmu : inPmu j = false := by
      simp [inPmu]
      omega
    rw [State.engFault_eq, State.raise_word _ _ _ hpmu]
    refine State.logErr_word _ _ _ _ _ _ hpmu ?_ ?_
    · simp only [siteEng]
      omega
    · intro f hf
      obtain rfl : F.ENG_ERR = f := Option.some.inj hf
      simp [Fld.covers, F.ENG_ERR]
      omega
  exact State.get_of_words (hword _ (by omega)) (hword _ (by omega))

theorem State.faultPlaced_get {f : Fld} (h : 0x00B01000 ≤ f.off) :
    (s.faultPlaced e cause addr).get f
      = (((s.engStill e egFaulted).put (F.ENGINE_STAT_FAULT_CAUSE e) cause).put (F.ENGINE_FAULT_ADDR e) addr.toNat).get f :=
  State.get_put_apart _ _ (by simp only [F.ENG_FAULTED]; omega)

theorem State.engState_engFault : (s.engFault e cause addr).engState e = egFaulted := by
  rw [State.engState, State.get_engFault _ _ _ _ (by simp only [F.ENGINE_STAT_STATE]; omega),
    State.faultPlaced_get _ _ _ _ (by simp only [F.ENGINE_STAT_STATE]; omega),
    State.get_put_apart _ _ (by simp only [F.ENGINE_STAT_STATE, F.ENGINE_FAULT_ADDR]; omega),
    State.get_put_below _ (F.ENGINE_STAT_FAULT_CAUSE e) (F.ENGINE_STAT_STATE e) _ rfl (by simp [F.ENGINE_STAT_FAULT_CAUSE])
      (by simp [F.ENGINE_STAT_FAULT_CAUSE, F.ENGINE_STAT_STATE]) (by simp [F.ENGINE_STAT_FAULT_CAUSE]) (by simp [F.ENGINE_STAT_STATE])]
  exact State.engState_setEngState _ e (by decide)

theorem State.get_faultCause_engFault (h : cause < 2 ^ 12) :
    (s.engFault e cause addr).get (F.ENGINE_STAT_FAULT_CAUSE e) = cause := by
  rw [State.get_engFault _ _ _ _ (by simp only [F.ENGINE_STAT_FAULT_CAUSE]; omega),
    State.faultPlaced_get _ _ _ _ (by simp only [F.ENGINE_STAT_FAULT_CAUSE]; omega),
    State.get_put_apart _ _ (by simp only [F.ENGINE_STAT_FAULT_CAUSE, F.ENGINE_FAULT_ADDR]; omega),
    State.get_put_same _ _ _ (by simp [F.ENGINE_STAT_FAULT_CAUSE]) (by simp [F.ENGINE_STAT_FAULT_CAUSE])]
  exact Nat.mod_eq_of_lt h

theorem State.get_faultAddr_engFault : (s.engFault e cause addr).get (F.ENGINE_FAULT_ADDR e) = addr.toNat := by
  rw [State.get_engFault _ _ _ _ (by simp only [F.ENGINE_FAULT_ADDR]; omega),
    State.faultPlaced_get _ _ _ _ (by simp only [F.ENGINE_FAULT_ADDR]; omega),
    State.get_put_same_wide _ _ _ (by simp [F.ENGINE_FAULT_ADDR]) (by simp [F.ENGINE_FAULT_ADDR]) (by simp [F.ENGINE_FAULT_ADDR])]
  exact Nat.mod_eq_of_lt addr.isLt

theorem State.bit_faulted_engFault : bit ((s.engFault e cause addr).get (F.ENG_FAULTED (e / 32))) (e % 32) = true := by
  rw [State.get_engFault _ _ _ _ (by simp only [F.ENG_FAULTED]; omega)]
  exact State.bit_putEngBit _ rfl rfl e

theorem State.hasRaised_engFault : (s.engFault e cause addr).hasRaised (704 + 48) = true := by
  rw [State.engFault_eq]
  exact State.hasRaised_raise _ _

end

/-! ### Misaligned accesses (R325) -/

section
variable {s : State} {e : Fin 192} {a : DWord} {n : Nat}

theorem State.accessFault_of_misaligned {e : Nat} (h : a.toNat % n ≠ 0) : s.accessFault e a n = some 0x003 := if_pos h

theorem loadBody_of_misaligned {w : Nat} (h : (s.addrI e w).toNat % n ≠ 0) : loadBody e n w s = .fault s 0x003 (s.addrI e w) := by
  simp only [loadBody, State.engLoad, State.accessFault_of_misaligned h]

theorem storeBody_of_misaligned {w : Nat} (h : (s.addrI e w).toNat % n ≠ 0) : storeBody e n w s = .fault s 0x003 (s.addrI e w) := by
  simp only [storeBody, State.engStore, State.accessFault_of_misaligned h]

end

/-- Settles O22: the access is refused before it does anything, and the fault writes registers of state and cause alone. -/
theorem misalignedAccessFaults : Obligations.MisalignedAccessFaults := by
  intro p hp dt e s₀ s w u hs h hmis
  have hexec : exec (p.1 dt e) s₀ = .next (u.engFault e 0x003 (u.addrI e w)) := by
    fin_cases hp
    iterate 3 exact engCmd_faults h s₀ dt hs (loadBody_of_misaligned hmis)
    iterate 3 exact engCmd_faults h s₀ dt hs (storeBody_of_misaligned hmis)
  have hkeeps := State.KeepsCores.engFault u e 0x003 (u.addrI e w)
  exact ⟨_, hexec, u.engState_engFault e _ _, hkeeps.pc e, u.get_faultAddr_engFault e _ _,
    u.get_faultCause_engFault e _ _ (by decide), u.bit_faulted_engFault e _ _, u.hasRaised_engFault e _ _,
    fun r => ⟨hkeeps.sreg e r, hkeeps.vreg e r, hkeeps.preg e r⟩, hkeeps.emem, u.engFault_mem e _ _⟩

end Sys2Proof.Machine
end

section
/-! PROOFS. What every command answers (00, 01 R21, 17 R458, 18 R518, 19 R532, R533): a next state; while a reset holds the device, the
state after the time that passes; and to a function in its Function Level Reset, what the HIF answers in its place. -/

namespace Sys2Proof.Machine

@[simp] theorem State.held_wait (s : State) (dt : Nat) : (s.wait dt).held = s.held := by
  simp [State.held]

/-- `answer` is a next state: the one after `dt` alone while a reset holds the device. -/
def AnswersNext (dt : Nat) (s : State) (answer : Res) : Prop := ∃ t, answer = .next t ∧ (s.held = true → t = s.wait dt)

/-! ### Events of the device -/

theorem evCmd_answersNext (dt : Nat) (guard : State → Bool) (effect : State → State) (s : State) :
    AnswersNext dt s (evCmd dt guard effect s) := by
  refine ⟨if guard (s.wait dt) && !s.held then effect (s.wait dt) else s.wait dt, ?_, by simp +contextual⟩
  rw [evCmd, State.held_wait]
  split <;> rfl

theorem engCmd_answersNext (dt e : Nat) (o : Op) (body : Nat → State → EngRes) (s : State) :
    AnswersNext dt s (engCmd dt e o body s) := evCmd_answersNext dt _ _ s

theorem dmaCmd_answersNext (dt c op : Nat) (f : Fetches) (effect : List Nat → State → State) (s : State) :
    AnswersNext dt s (dmaCmd dt c op f effect s) := evCmd_answersNext dt _ _ s

/-- A task's action happens unless a reset holds the device. -/
theorem trigCmd_task_eq (dt off : Nat) (effect : State → State) (s : State) :
    trigCmd dt .task off effect s = evCmd dt (fun _ => true) effect s := by
  unfold trigCmd evCmd
  simp only [State.held_wait]
  cases s.held <;> rfl

theorem execSubwordWrite_answersNext (dt : Nat) (who : Requester) (s : State) : AnswersNext dt s (execSubwordWrite dt who s) := by
  unfold execSubwordWrite
  dsimp only
  split
  · exact ⟨_, rfl, fun _ => rfl⟩
  next hquiet => exact ⟨_, rfl, fun hheld => absurd hheld (by simp_all)⟩

/-- A command that neither is a register access nor moves the device into or out of its resets. -/
theorem exec_answersNext_of_no_access (c : Instr) (hreset : resetCommand c = false) (h : accessOf c = none) (s : State) :
    ∃ dt, AnswersNext dt s (exec c s) := by
  cases c with
  | thermalTrip | pwrGoodFall | powerOnResetEnd | sysRstNAssert | deviceResetEnd => cases hreset
  | subwordWrite dt who => exact ⟨dt, execSubwordWrite_answersNext dt who s⟩
  | postedWriteReceive dt => exact ⟨dt, _, rfl, fun _ => rfl⟩
  | snapshotCapture dt trig | ssiRequest dt trig | dmaDoorbell dt trig =>
    cases trig <;> cases h
    refine ⟨dt, ?_⟩
    dsimp only [exec, execSnapshotCapture, execSsiRequest, execDmaDoorbell]
    rw [trigCmd_task_eq]
    exact evCmd_answersNext _ _ _ _
  | headDisable dt why x =>
    cases why <;> cases h
    exact ⟨dt, evCmd_answersNext dt (fun s => !s.on (F.FTU_LINK_STAT_UP (x / 4))) (fun s => s.headStop x) s⟩
  | stuckLine | levelTimeout =>
    dsimp only [exec, execStuckLine, execLevelTimeout]
    exact ⟨_, evCmd_answersNext _ _ _ _⟩
  | dmaMove | dmaLoop | dmaWait | dmaSignal | dmaJump | dmaEnd =>
    dsimp only [exec]
    exact ⟨_, dmaCmd_answersNext _ _ _ _ _ _⟩
  | engAdd | engSub | engAnd | engOr | engXor | engSll | engSrl | engSra | engSlt | engSltu | engMin | engMax | engPopc | engMul |
      engDiv | engDivu | engRem | engRemu | engAddi | engAndi | engOri | engSlli | engSrli | engSrai | engExt | engIns16 | engBeq
      | engBne | engBlt | engBge | engBltu | engBgeu | engJ | engJal | engJalr | engFence | engIsync | engWait | engSignal |
      engRdsys | engHalt | engDcClean | engDcInv | engDcCinv | engDcCleanall | engIcInvall | engVadd | engVsub | engVmul | engVmin
      | engVmax | engVand | engVor | engVshl | engVshr | engVabsd | engVcmpeq | engVcmplt | engVsel | engVredadd | engVbcast |
      engVextr | engPand | engPnot | engLdb | engLdh | engLdw | engLdd | engStb | engSth | engStw | engStd | engAmoadd | engCas |
      engVld | engVst =>
    dsimp only [exec]
    exact ⟨_, engCmd_answersNext _ _ _ _ _⟩
  | _ => cases h <;> dsimp only [exec] <;> exact ⟨_, evCmd_answersNext _ _ _ _⟩

/-! ### Register accesses -/

/-- What the HIF does with an access of a function in its Function Level Reset: a write is dropped, a read is an unsupported request
(R458). -/
def State.unheard (s : State) (a : RegAccess) (answered : Nat) : State :=
  if a.write then s else s.emit (.unsupported a.who answered)

/-- `answer` to the access `a` is a next state: after its time alone while a reset holds the device, and unheard where its requester is a
function in its Function Level Reset. -/
def AnswersAccess (a : RegAccess) (answered : Nat) (s : State) (answer : Res) : Prop :=
  AnswersNext a.dt s answer
    ∧ (s.held = false → (s.wait a.dt).inReset a.who = true → answer = .next ((s.wait a.dt).unheard a answered))

theorem regCmd_answersAccess (dt : Nat) (who : Requester) (off answered : Nat) (effect : State → State) (s : State) :
    AnswersAccess ⟨dt, who, off, true⟩ answered s (regCmd dt who off effect s) := by
  refine ⟨?next, fun hheld hreset => by simp [regCmd, State.unheard, hheld, hreset]⟩
  cases hheld : s.held with
  | true => exact ⟨_, by simp [regCmd, hheld], fun _ => rfl⟩
  | false =>
    simp only [AnswersNext, regCmd, hheld, State.held_wait, Bool.false_or, Bool.false_eq_true, false_implies, and_true]
    repeat' split
    all_goals exact ⟨_, rfl⟩

theorem highCmd_answersAccess (dt : Nat) (who : Requester) (off : Nat) (hi : Word) (answered : Nat) (effect : Nat → State → State)
    (s : State) : AnswersAccess ⟨dt, who, off, true⟩ answered s (highCmd dt who off hi effect s) :=
  regCmd_answersAccess dt who off answered _ s

theorem trigCmd_answersAccess (dt : Nat) (who : Requester) (off answered : Nat) (effect : State → State) (s : State) :
    AnswersAccess ⟨dt, who, off, true⟩ answered s (trigCmd dt (.reg who) off effect s) :=
  regCmd_answersAccess dt who off answered effect s

/-- A bus write has the form of a register write. -/
theorem busWriteCmd_eq_regCmd (dt : Nat) (who : Requester) (word : BitVec 24) (v : Word) (s : State) :
    busWriteCmd dt who word v s
      = regCmd dt who (4 * word.toNat) (fun s => s.busStore State.abort who (4 * word.toNat) v) s := by
  unfold busWriteCmd regCmd State.busWrite State.busWriteWith
  dsimp only
  repeat' split
  all_goals rfl

theorem readCmd_answersAccess (dt : Nat) (who : Requester) (off : Nat) (effect : State → State) (s : State) :
    AnswersAccess ⟨dt, who, off, false⟩ off s (readCmd dt who off effect s) := by
  refine ⟨?next, fun hheld hreset => by simp [readCmd, State.unheard, hheld, hreset]⟩
  cases hheld : s.held with
  | true => exact ⟨_, by simp [readCmd, hheld], fun _ => rfl⟩
  | false =>
    simp only [AnswersNext, readCmd, hheld, State.held_wait, Bool.false_eq_true, false_implies, and_true, if_false]
    repeat' split
    all_goals exact ⟨_, rfl⟩

theorem busReadCmd_answersAccess (dt : Nat) (who : Requester) (a : ReadAt) (s : State) :
    AnswersAccess ⟨dt, who, a.off, false⟩ a.addr s (busReadCmd dt who a s) := by
  refine ⟨?next, fun hheld hreset => by simp [busReadCmd, State.unheard, hheld, hreset]⟩
  cases hheld : s.held with
  | true => exact ⟨_, by simp [busReadCmd, hheld], fun _ => rfl⟩
  | false =>
    simp only [AnswersNext, busReadCmd, hheld, State.held_wait, Bool.false_eq_true, false_implies, and_true, if_false]
    split <;> exact ⟨_, rfl⟩

/-- Every command that is a register access. -/
theorem exec_answersAccess (c : Instr) (a : RegAccess) (h : accessOf c = some a) (s : State) :
    AnswersAccess a (answeredAt c a) s (exec c s) := by
  cases c with
  | registerWrite dt who word v | lowWordWrite dt who word v | highWordWrite dt who word v =>
    cases h
    dsimp only [exec, execRegisterWrite, execLowWordWrite, execHighWordWrite]
    rw [busWriteCmd_eq_regCmd]
    exact regCmd_answersAccess _ _ _ _ _ s
  | rcRead dt who at_ | lowWordRead dt who at_ => cases h; exact busReadCmd_answersAccess dt who at_ s
  | logEntryRead dt who ring => cases h; exact busReadCmd_answersAccess dt who ⟨_, .word⟩ s
  | thresholdStoreRead | ntWindowRead | dfqRecordTake | tsqTake =>
    cases h
    dsimp only [exec]
    exact readCmd_answersAccess _ _ _ _ s
  | iplTableAccess dt who data =>
    cases h
    cases data with
    | none => exact readCmd_answersAccess dt who O.IPL_TBL_DATA (fun s => s.tblAccess who none) s
    | some v => exact regCmd_answersAccess dt who O.IPL_TBL_DATA _ (fun s => s.tblAccess who (some v)) s
  | ringProdWrite | ringConsWrite | thresholdStoreWrite | ntRmwUpdate | ptpStep =>
    cases h
    dsimp only [exec]
    exact highCmd_answersAccess _ _ _ _ _ _ s
  | snapshotCapture dt trig | ssiRequest dt trig | dmaDoorbell dt trig =>
    cases trig <;> cases h
    dsimp only [exec]
    exact trigCmd_answersAccess _ _ _ _ _ s
  | headDisable dt why x =>
    cases why <;> cases h
    exact regCmd_answersAccess _ _ _ _ (fun s => (s.put (F.FTU_HEAD_CFG_EN x) 0).headStop x) s
  | _ => cases h <;> dsimp only [exec] <;> exact regCmd_answersAccess _ _ _ _ _ s

/-! ### Every command -/

/-- A command that does not move the device into or out of its resets. -/
theorem exec_answersNext (c : Instr) (hreset : resetCommand c = false) (s : State) : ∃ dt, AnswersNext dt s (exec c s) := by
  cases h : accessOf c with
  | none => exact exec_answersNext_of_no_access c hreset h s
  | some a => exact ⟨a.dt, (exec_answersAccess c a h s).1⟩

theorem exec_eq_next (c : Instr) (s : State) : ∃ t, exec c s = .next t := by
  cases hreset : resetCommand c with
  | true => cases c <;> cases hreset <;> exact ⟨_, rfl⟩
  | false =>
    obtain ⟨dt, t, ht, -⟩ := exec_answersNext c hreset s
    exact ⟨t, ht⟩

theorem step_eq_next (s : State) : ∃ t, step s = .next t := by
  unfold step
  split
  · exact ⟨_, rfl⟩
  · exact exec_eq_next _ _

theorem runsFor_eq_true (n : Nat) (s : State) : runsFor n s = true := by
  induction n generalizing s with
  | zero => rfl
  | succ n ih =>
    obtain ⟨t, ht⟩ := step_eq_next s
    simp only [runsFor, ht, ih t]

/-- Settles O1: a step looks at the front of the queue alone. -/
theorem stepRunsFrontCommand : Obligations.StepRunsFrontCommand := by
  intro c rest s h
  simp only [step, h]

/-- Settles O2: every form of command answers a next state, so that every step of a run does. -/
theorem everyCommandAnswersNext : Obligations.EveryCommandAnswersNext := ⟨exec_eq_next, runsFor_eq_true⟩

/-- Settles O5: what a command answers while a reset holds the device is part of what its form answers. -/
theorem heldDeviceOnlyLetsTimePass : Obligations.HeldDeviceOnlyLetsTimePass := by
  intro c s t hheld hreset ht
  obtain ⟨dt, u, hu, hwait⟩ := exec_answersNext c hreset s
  rw [ht] at hu
  cases hu
  exact ⟨dt, hwait hheld⟩

/-- Settles O8: every command that is a register access goes unheard where its requester is in its Function Level Reset. -/
theorem functionInResetReachesNoRegister : Obligations.FunctionInResetReachesNoRegister := by
  intro c a f s₀ s hc hwho hs hheld hflr
  subst hs
  rw [State.held_wait] at hheld
  obtain ⟨-, hunheard⟩ := exec_answersAccess c a hc s₀
  rw [hunheard hheld (by rw [hwho]; exact hflr), State.unheard]

/-! ### A tripped device (R518) -/

theorem State.Tripped.held {s : State} (h : s.Tripped) : s.held = true := by
  obtain ⟨-, hstep⟩ := h
  simp [State.held, hstep]

/-- A change that keeps what the trip has set. -/
theorem State.Tripped.of_boot {s t : State} (h : s.Tripped) (htrip : t.boot.tripped = s.boot.tripped) (hstep : t.boot.step = s.boot.step) :
    t.Tripped := by
  obtain ⟨hs, hs'⟩ := h
  exact ⟨htrip.trans hs, hstep.trans hs'⟩

theorem State.Tripped.wait {s : State} (h : s.Tripped) (dt : Nat) : (s.wait dt).Tripped := h.of_boot (by simp) (by simp)

/-- A device reset keeps the trip, and the device held. -/
theorem State.Tripped.enterReset {s : State} (h : s.Tripped) : s.enterReset.Tripped := ⟨h.1, rfl⟩

theorem State.powerUp_of_kept (s : State) :
    s.powerUp false = if s.boot.pwrGood then s else { s with boot := { s.boot with pwrGood := true } } := by
  simp [State.powerUp]

/-- A tripped device stays tripped at every command but the end of a power-on reset after a loss of power, and the queue as it is. -/
theorem exec_tripped {c : Instr} {s t : State} (h : s.Tripped) (hc : ∀ dt, c ≠ .powerOnResetEnd dt true) (ht : exec c s = .next t) :
    t.Tripped ∧ t.pending = s.pending := by
  cases hreset : resetCommand c with
  | false =>
    obtain ⟨dt, rfl⟩ := heldDeviceOnlyLetsTimePass c s t h.held hreset ht
    exact ⟨h.wait dt, State.wait_pending s dt⟩
  | true =>
    cases c with
    | thermalTrip dt =>
      cases ht
      obtain ⟨htrip, -⟩ := h.wait dt
      rw [State.trip, if_pos htrip]
      exact ⟨h.wait dt, State.wait_pending s dt⟩
    | pwrGoodFall dt =>
      cases ht
      exact ⟨(h.wait dt).enterReset.of_boot rfl rfl, State.wait_pending s dt⟩
    | sysRstNAssert dt =>
      cases ht
      exact ⟨(h.wait dt).enterReset, State.wait_pending s dt⟩
    | powerOnResetEnd dt powerLost =>
      cases ht
      cases powerLost with
      | true => exact absurd rfl (hc dt)
      | false =>
        rw [State.powerUp_of_kept]
        split
        · exact ⟨h.wait dt, State.wait_pending s dt⟩
        · exact ⟨(h.wait dt).of_boot rfl rfl, State.wait_pending s dt⟩
    | deviceResetEnd dt bootSel =>
      cases ht
      have htrip : s.boot.tripped = true := h.1
      rw [State.leaveReset, if_neg (by simp [htrip])]
      exact ⟨h.wait dt, State.wait_pending s dt⟩
    | _ => cases hreset

/-- Settles O6: the queue loses its front at most, and no command but the loss of power undoes the trip. -/
theorem trippedDeviceStaysInReset : Obligations.TrippedDeviceStaysInReset := by
  intro s t h hpower ht
  unfold step at ht
  split at ht
  case h_1 hempty =>
    cases ht
    have hpending : s.idle.pending = s.pending := State.wait_pending s 8
    exact ⟨h.wait 8, by rwa [hpending]⟩
  case h_2 c rest hqueue =>
    rw [hqueue] at hpower
    obtain ⟨hc, hrest⟩ := List.forall_mem_cons.1 hpower
    obtain ⟨htripped, hpending⟩ := exec_tripped (s := { s with pending := rest }) (h.of_boot rfl rfl) hc ht
    exact ⟨htripped, by rwa [hpending]⟩

end Sys2Proof.Machine
end

section
/-! PROOFS. Commands of the event fabric (13 R350–R358), the DMA (14 R367–R385), the memory subsystem (15 R396–R412, R578), the Fuvor
links (16 R428–R444), security, calibration, monitoring, resets and start-up (18, 19): each completes under its conditions. -/

namespace Sys2Proof.Machine

/-- An event of the device with the effect that its conditions leave of it. -/
theorem evCmd_acts {s t : State} {guard : State → Bool} {effect : State → State} (s₀ : State) (dt : Nat) (hs : s = s₀.wait dt)
    (hheld : s.held = false) (hguard : guard s = true) (heffect : effect s = t) : evCmd dt guard effect s₀ = .next t := by
  rw [evCmd_happens s₀ dt hs hheld hguard, heffect]

/-- Settles O55: two register writes, two events whose guards are the conditions, and the end of the check under way. -/
theorem eventFabricCommandsComplete : Obligations.EventFabricCommandsComplete := by
  refine ⟨?eventDelivery, ?timerExpire, ?pendingWrite, ?commit, ?commitCheckEnd⟩
  case eventDelivery =>
    intro dt s₀ s hs hheld hsome
    exact evCmd_happens (guard := fun s => s.presented != []) s₀ dt hs hheld (bne_iff_ne.2 hsome) State.deliverNext
  case timerExpire =>
    intro dt t s₀ s hs hheld hdue
    exact evCmd_happens (guard := fun s => s.timerDue t) s₀ dt hs hheld hdue fun s => s.timerExpire t
  case pendingWrite | commit =>
    intros
    rename_i hs h
    dsimp only [exec]
    exact regCmd_takes h _ _ hs _
  case commitCheckEnd =>
    intro dt s₀ s c hs hheld hcheck
    dsimp only [exec, execCommitCheckEnd]
    exact evCmd_happens_found (look := fun s => s.evf.check) s₀ dt hs hheld hcheck (by simp only [hcheck])

/-- Settles O56: writes of the channel's registers, the instructions at its PC, and events whose guards are the conditions. -/
theorem dmaCommandsComplete : Obligations.DmaCommandsComplete := by
  refine ⟨?doorbellByWrite, ?doorbellByTask, ?move, ?moveComplete, ?loop, ?wait, ?waitEnd, ?signal, ?signalPublish, ?jump, ?dmaEnd,
    ?illegal, ?busErrorRunning, ?busErrorStopping, ?stop, ?resume, ?skip, ?stopComplete⟩
  case doorbellByWrite =>
    intro dt who c s₀ s hs h
    exact regCmd_takes h s₀ dt hs fun s => s.doorbellTrigger c
  case stop | resume | skip =>
    intros
    rename_i hs h
    dsimp only [exec]
    exact regCmd_takes h _ _ hs _
  case doorbellByTask =>
    intro dt c s₀ s hs hheld
    exact trigCmd_task s₀ dt hs hheld (O.DMA_CH_DOORBELL c) fun s => s.doorbellTrigger c
  case move | loop | wait | signal | jump | dmaEnd =>
    intros
    rename_i hs h
    dsimp only [exec]
    exact dmaCmd_takes h _ _ hs _
  case moveComplete =>
    intro dt c host s₀ s m hs hheld hrunning hmove hhost
    dsimp only [exec, execDmaMoveComplete]
    refine evCmd_acts s₀ dt hs hheld ?_ (by simp only [hmove])
    cases hfrom : s.fromHost c m with
    | true => simp [hrunning, hmove, hfrom, hhost hfrom]
    | false => simp [hrunning, hmove, hfrom]
  case waitEnd =>
    intro dt c s₀ s mode t hs hheld hwait hwaiting
    dsimp only [exec, execDmaWaitEnd]
    exact evCmd_acts s₀ dt hs hheld (by simp [hwaiting]) (by simp only [hwait])
  case signalPublish =>
    intro dt c s₀ s ev pub r hs hheld hsignal hrunning
    dsimp only [exec, execSignalPublish]
    exact evCmd_acts s₀ dt hs hheld (by simp [hsignal, hrunning]) (by simp only [hsignal])
  case illegal =>
    intro dt c f s₀ s w f' u hs hheld hready hword hbad
    dsimp only [exec, execDmaIllegal]
    exact evCmd_acts s₀ dt hs hheld hready (by simp [hword, hbad])
  case busErrorRunning =>
    intro dt c blk kind host s₀ s hs hheld hrunning
    dsimp only [exec, execDmaBusError]
    exact evCmd_acts s₀ dt hs hheld (by simp [hrunning]) (if_pos hrunning)
  case busErrorStopping =>
    intro dt c blk kind host s₀ s hs hheld hstopping
    dsimp only [exec, execDmaBusError]
    exact evCmd_acts s₀ dt hs hheld (by simp [hstopping]) (if_neg (by simp [hstopping, dmStopping, dmRunning]))
  case stopComplete =>
    intro dt c s₀ s hs hheld hstopping
    exact evCmd_happens (guard := fun s => s.dmaState c == dmStopping) s₀ dt hs hheld (by simp [hstopping]) fun s => s.dmaStopped c

/-- Settles O57: register writes, and events whose guards are the conditions. -/
theorem memoryCommandsComplete : Obligations.MemoryCommandsComplete := by
  refine ⟨?memOpen, ?slotSwap, ?slotTableSwap, ?arbitrationSlot, ?grantFlagFall, ?memoryRead, ?memoryWrite, ?rowClose, ?refresh,
    ?refreshWindowEnd, ?selfRefreshEntry, ?trackingWindow, ?retrain, ?retrainStep, ?channelFence, ?bootTrainingEnd,
    ?memoryZeroingEnd, ?fencedTrainingEnd, ?dramHighTemperature⟩
  case memOpen | slotSwap | retrain | channelFence =>
    intros
    rename_i hs h
    dsimp only [exec]
    exact regCmd_takes h _ _ hs _
  case memoryRead | memoryWrite | dramHighTemperature =>
    intros
    rename_i hs hheld
    dsimp only [exec]
    exact evCmd_happens _ _ hs hheld rfl _
  case slotTableSwap | grantFlagFall | rowClose | selfRefreshEntry | trackingWindow | bootTrainingEnd | memoryZeroingEnd
      | fencedTrainingEnd =>
    intros
    rename_i hs hheld hguard
    dsimp only [exec]
    exact evCmd_happens _ _ hs hheld hguard _
  case arbitrationSlot | refresh | refreshWindowEnd =>
    intros
    rename_i hs hheld hguard
    dsimp only [exec]
    exact evCmd_happens _ _ hs hheld (by simpa using hguard) _
  case retrainStep =>
    intro dt n found s₀ s hs hheld hretraining hspaced
    dsimp only [exec, execRetrainStep]
    refine evCmd_acts s₀ dt hs hheld ?_ rfl
    cases hstep : (s.chan n).stepAt with
    | none => simp [hretraining]
    | some began => simp [hretraining, hspaced began hstep]

/-- Settles O58: register writes, events whose guards are the conditions, events that act on what they find under way, and a transaction
that is discarded. -/
theorem fuvorCommandsComplete : Obligations.FuvorCommandsComplete := by
  refine ⟨?portEnable, ?portDisable, ?clockDone, ?ts1, ?ts2, ?trainTimeout, ?configTimeout, ?rateRoundTimeout, ?retrain,
    ?retrainTimeout, ?upshift, ?sleepEntry, ?wake, ?dataFrame, ?ack, ?nak, ?credit, ?ackDue, ?creditReturn, ?replayTimeout,
    ?postedWrite, ?read, ?completion, ?event, ?timeExchange, ?timePong, ?pongTimeout, ?mailboxGo, ?mailboxTimeout, ?holdoffEnd,
    ?pauseEnd, ?syncHeaderError, ?align, ?sds, ?eios, ?wakeReceive⟩
  case portEnable | portDisable | retrain | upshift | mailboxGo =>
    intros
    rename_i hs h
    dsimp only [exec]
    exact regCmd_takes h _ _ hs _
  case clockDone | ts2 | trainTimeout | configTimeout | retrainTimeout | sleepEntry | wake | ackDue | creditReturn | replayTimeout
      | read | event | timeExchange | holdoffEnd | syncHeaderError | sds =>
    intros
    rename_i hs hheld hguard
    dsimp only [exec]
    exact evCmd_happens _ _ hs hheld hguard _
  case ts1 | dataFrame | ack | nak | credit | align | eios | wakeReceive =>
    intros
    rename_i hs hheld hguard
    dsimp only [exec]
    exact evCmd_happens _ _ hs hheld (by simpa using hguard) _
  case rateRoundTimeout =>
    intro dt p s₀ s old hs hheld hback hlate
    dsimp only [exec, execFvlRateRoundTimeout]
    exact evCmd_acts s₀ dt hs hheld (by simpa [hback] using hlate) (by simp only [hback])
  case postedWrite => intros; rfl
  case completion =>
    intro dt p tag status vals s₀ s rest hs hheld hactive hreading hmbox
    dsimp only [exec, execCompletionReceive]
    exact evCmd_acts s₀ dt hs hheld (by simp [hactive, hreading, hmbox]) rfl
  case timePong =>
    intro dt p tag turnaround s₀ s t1 began hs hheld hactive hping hsoon
    dsimp only [exec, execTimePongReceive]
    exact evCmd_acts s₀ dt hs hheld (by simp [hactive, hping, hsoon]) (by simp only [hping])
  case pongTimeout =>
    intro dt p s₀ s tag t1 began hs hheld hping hlate
    dsimp only [exec, execPongTimeout]
    exact evCmd_acts s₀ dt hs hheld (by simp [hping, hlate]) rfl
  case mailboxTimeout =>
    intro dt s₀ s tag kind began hs hheld hreading hmbox hlate
    dsimp only [exec, execMailboxTimeout]
    exact evCmd_acts s₀ dt hs hheld (by simp [hreading, hmbox, hlate]) rfl
  case pauseEnd =>
    intro dt p s₀ s began hs hheld hstep hpause hlate
    dsimp only [exec, execRateChangePauseEnd]
    exact evCmd_acts s₀ dt hs hheld (by simp [hstep, hpause, hlate]) rfl

/-- Settles O60: register writes, events whose guards are the conditions, and the resets, which no condition holds back. -/
theorem securityCalibrationAndStartUpCommandsComplete : Obligations.SecurityCalibrationAndStartUpCommandsComplete := by
  refine ⟨?perst, ?enrol, ?revoke, ?secureBoot, ?setDomain, ?attest, ?commandEnd, ?domainLock, ?conversion, ?calRun, ?calPhaseEnd,
    ?thermalTrip, ?pmuFreeze, ?pmuClear, ?bandwidthWindowEnd, ?pwrGoodFall, ?powerOnResetEnd, ?sysRst, ?deviceResetEnd,
    ?bootStepEnd, ?flashImageReadEnd, ?bootGo, ?uartRequest, ?uartGapTimeout, ?flashReadTimeout, ?counterWrap⟩
  case enrol | revoke | secureBoot | setDomain | attest | domainLock | calRun | pmuFreeze | pmuClear | bootGo =>
    intros
    rename_i hs h
    dsimp only [exec]
    exact regCmd_takes h _ _ hs _
  case perst | bootStepEnd =>
    intros
    rename_i hs hheld
    dsimp only [exec]
    exact evCmd_happens _ _ hs hheld rfl _
  case bandwidthWindowEnd | flashImageReadEnd | uartRequest | uartGapTimeout | flashReadTimeout | counterWrap =>
    intros
    rename_i hs hheld hguard
    dsimp only [exec]
    exact evCmd_happens _ _ hs hheld hguard _
  case conversion | calPhaseEnd =>
    intros
    rename_i hs hheld hguard
    dsimp only [exec]
    exact evCmd_happens _ _ hs hheld (by simpa using hguard) _
  case commandEnd =>
    intro dt fuses s₀ s b n hs hheld hcmd
    dsimp only [exec, execSecCommandEnd]
    exact evCmd_acts s₀ dt hs hheld (by simp [hcmd]) (by simp only [hcmd])
  case thermalTrip | pwrGoodFall | powerOnResetEnd | sysRst | deviceResetEnd => intros; rfl

end Sys2Proof.Machine
end

section
/-! PROOFS. The error log ring (20 R544), the device address map (15 R392, R393), LOOP and JUMP of the DMA (14 R369, R372), SEC_DOMAIN
(18 R510) and the GPIO edges (17 R460). -/

namespace Sys2Proof.Machine

/-! ### The error log ring (R544) -/

/-- An entry that is not of the cycle of the one before it goes to its own slot and leaves every other slot alone. -/
theorem logPlace_get_other {ring n slot : Nat} {logs : List (Nat × LogEntry)} {e : LogEntry} (fuel : Nat)
    (hcycle : (Sparse.get (fun _ => {}) logs (ring + (n + 255) % 256)).cycle ≠ e.cycle) (hslot : slot ≠ ring + n % 256) :
    Sparse.get (fun _ => {}) (logPlace ring fuel logs n e) slot = Sparse.get (fun _ => {}) logs slot := by
  cases fuel with
  | zero => exact Sparse.get_set_other _ _ _ _ _ hslot
  | succ fuel =>
    unfold logPlace
    dsimp only
    generalize Sparse.get (fun _ => {}) logs (ring + (n + 255) % 256) = p at hcycle
    generalize BitVec.ofNat 32 (n + 2 ^ 32 - 1) = before
    rw [if_neg (by simp [hcycle])]
    exact Sparse.get_set_other _ _ _ _ _ hslot

/-- LOG_LOST counts the unread entries overwritten. -/
theorem State.logPush_get_logLost (s : State) (ring cyc code tempo : Nat) (d : List Nat) :
    (s.logPush ring cyc code tempo d).get (F.LOG_LOST ring)
      = if (s.get (F.LOG_WR ring) + 2 ^ 32 - s.get (F.LOG_RD ring)) % 2 ^ 32 < 256 then s.get (F.LOG_LOST ring)
          else (s.get (F.LOG_LOST ring) + 1) % 2 ^ 32 := by
  unfold State.logPush
  dsimp only
  rw [State.bump, State.get_put_other _ _ _ _ (by simp [Fld.covers, F.LOG_WR, F.LOG_LOST]) (by simp [F.LOG_LOST])]
  simp only [decide_eq_true_eq]
  split
  next hfull =>
    rw [if_neg (by omega), State.get_flag,
      State.get_put_other _ _ _ _ (by simp [Fld.covers, F.LOG_OVERWRITE, F.LOG_LOST]) (by simp [F.LOG_LOST]),
      State.bump, State.get_put_same _ _ _ (by simp [F.LOG_LOST]) (by simp [F.LOG_LOST])]
    rfl
  next hroom => rw [if_pos (by omega)]; rfl

/-- Settles O11: the count is made where the slot's entry is unread, and an entry of a new cycle goes to the slot that LOG_WR names. -/
theorem logOverwritesTheOldest : Obligations.LogOverwritesTheOldest := by
  intro s ring cyc code tempo details _
  refine ⟨s.logPush_get_logLost ring cyc code tempo details, fun hcycle slot hslot => ?_⟩
  rw [State.logPush_logs]
  exact logPlace_get_other 255 hcycle hslot

/-! ### The device address map (R392, R393) -/

theorem noRepeat_iff_nodup (l : List Nat) : noRepeat l = true ↔ l.Nodup := by
  induction l with
  | nil => simp [noRepeat]
  | cons a l ih => simp [noRepeat, ih]

theorem State.chLog2_pos (s : State) : 1 ≤ s.chLog2 := by
  unfold State.chLog2
  dsimp only
  split <;> omega

theorem State.chLog2_le (s : State) : s.chLog2 ≤ 4 := by
  unfold State.chLog2
  dsimp only
  split <;> omega

/-- The place in the channel map that a device address selects: bits of its 256-byte unit, folded onto the lowest ones (R392). -/
def State.placeOf (s : State) (d : Nat) : Nat :=
  ((d / 256) ^^^ (d / 256 / 16) ^^^ (d / 256 / 256) ^^^ (d / 256 / 4096)) % 2 ^ s.chLog2

theorem State.channelOf_eq (s : State) (d : Nat) : s.channelOf d = s.get F.MEM_CHMAP_LIST / 2 ^ (4 * s.placeOf d) % 16 := rfl

theorem State.placeOf_lt (s : State) (d : Nat) : s.placeOf d < 2 ^ s.chLog2 := Nat.mod_lt _ (by positivity)

/-- Under a map that names no channel twice, a channel is at one place of the map. -/
theorem State.placeOf_eq {s : State} {d d' : Nat} (hmap : noRepeat s.mapped = true) (h : s.channelOf d = s.channelOf d') :
    s.placeOf d = s.placeOf d' := by
  rw [noRepeat_iff_nodup] at hmap
  exact List.inj_on_of_nodup_map hmap (List.mem_range.2 (s.placeOf_lt d)) (List.mem_range.2 (s.placeOf_lt d')) h

/-- What is folded onto the lowest bits lies above them. -/
theorem unit_eq {k g g' : Nat} (hk : k ≤ 4) (habove : g / 2 ^ k = g' / 2 ^ k)
    (hfold : (g ^^^ (g / 16) ^^^ (g / 256) ^^^ (g / 4096)) % 2 ^ k = (g' ^^^ (g' / 16) ^^^ (g' / 256) ^^^ (g' / 4096)) % 2 ^ k) :
    g = g' := by
  have h16 : g / 16 = g' / 16 := by
    have hsplit : (16 : Nat) = 2 ^ k * 2 ^ (4 - k) := by rw [← pow_add, Nat.add_sub_cancel' hk]; rfl
    rw [hsplit, ← Nat.div_div_eq_div_mul, habove, Nat.div_div_eq_div_mul]
  have h256 : g / 256 = g' / 256 := by omega
  have h4096 : g / 4096 = g' / 4096 := by omega
  rw [h16, h256, h4096] at hfold
  simp only [Nat.xor_mod_two_pow, Nat.xor_left_inj] at hfold
  rw [← Nat.div_add_mod g (2 ^ k), habove, hfold, Nat.div_add_mod]

/-- The physical channel address gives the channel-local offset back: with ECC on, one block of 16 is left out (R393). -/
theorem State.localOf_eq {s : State} {d d' : Nat} (h : s.physOf d = s.physOf d') : s.localOf d = s.localOf d' := by
  unfold State.physOf at h
  dsimp only at h
  split at h <;> omega

/-- Settles O30: the physical address gives the local offset, the channel its place in the map, and both together the address. -/
theorem memoryMapIsOneToOne : Obligations.MemoryMapIsOneToOne := by
  intro s d d' hmap hchannel hphys
  have hlocal := State.localOf_eq hphys
  unfold State.localOf at hlocal
  have habove : d / 256 / 2 ^ s.chLog2 = d' / 256 / 2 ^ s.chLog2 := by omega
  have hunit : d / 256 = d' / 256 := unit_eq s.chLog2_le habove (State.placeOf_eq hmap hchannel)
  omega

/-! ### LOOP and JUMP of the DMA (R369, R372) -/

/-- The counter of a LOOP with number `i`. -/
def loopFld (c i : Nat) : Fld := if i = 0 then F.DMA_CH_LOOP0 c else F.DMA_CH_LOOP1 c

theorem loopFld_off {c i : Nat} (hi : i < 2) : (loopFld c i).off = 0x00D01020 + 0x80 * c + 4 * i := by
  unfold loopFld
  split <;> simp [F.DMA_CH_LOOP0, F.DMA_CH_LOOP1] <;> omega

theorem loopFld_hi (c i : Nat) : (loopFld c i).hi = 31 := by unfold loopFld; split <;> rfl

theorem loopFld_lo (c i : Nat) : (loopFld c i).lo = 0 := by unfold loopFld; split <;> rfl

theorem loopFld_covers {c i j : Nat} (hi : i < 2) (hj : j ≠ 0x00D01020 + 0x80 * c + 4 * i) : (loopFld c i).covers j = false := by
  simp [Fld.covers, loopFld_off hi, loopFld_hi, hj]

/-- What a LOOP leaves in its counter. -/
def State.loopLeft (s : State) (c w : Nat) : Nat :=
  ((if bit (s.get (F.DMA_CH_LOOP_ACT c)) (bits w 4 4) then s.get (loopFld c (bits w 4 4)) else bits w 47 16) + (2 ^ 32 - 1)) % 2 ^ 32

/-- The active counters after a LOOP. -/
def State.loopActive (s : State) (c w : Nat) : Nat :=
  if s.loopLeft c w ≠ 0 then s.get (F.DMA_CH_LOOP_ACT c) ||| 2 ^ bits w 4 4
  else setBits (s.get (F.DMA_CH_LOOP_ACT c)) (bits w 4 4) (bits w 4 4) 0

/-- Where the channel goes on after a LOOP. -/
def State.loopPc (s : State) (c w : Nat) : Nat :=
  if s.loopLeft c w ≠ 0 then unsigned 64 ((s.dmaPc c : Int) - 8 * (bits w 63 48 : Int)) else s.dmaPc c + 8

theorem State.dmaPc_put_loop (s : State) (c w n a : Nat) :
    ((s.put (loopFld c (bits w 4 4)) n).put (F.DMA_CH_LOOP_ACT c) a).dmaPc c = s.dmaPc c := by
  have hctr : bits w 4 4 < 2 := by simp [bits]; omega
  have hact (j : Nat) (hj : j ≠ 0x00D01028 + 0x80 * c) : (F.DMA_CH_LOOP_ACT c).covers j = false := by
    simpa [Fld.covers, F.DMA_CH_LOOP_ACT] using hj
  refine State.get_of_words ?_ ?_ <;>
    rw [State.word_put_other _ _ _ _ (hact _ (by simp only [F.DMA_CH_PC]; omega)),
      State.word_put_other _ _ _ _ (loopFld_covers hctr (by simp only [F.DMA_CH_PC]; omega))]

@[simp] theorem State.dmaChan_put (s : State) (f : Fld) (v c : Nat) : (s.put f v).dmaChan c = s.dmaChan c := by
  simp [State.dmaChan]

theorem State.dmaLoop_cases (s : State) (c w : Nat) :
    s.dmaLoop c w =
      (let t := s.put (loopFld c (bits w 4 4)) (s.loopLeft c w)
      let act := s.get (F.DMA_CH_LOOP_ACT c)
      if s.loopLeft c w != 0 then
        let t := t.put (F.DMA_CH_LOOP_ACT c) (act ||| 2 ^ bits w 4 4)
        (t.putInt (F.DMA_CH_PC c) ((t.dmaPc c : Int) - 8 * (bits w 63 48 : Int))).setDma c { t.dmaChan c with fromEnd := false }
      else (t.put (F.DMA_CH_LOOP_ACT c) (setBits act (bits w 4 4) (bits w 4 4) 0)).dmaNext c 1) := by
  unfold State.dmaLoop State.loopLeft loopFld
  rfl

/-- LOOP writes its counter, the active counters and PC. -/
theorem State.dmaLoop_eq (s : State) (c w : Nat) :
    s.dmaLoop c w = (((s.put (loopFld c (bits w 4 4)) (s.loopLeft c w)).put (F.DMA_CH_LOOP_ACT c) (s.loopActive c w)).put
      (F.DMA_CH_PC c) (s.loopPc c w)).setDma c { s.dmaChan c with fromEnd := false } := by
  unfold State.loopActive State.loopPc
  by_cases hleft : s.loopLeft c w = 0
  · rw [if_neg (not_not.2 hleft), if_neg (not_not.2 hleft), s.dmaLoop_cases]
    simp only [hleft, bne_self_eq_false, Bool.false_eq_true, if_false, State.dmaNext, State.dmaPc_put_loop, State.dmaChan_put]
  · rw [if_pos hleft, if_pos hleft, s.dmaLoop_cases]
    simp only [bne_iff_ne.2 hleft, if_true, State.dmaPc_put_loop, State.dmaChan_put]
    rfl

theorem State.get_setDma (s : State) (c : Nat) (d : DmaChan) (f : Fld) : (s.setDma c d).get f = s.get f := rfl

theorem State.word_setDma (s : State) (c : Nat) (d : DmaChan) (j : Nat) : (s.setDma c d).word j = s.word j := rfl

/-- A word other than those of the counter, the active counters and PC is as it was. -/
theorem State.dmaLoop_word_other {s : State} {c w j : Nat} (hctr : j ≠ 0x00D01020 + 0x80 * c + 4 * bits w 4 4)
    (hact : j ≠ 0x00D01028 + 0x80 * c) (hlo : j ≠ 0x00D01010 + 0x80 * c) (hhi : j ≠ 0x00D01014 + 0x80 * c) :
    (s.dmaLoop c w).word j = s.word j := by
  rw [s.dmaLoop_eq, State.word_setDma,
    State.word_put_other _ _ _ _ (by simp [Fld.covers, F.DMA_CH_PC]; omega),
    State.word_put_other _ _ _ _ (by simp [Fld.covers, F.DMA_CH_LOOP_ACT]; omega),
    State.word_put_other _ _ _ _ (loopFld_covers (by simp [bits]; omega) hctr)]

theorem bits_bit_lt (w i : Nat) : bits w i i < 2 := by
  simp only [bits, Nat.sub_self]
  omega

theorem State.dmaLoop_get_counter (s : State) (c w : Nat) :
    (s.dmaLoop c w).get (loopFld c (bits w 4 4)) = s.loopLeft c w := by
  have hctr := bits_bit_lt w 4
  have hoff := loopFld_off (c := c) hctr
  rw [s.dmaLoop_eq, State.get_setDma,
    State.get_put_other _ _ _ _ (by simp [Fld.covers, F.DMA_CH_PC, hoff]; omega) (by simp [loopFld_hi]),
    State.get_put_other _ _ _ _ (by simp [Fld.covers, F.DMA_CH_LOOP_ACT, hoff]; omega) (by simp [loopFld_hi]),
    State.get_put_same _ _ _ (by simp [loopFld_hi, loopFld_lo]) (by simp [loopFld_hi]), loopFld_hi, loopFld_lo, State.loopLeft,
    Nat.mod_mod]

theorem State.dmaLoop_get_active (s : State) (c w : Nat) :
    (s.dmaLoop c w).get (F.DMA_CH_LOOP_ACT c) = s.loopActive c w % 2 ^ 2 := by
  rw [s.dmaLoop_eq, State.get_setDma,
    State.get_put_other _ _ _ _ (by simp [Fld.covers, F.DMA_CH_PC, F.DMA_CH_LOOP_ACT]; omega) (by simp [F.DMA_CH_LOOP_ACT]),
    State.get_put_same _ _ _ (by simp [F.DMA_CH_LOOP_ACT]) (by simp [F.DMA_CH_LOOP_ACT])]
  simp only [F.DMA_CH_LOOP_ACT]

theorem State.get_put_dmaPc (s : State) (c v : Nat) : (s.put (F.DMA_CH_PC c) v).get (F.DMA_CH_PC c) = v % 2 ^ 64 := by
  rw [State.get_put_same_wide _ _ _ (by simp [F.DMA_CH_PC]) (by simp [F.DMA_CH_PC]) (by simp [F.DMA_CH_PC])]
  simp only [F.DMA_CH_PC]

theorem State.dmaLoop_dmaPc (s : State) (c w : Nat) : (s.dmaLoop c w).dmaPc c = s.loopPc c w % 2 ^ 64 := by
  rw [s.dmaLoop_eq, State.dmaPc, State.get_setDma, State.get_put_dmaPc]

theorem bit_setBits_zero_same (n i : Nat) : bit (setBits n i i 0) i = false := by
  have h := bits_setBits_same n i i 0 le_rfl
  simp only [bits, Nat.sub_self, Nat.zero_add, Nat.pow_one] at h
  simp [bit, h]

theorem bit_setBits_zero_other {n i j : Nat} (h : j ≠ i) : bit (setBits n i i 0) j = bit n j := by
  have hbits : bits (setBits n i i 0) j j = bits n j j := by
    rcases Nat.lt_or_gt_of_ne h with hlt | hgt
    · exact bits_setBits_below _ _ _ _ _ _ le_rfl hlt le_rfl
    · exact bits_setBits_above _ _ _ _ _ _ le_rfl hgt
  simp only [bits, Nat.sub_self, Nat.zero_add, Nat.pow_one] at hbits
  simp only [bit, hbits]

/-- The counter of a LOOP stays active while its count is not 0. -/
theorem State.bit_loopActive (s : State) (c w : Nat) : bit (s.loopActive c w) (bits w 4 4) = (s.loopLeft c w != 0) := by
  unfold State.loopActive
  split
  next hleft => rw [bit_or_two_pow_same, bne_iff_ne.2 hleft]
  next hleft => rw [bit_setBits_zero_same, not_not.1 hleft]; rfl

theorem State.bit_loopActive_other {s : State} {c w j : Nat} (h : j ≠ bits w 4 4) :
    bit (s.loopActive c w) j = bit (s.get (F.DMA_CH_LOOP_ACT c)) j := by
  unfold State.loopActive
  split
  · exact bit_or_two_pow_other _ h
  · exact bit_setBits_zero_other h

/-- LOOP goes back BACK words while its count is not 0, and to the next word otherwise. -/
theorem State.loopPc_mod (s : State) (c w : Nat) : s.loopPc c w % 2 ^ 64
    = if s.loopLeft c w ≠ 0 then (s.dmaPc c + 2 ^ 64 - 8 * bits w 63 48) % 2 ^ 64 else (s.dmaPc c + 8) % 2 ^ 64 := by
  unfold State.loopPc
  have hback : bits w 63 48 < 2 ^ 16 := Nat.mod_lt _ (by decide)
  split
  · unfold unsigned
    omega
  · rfl

theorem State.dmaLoop_mem (s : State) (c w : Nat) : (s.dmaLoop c w).mem = s.mem := by
  rw [State.dmaLoop_eq, State.setDma_mem, State.put_mem, State.put_mem, State.put_mem]

theorem State.dmaLoop_eng (s : State) (c w : Nat) : (s.dmaLoop c w).eng = s.eng := by
  rw [State.dmaLoop_eq, State.setDma_eng, State.put_eng, State.put_eng, State.put_eng]

theorem State.dmaLoop_emem (s : State) (c w : Nat) : (s.dmaLoop c w).emem = s.emem := by
  rw [State.dmaLoop_eq, State.setDma_emem, State.put_emem, State.put_emem, State.put_emem]

theorem State.dmaLoop_out (s : State) (c w : Nat) : (s.dmaLoop c w).out = s.out := by
  rw [State.dmaLoop_eq, State.setDma_out, State.put_out, State.put_out, State.put_out]

/-- Settles O27: LOOP is three register writes, each of which leaves the other words alone. -/
theorem dmaLoopCountsDown : Obligations.DmaLoopCountsDown := by
  refine ⟨fun w hop => by simp [dmaValid, hop, and_assoc], ?_⟩
  intro dt c f s₀ s w u ctr other n hs htakes hctrs hn
  have hctr := bits_bit_lt w 4
  obtain ⟨rfl, rfl⟩ : ctr = loopFld c (bits w 4 4) ∧ other = loopFld c (1 - bits w 4 4) := by
    obtain hzero | hone : bits w 4 4 = 0 ∨ bits w 4 4 = 1 := by omega
    · simpa [loopFld, hzero] using hctrs
    · simpa [loopFld, hone] using hctrs
  have hdown (x : Nat) : x + 2 ^ 32 - 1 = x + (2 ^ 32 - 1) := Nat.add_sub_assoc (by decide) x
  rw [show n = u.loopLeft c w by rw [hn, State.loopLeft, hdown]]
  have hotherOff := loopFld_off (c := c) (i := 1 - bits w 4 4) (by omega)
  refine ⟨u.dmaLoop c w, dmaCmd_takes htakes s₀ dt hs _, u.dmaLoop_get_counter c w, ?active, ?pc, ?other, ?otherActive, ?words, ?_⟩
  case active => rw [State.dmaLoop_get_active, bit_mod_two_pow _ hctr, State.bit_loopActive]
  case pc => rw [State.dmaLoop_dmaPc, State.loopPc_mod]
  case other =>
    refine State.get_of_word (by simp [loopFld_hi]) (State.dmaLoop_word_other ?_ ?_ ?_ ?_) <;> omega
  case otherActive =>
    rw [State.dmaLoop_get_active, bit_mod_two_pow _ (by omega), State.bit_loopActive_other (by omega)]
  case words =>
    intro o ho
    exact State.dmaLoop_word_other (by omega) (by omega) (by omega) (by omega)
  · exact ⟨u.dmaLoop_mem c w, u.dmaLoop_eng c w, u.dmaLoop_emem c w, u.dmaLoop_out c w⟩

/-- Settles O28: JUMP puts the target into PC. -/
theorem dmaJumpGoesToTheTarget : Obligations.DmaJumpGoesToTheTarget := by
  refine ⟨fun w hop => by simp [dmaValid, hop], ?_⟩
  intro dt c f s₀ s w u hs htakes
  refine ⟨_, dmaCmd_takes htakes s₀ dt hs _, ?_⟩
  have hpc : ((u.put (F.DMA_CH_PC c) (bits w 63 8 * 8 + 2 ^ 63 * bits w 4 4)).setDma c { u.dmaChan c with fromEnd := false }).dmaPc c
      = (bits w 63 8 * 8 + 2 ^ 63 * bits w 4 4) % 2 ^ 64 := by
    rw [State.dmaPc, State.get_setDma, State.get_put_dmaPc]
  have hspace := bits_bit_lt w 4
  have htarget : bits w 63 8 < 2 ^ 56 := Nat.mod_lt _ (by decide)
  rw [List.headD_cons, hpc]
  generalize bits w 63 8 = target at htarget ⊢
  generalize bits w 4 4 = space at hspace ⊢
  refine ⟨?_, ?_, ?_, ?_, fun o ho => ?_, by simp⟩
  any_goals simp only [bits]; omega
  exact State.word_put_other _ _ _ _ (by simp [Fld.covers, F.DMA_CH_PC]; omega)

/-! ### SEC_DOMAIN (R510) -/

/-- A register write changes the registers alone. -/
theorem State.put_regs_only (s : State) (f : Fld) (v : Nat) : { s.put f v with regs := s.regs } = s := by
  unfold State.put
  dsimp only
  split <;> rfl

/-- A write of SEC_DOMAIN with LOCK set, by a requester that may. -/
theorem State.domainWrite_locking {s : State} {who : Requester} (h : s.mayDomain who = true) (v : Nat) :
    s.domainWrite who (setBits v 31 31 1) = (s.put F.SEC_DOMAIN_CLUSTERS (setBits v 31 31 1)).put F.SEC_DOMAIN_LOCK 1 := by
  have hlock : bit (setBits v 31 31 1) 31 = true := by
    have hbits := bits_setBits_same v 31 31 1 le_rfl
    simp only [bits, Nat.sub_self, Nat.zero_add, Nat.pow_one] at hbits
    simp only [bit, hbits]
    rfl
  unfold State.domainWrite
  dsimp only
  rw [if_pos h, if_pos hlock]

/-- A write of SEC_DOMAIN by a requester that may not is an error. -/
theorem State.domainWrite_refused {s : State} {who : Requester} (h : s.mayDomain who = false) (v : Nat) :
    s.domainWrite who v = s.logErr siteSec 0x05 0x052 [] := by
  unfold State.domainWrite
  rw [if_neg (by simp [h])]

/-- An error of security leaves SEC_DOMAIN alone. -/
theorem State.logErr_sec_domain (s : State) (cls cause : Nat) (d : List Nat) :
    (s.logErr siteSec cls cause d).get F.SEC_DOMAIN_CLUSTERS = s.get F.SEC_DOMAIN_CLUSTERS := by
  refine State.get_of_word (by simp [F.SEC_DOMAIN_CLUSTERS]) (State.logErr_word _ _ _ _ _ _ ?_ ?_ fun f hf => ?_)
  · simp [inPmu, F.SEC_DOMAIN_CLUSTERS]
  · simp [siteSec, F.SEC_DOMAIN_CLUSTERS]
  · cases hf
    simp [Fld.covers, F.SEC_ERR, F.SEC_DOMAIN_CLUSTERS]

/-- Settles O38: who may write SEC_DOMAIN decides between the write and the error. -/
theorem lockedDomainStands : Obligations.LockedDomainStands := by
  intro dt who v s₀ s hs htakes
  have hexec : exec (.domainLock dt who v) s₀ = .next (s.domainWrite who (setBits v.toNat 31 31 1)) := by
    dsimp only [exec]
    exact regCmd_takes htakes s₀ dt hs _
  rw [hexec]
  constructor
  · intro hlocked
    have hmay : s.mayDomain who = false := by
      unfold State.mayDomain
      obtain hlock | ⟨hsecure, hwho⟩ := hlocked
      · simp [hlock]
      · simp [hsecure, hwho]
    exact ⟨by rw [State.domainWrite_refused hmay], s.logErr_sec_domain _ _ _⟩
  · intro hopen hwho
    have hmay : s.mayDomain who = true := by
      unfold State.mayDomain
      obtain hsecure | ⟨hrights, hboot⟩ := hwho
      · simp [hopen, hsecure]
      · simp [hopen, hrights, hboot]
    rw [State.domainWrite_locking hmay]
    refine ⟨_, rfl, ?clusters, ?lock, ?words, ?rest⟩
    case clusters =>
      rw [State.get_put_below _ F.SEC_DOMAIN_LOCK F.SEC_DOMAIN_CLUSTERS _ rfl (by simp [F.SEC_DOMAIN_LOCK])
          (by simp [F.SEC_DOMAIN_LOCK, F.SEC_DOMAIN_CLUSTERS])
          (by simp [F.SEC_DOMAIN_LOCK]) (by simp [F.SEC_DOMAIN_CLUSTERS]),
        State.get_put_same _ _ _ (by simp [F.SEC_DOMAIN_CLUSTERS]) (by simp [F.SEC_DOMAIN_CLUSTERS])]
      have hbits := bits_setBits_below v.toNat 31 31 1 11 0 le_rfl (by decide) (by decide)
      simpa [bits, F.SEC_DOMAIN_CLUSTERS] using hbits
    case lock => exact State.on_put_one _ _ (by simp [F.SEC_DOMAIN_LOCK]) (by simp [F.SEC_DOMAIN_LOCK])
    case words =>
      intro o ho
      rw [State.word_put_other _ _ _ _ (by simpa [Fld.covers, F.SEC_DOMAIN_LOCK] using ho),
        State.word_put_other _ _ _ _ (by simpa [Fld.covers, F.SEC_DOMAIN_CLUSTERS] using ho)]
    case rest =>
      have hfirst := s.put_regs_only F.SEC_DOMAIN_CLUSTERS (setBits v.toNat 31 31 1)
      have hsecond := (s.put F.SEC_DOMAIN_CLUSTERS (setBits v.toNat 31 31 1)).put_regs_only F.SEC_DOMAIN_LOCK 1
      exact (congrArg (fun t : State => { t with regs := s.regs }) hsecond).trans hfirst

/-! ### GPIO edges (R460) -/

/-- Taking away a bit that is set is writing 0 to it. -/
theorem sub_two_pow_eq_setBits {n i : Nat} (h : bit n i = true) : n - 2 ^ i = setBits n i i 0 := by
  have hset : n / 2 ^ i % 2 = 1 := by simpa [bit] using h
  have hhalf : n / 2 ^ i = 2 * (n / 2 ^ (i + 1)) + 1 := by
    rw [Nat.pow_succ, ← Nat.div_div_eq_div_mul]
    omega
  have hsplit : n = 2 ^ (i + 1) * (n / 2 ^ (i + 1)) + 2 ^ i + n % 2 ^ i := by
    calc n = 2 ^ i * (n / 2 ^ i) + n % 2 ^ i := (Nat.div_add_mod _ _).symm
      _ = 2 ^ i * (2 * (n / 2 ^ (i + 1)) + 1) + n % 2 ^ i := by rw [← hhalf]
      _ = 2 ^ (i + 1) * (n / 2 ^ (i + 1)) + 2 ^ i + n % 2 ^ i := by ring
  unfold setBits
  simp only [Nat.zero_mod, Nat.mul_zero, Nat.add_zero]
  omega

theorem bit_sub_two_pow_other {n i j : Nat} (h : bit n i = true) (hj : j ≠ i) : bit (n - 2 ^ i) j = bit n j := by
  rw [sub_two_pow_eq_setBits h, bit_setBits_zero_other hj]

/-- The levels of the GPIO balls once ball `i` has one. -/
def gpioLevels (w i : Nat) (level : Bool) : Nat := if level then w ||| 2 ^ i else w - 2 ^ i

theorem bit_gpioLevels_same {w i : Nat} {level : Bool} (h : bit w i = !level) : bit (gpioLevels w i level) i = level := by
  cases level with
  | true => exact bit_or_two_pow_same w i
  | false => exact bit_sub_two_pow_same h

theorem bit_gpioLevels_other {w i j : Nat} {level : Bool} (h : bit w i = !level) (hj : j ≠ i) :
    bit (gpioLevels w i level) j = bit w j := by
  cases level with
  | true => exact bit_or_two_pow_other w hj
  | false => exact bit_sub_two_pow_other h hj

/-- The state in which ball `i` shows its new level. -/
def State.gpioShown (s : State) (i : Nat) (level : Bool) : State :=
  { s with hif := { s.hif with gpioAt := Sparse.set (fun _ => 0) s.hif.gpioAt i (s.now + 1) } }.put F.GPIO_IN
    (gpioLevels (s.get F.GPIO_IN) i level)

theorem State.gpioShown_word_other (s : State) (i : Nat) (level : Bool) {j : Nat} (hj : j ≠ 0x01410000) :
    (s.gpioShown i level).word j = s.word j :=
  State.word_put_other _ _ _ _ (by simpa [Fld.covers, F.GPIO_IN] using hj)

theorem State.gpioShown_get_in (s : State) (i : Nat) (level : Bool) :
    (s.gpioShown i level).get F.GPIO_IN = gpioLevels (s.get F.GPIO_IN) i level % 2 ^ 32 := by
  rw [State.gpioShown, State.get_put_same _ _ _ (by simp [F.GPIO_IN]) (by simp [F.GPIO_IN])]
  simp only [F.GPIO_IN]

theorem State.gpioShown_gpioSel (s : State) (i j : Nat) (level : Bool) : (s.gpioShown i level).gpioSel j = s.gpioSel j := by
  unfold State.gpioSel
  rw [State.get_of_word (by simp [F.GPIO_EDGE_CFG0]) (s.gpioShown_word_other i level (by simp [F.GPIO_EDGE_CFG0])),
    State.get_of_word (by simp [F.GPIO_EDGE_CFG1]) (s.gpioShown_word_other i level (by simp [F.GPIO_EDGE_CFG1]))]

/-- Whether a ball's edge selection takes the edge to a level. -/
def State.edgeTaken (s : State) (i : Nat) (level : Bool) : Bool := bit (s.gpioSel i) (if level then 0 else 1)

theorem State.gpioShown_edgeTaken (s : State) (i : Nat) (level : Bool) : (s.gpioShown i level).edgeTaken i level = s.edgeTaken i level := by
  simp only [State.edgeTaken, State.gpioShown_gpioSel]

/-- A ball shows its new level; where its selection takes the edge, its status bit sets and its event is raised. -/
theorem State.gpioAccept_eq (s : State) (i : Nat) (level : Bool) :
    s.gpioAccept i level = if s.edgeTaken i level then
        ((s.gpioShown i level).flagBits F.GPIO_EDGE_STAT (2 ^ i)).raise (1280 + (16 + i))
      else s.gpioShown i level := by
  rw [← s.gpioShown_edgeTaken i level]
  rfl

theorem State.word_flagBits_other (s : State) (f : Fld) (m j : Nat) (h : f.covers j = false) : (s.flagBits f m).word j = s.word j :=
  State.word_put_other _ _ _ _ h

theorem State.get_flagBits (s : State) (f : Fld) (m : Nat) (hl : f.lo ≤ f.hi) (hh : f.hi < 32) :
    (s.flagBits f m).get f = (s.get f ||| m) % 2 ^ (f.hi - f.lo + 1) := State.get_put_same s f _ hl hh

/-- A new level changes the words of GPIO_IN and GPIO_EDGE_STAT and the PMU's alone. -/
theorem State.gpioAccept_word_other (s : State) (i : Nat) (level : Bool) {j : Nat} (hin : j ≠ 0x01410000) (hstat : j ≠ 0x01410020)
    (hpmu : inPmu j = false) : (s.gpioAccept i level).word j = s.word j := by
  rw [State.gpioAccept_eq]
  split
  · rw [State.raise_word _ _ _ hpmu, State.word_flagBits_other _ _ _ _ (by simpa [Fld.covers, F.GPIO_EDGE_STAT] using hstat),
      s.gpioShown_word_other i level hin]
  · exact s.gpioShown_word_other i level hin

theorem State.gpioAccept_get_in (s : State) (i : Nat) (level : Bool) :
    (s.gpioAccept i level).get F.GPIO_IN = gpioLevels (s.get F.GPIO_IN) i level % 2 ^ 32 := by
  rw [State.gpioAccept_eq, ← s.gpioShown_get_in]
  split
  · refine State.get_of_word (by simp [F.GPIO_IN]) ?_
    rw [State.raise_word _ _ _ (by simp [inPmu, F.GPIO_IN]),
      State.word_flagBits_other _ _ _ _ (by simp [Fld.covers, F.GPIO_EDGE_STAT, F.GPIO_IN])]
  · rfl

/-- The status bit of an edge that the ball's selection takes. -/
theorem State.bit_gpioAccept_stat {s : State} {i : Nat} {level : Bool} (hi : i < 32)
    (htaken : s.edgeTaken i level = true) :
    bit ((s.gpioAccept i level).get F.GPIO_EDGE_STAT) i = true := by
  rw [State.gpioAccept_eq, if_pos htaken, State.raise_get _ _ _ (by simp [inPmu, F.GPIO_EDGE_STAT]) (by simp [inPmu, F.GPIO_EDGE_STAT]),
    State.get_flagBits _ _ _ (by simp [F.GPIO_EDGE_STAT]) (by simp [F.GPIO_EDGE_STAT]),
    bit_mod_two_pow _ (by simpa [F.GPIO_EDGE_STAT] using hi)]
  exact bit_or_two_pow_same _ i

/-- Settles O37: the accepted level is a write of GPIO_IN, with a flag and an event where the edge is selected. -/
theorem gpioEdgeShowsAndRaises : Obligations.GpioEdgeShowsAndRaises := by
  intro dt i level s₀ s hs hheld hlevel hfiltered
  have hnew : s.gpioNew i level = true := by simp [State.gpioNew, hlevel, hfiltered]
  refine ⟨s.gpioAccept i level, evCmd_happens (guard := fun s => s.gpioNew i level) s₀ dt hs hheld hnew fun s => s.gpioAccept i level,
    ?own, ?others, ?taken, ?left, ?words, ?rest⟩
  case own => rw [State.gpioAccept_get_in, bit_mod_two_pow _ i.isLt, bit_gpioLevels_same hlevel]
  case others =>
    intro j hj
    rw [State.gpioAccept_get_in, bit_mod_two_pow _ j.isLt, bit_gpioLevels_other hlevel (Fin.val_ne_of_ne hj)]
  case taken =>
    intro (htaken : s.edgeTaken i level = true)
    refine ⟨State.bit_gpioAccept_stat i.isLt htaken, ?_⟩
    rw [State.gpioAccept_eq, if_pos htaken, show 1296 + i.val = 1280 + (16 + i.val) by omega]
    exact State.hasRaised_raise _ _
  case left =>
    intro (hleft : s.edgeTaken i level = false)
    rw [State.gpioAccept_eq, if_neg (by simp [hleft])]
    refine ⟨State.get_of_word (by simp [F.GPIO_EDGE_STAT]) (s.gpioShown_word_other i level (by simp [F.GPIO_EDGE_STAT])), ?_⟩
    rw [State.gpioShown, State.put_presented]
  case words =>
    intro o hin hstat hpmu
    exact s.gpioAccept_word_other i level hin hstat (by simp [inPmu]; omega)
  case rest =>
    rw [State.gpioAccept_eq]
    split <;> simp [State.gpioShown]

end Sys2Proof.Machine
end

section
/-! PROOFS. Reads and writes of device memory by a port (15 R396, R397, R399, R579): the bytes of a block, and what an access leaves
alone. -/

namespace Sys2Proof.Machine

/-! ### What an access leaves alone -/

/-- `t` has the stored bytes, the engines and the output of `s`. -/
structure State.KeepsData (s t : State) : Prop where
  bytes : t.mem.bytes = s.mem.bytes
  eng : t.eng = s.eng
  out : t.out = s.out

/-- As `KeepsData`, with the flaws of the blocks as well. -/
structure State.KeepsBlocks (s t : State) : Prop extends s.KeepsData t where
  flaws : t.mem.flaws = s.mem.flaws

theorem State.KeepsData.trans {a b c : State} (h : a.KeepsData b) (k : b.KeepsData c) : a.KeepsData c :=
  ⟨k.bytes.trans h.bytes, k.eng.trans h.eng, k.out.trans h.out⟩

theorem State.KeepsData.refl (s : State) : s.KeepsData s := ⟨rfl, rfl, rfl⟩

theorem State.KeepsData.setFlaw (s : State) (b : Nat) (f : Flaw) : s.KeepsData (s.setFlaw b f) := ⟨rfl, rfl, rfl⟩

namespace State.KeepsBlocks

theorem trans {a b c : State} (h : a.KeepsBlocks b) (k : b.KeepsBlocks c) : a.KeepsBlocks c :=
  ⟨h.toKeepsData.trans k.toKeepsData, k.flaws.trans h.flaws⟩

theorem of_eq {s t : State} (hmem : t.mem = s.mem) (heng : t.eng = s.eng) (hout : t.out = s.out) : s.KeepsBlocks t :=
  ⟨⟨by rw [hmem], heng, hout⟩, by rw [hmem]⟩

theorem refl (s : State) : s.KeepsBlocks s := of_eq rfl rfl rfl

theorem put (s : State) (f : Fld) (v : Nat) : s.KeepsBlocks (s.put f v) := of_eq (by simp) (by simp) (by simp)

theorem tally (s : State) (u i e n : Nat) : s.KeepsBlocks (s.tally u i e n) := of_eq (by simp) (by simp) (by simp)

theorem logErr (s : State) (e : Site) (cls cause : Nat) (d : List Nat) : s.KeepsBlocks (s.logErr e cls cause d) :=
  of_eq (by simp) (by simp) (by simp)

theorem draw (s : State) : s.KeepsBlocks s.draw.2 := of_eq rfl rfl rfl

theorem setChan (s : State) (n : Nat) (c : MemChan) : s.KeepsBlocks (s.setChan n c) := ⟨⟨rfl, rfl, rfl⟩, rfl⟩

theorem wakeChannel (s : State) (n : Nat) : s.KeepsBlocks (s.wakeChannel n) := by
  unfold State.wakeChannel
  dsimp only
  split
  · exact ((put _ _ _).trans (put _ _ _)).trans (setChan _ _ _)
  · exact (put _ _ _).trans (setChan _ _ _)

theorem rowCounts (s : State) (n : Nat) (hit full capped : Bool) : s.KeepsBlocks (s.rowCounts n hit full capped) := by
  refine of_eq (State.rowCounts_mem _ _ _ _ _) ?_ ?_ <;> cases full <;> cases capped <;> simp [State.rowCounts]

theorem access (s : State) (n b row : Nat) (q : RowQueue) : s.KeepsBlocks (s.access n b row q).2 :=
  (rowCounts s n _ _ _).trans (setChan _ _ _)

theorem rowQueue (s : State) (q : Option RowQueue) : s.KeepsBlocks (s.rowQueue q).2 := by
  cases q
  · exact draw s
  · exact refl s

/-- An access to a row changes counters, the row and the channel's activates, and nothing that is stored. -/
theorem memAccess (s : State) (d k : Nat) (q : Option RowQueue) : s.KeepsBlocks (s.memAccess d k q) :=
  ((rowQueue s q).trans ((wakeChannel _ _).trans ((tally _ _ _ _ _).trans (access _ _ _ _ _)))).trans (tally _ _ _ _ _)

end State.KeepsBlocks

theorem State.KeepsData.findFlaw (s : State) (b : Nat) : s.KeepsData (s.findFlaw b).2 := by
  unfold State.findFlaw
  split
  · exact (State.KeepsBlocks.draw s).toKeepsData.trans (.setFlaw _ _ _)
  · exact .refl s

/-- The check of a write is about the block's flaw, and not its bytes. -/
theorem State.KeepsData.checkWrite (s : State) (d : Nat) (full poison : Bool) : s.KeepsData (s.checkWrite d full poison) := by
  have hpoison : ∀ t : State, t.KeepsData (t.poisonWrite d) :=
    fun t => (setFlaw t _ _).trans (State.KeepsBlocks.logErr _ _ _ _ _).toKeepsData
  have hfound := findFlaw s (d / 64)
  unfold State.checkWrite
  dsimp only
  split
  · exact .refl s
  · split
    · exact setFlaw s _ _
    · split
      · exact setFlaw s _ _
      · split
        · exact hfound.trans (hpoison _)
        · exact hfound.trans (hpoison _)
        · exact hfound.trans (hpoison _)
        · exact hfound.trans (setFlaw _ _ _)

/-- The count of a port's bytes is the PMU's own. -/
theorem State.countBytes_eq (s : State) (slot n : Nat) : ∃ p, s.countBytes slot n = { s with pmu := p } := by
  unfold State.countBytes
  split
  · exact ⟨_, rfl⟩
  · exact ⟨s.pmu, rfl⟩

theorem State.out_emit (s : State) (o : Out) : (s.emit o).out = s.out ++ [o] := rfl

theorem State.byteAt_emit (s : State) (o : Out) (a : Nat) : (s.emit o).byteAt a = s.byteAt a := rfl

theorem exec_memoryRead {s₀ s : State} {dt : Nat} (hs : s = s₀.wait dt) (hheld : s.held = false) (port : Fin 28) (blk : BitVec 32)
    (q : RowQueue) : exec (.memoryRead dt port blk q) s₀ = .next (s.portRead port (64 * blk.toNat) q) :=
  evCmd_happens (guard := fun _ => true) s₀ dt hs hheld rfl fun s => s.portRead port (64 * blk.toNat) q

theorem exec_memoryWrite {s₀ s : State} {dt : Nat} (hs : s = s₀.wait dt) (hheld : s.held = false) (port : Fin 28) (blk : BitVec 32)
    (data : List (Option Byte)) (poison : Bool) (q : RowQueue) :
    exec (.memoryWrite dt port blk data poison q) s₀ = .next (s.portWrite port (64 * blk.toNat) data poison q) :=
  evCmd_happens (guard := fun _ => true) s₀ dt hs hheld rfl fun s => s.portWrite port (64 * blk.toNat) data poison q

/-! ### The bytes of memory -/

/-- Under one map, the same list of bytes is the same memory. -/
theorem State.byteAt_of_bytes {s t : State} (hmap : s.SameMap t) (hbytes : t.mem.bytes = s.mem.bytes) (a : Nat) :
    t.byteAt a = s.byteAt a := by
  unfold State.byteAt
  rw [hmap.byteDefault, hbytes]

theorem State.flawAt_of_flaws {s t : State} (hmap : s.SameMap t) (hflaws : t.mem.flaws = s.mem.flaws) (b : Nat) :
    t.flawAt b = s.flawAt b := by
  unfold State.flawAt
  rw [hmap.flawDefault, hflaws]

/-- Bytes stored under byte enables. -/
theorem State.byteAt_setEnabled (l : List (Option Byte)) (s : State) (d a : Nat) :
    (s.setEnabled d l).byteAt a = (if d ≤ a then l.getD (a - d) none else none).getD (s.byteAt a) := by
  induction l generalizing s d with
  | nil => simp [State.setEnabled]
  | cons v l ih =>
    have hrest : (s.setEnabled d (v :: l)).byteAt a
        = (if d + 1 ≤ a then l.getD (a - (d + 1)) none else none).getD (if a = d then v.getD (s.byteAt a) else s.byteAt a) := by
      cases v with
      | none => simp [State.setEnabled, ih]
      | some v => simp [State.setEnabled, ih, State.byteAt_setByte]
    rw [hrest]
    obtain hbelow | rfl | habove := Nat.lt_trichotomy a d
    · simp [show ¬ d ≤ a by omega, show ¬ d + 1 ≤ a by omega, show a ≠ d by omega]
    · simp
    · obtain ⟨k, rfl⟩ : ∃ k, a = d + 1 + k := ⟨a - (d + 1), by omega⟩
      simp [show d + 1 + k - d = k + 1 by omega, show d ≤ d + 1 + k by omega, show d + 1 + k ≠ d by omega]

theorem State.setEnabled_eng (l : List (Option Byte)) (s : State) (d : Nat) : (s.setEnabled d l).eng = s.eng := by
  induction l generalizing s d with
  | nil => rfl
  | cons v l ih => cases v <;> exact ih _ _

theorem State.setEnabled_out (l : List (Option Byte)) (s : State) (d : Nat) : (s.setEnabled d l).out = s.out := by
  induction l generalizing s d with
  | nil => rfl
  | cons v l ih => cases v <;> exact ih _ _

/-! ### Writes (R397, R579) -/

/-- What a write that the memory serves does: counts, an access, the enabled bytes, and the block's flaw. -/
theorem State.writeEnabled_served {s : State} {d : Nat} {data : List (Option Byte)} (htop : s.belowTop d = true)
    (hserves : s.serves d = true) (port : Nat) (poison : Bool) (q : Option RowQueue) :
    ∃ p full, s.writeEnabled port d data poison q
      = (true, (({ s with pmu := p }.memAccess d 1 q).setEnabled d (data.take 64)).checkWrite d full poison) := by
  obtain ⟨p, hp⟩ := s.countBytes_eq (2 * port + 1) ((data.take 64).filter (·.isSome)).length
  refine ⟨p, (data.take 64).length == 64 && (data.take 64).all (·.isSome), ?_⟩
  unfold State.writeEnabled
  dsimp only
  rw [if_neg (by simp [htop]), if_neg (by simp [hserves]), hp]

/-- Settles O31: of what a write does, only the enabled bytes change what is stored. -/
theorem memoryWriteStoresItsBytes : Obligations.MemoryWriteStoresItsBytes := by
  intro dt port blk data poison q s₀ s u hs hheld hu htop hserves hlen
  refine ⟨_, exec_memoryWrite hs hheld port blk data poison q, ?_⟩
  subst hu
  generalize hd : 64 * blk.toNat = d at *
  generalize hu : s.settle d 64 = u at *
  have hcores := State.KeepsCores.writeEnabled u port d data poison (some q)
  obtain ⟨p, full, hwrite⟩ := State.writeEnabled_served (data := data) htop hserves port poison (some q)
  have hport : s.portWrite port d data poison q = (u.writeEnabled port d data poison (some q)).2.emit (.memAck port d true) := by
    rw [State.portWrite, hu, hwrite]
  have haccess := State.KeepsBlocks.memAccess { u with pmu := p } d 1 (some q)
  have hcheck := State.KeepsData.checkWrite (({ u with pmu := p }.memAccess d 1 (some q)).setEnabled d (data.take 64)) d full poison
  rw [hport]
  refine ⟨fun a => ?_, ?_, ?_, hcores.emem, hcores.pending⟩
  · rw [State.byteAt_emit, hwrite, State.byteAt_of_bytes (State.Keeps.checkWrite _ _ _ _).1 hcheck.bytes, State.byteAt_setEnabled,
      State.byteAt_of_bytes (State.Keeps.memAccess _ _ _ _).1 haccess.bytes, List.take_of_length_le hlen]
    rfl
  · rw [State.out_emit, hwrite, hcheck.out, State.setEnabled_out, haccess.out]
  · rw [State.emit_eng, hwrite, hcheck.eng, State.setEnabled_eng, haccess.eng]

/-! ### Reads (R396) -/

theorem blocksOf_block (b : Nat) : blocksOf (64 * b) 64 = [b] := by
  simp [blocksOf, show (64 * b + 63) / 64 - b + 1 = 1 by omega]

/-- A read of one block. -/
theorem State.memGet_block (s : State) (port b : Nat) (q : Option RowQueue) :
    ∃ p, s.memGet port (64 * b) 64 q
      = (if ({ s with pmu := p }.readBlock b q).1 then some (({ s with pmu := p }.readBlock b q).2.peek (64 * b) 64) else none,
          ({ s with pmu := p }.readBlock b q).2) := by
  obtain ⟨p, hp⟩ := s.countBytes_eq (2 * port) 64
  refine ⟨p, ?_⟩
  unfold State.memGet
  dsimp only
  rw [hp, blocksOf_block]
  simp [State.peek]

/-- A good block is read as it stands. -/
theorem State.readBlock_good {s : State} {b : Nat} (htop : s.belowTop (64 * b) = true) (hserves : s.serves (64 * b) = true)
    (hgood : s.flawAt b = .good) (q : Option RowQueue) : s.readBlock b q = (true, s.memAccess (64 * b) 0 q) := by
  have hflaw : (s.memAccess (64 * b) 0 q).flawAt b = .good := by
    rw [State.flawAt_of_flaws (State.Keeps.memAccess s _ _ _).1 (State.KeepsBlocks.memAccess s _ _ _).flaws, hgood]
  unfold State.readBlock
  dsimp only
  rw [if_neg (by simp [htop]), if_neg (by simp [hserves])]
  split
  · rfl
  · simp only [State.findFlaw, hflaw]

/-- Settles O32: the read of a good block is an access, which leaves what is stored alone. -/
theorem memoryReadReturnsItsBytes : Obligations.MemoryReadReturnsItsBytes := by
  intro dt port blk q s₀ s u hs hheld hu htop hserves hgood
  refine ⟨_, exec_memoryRead hs hheld port blk q, ?_⟩
  generalize blk.toNat = b at *
  subst hu
  generalize hu : s.settle (64 * b) 64 = u at *
  have hcores := State.KeepsCores.memGet u port (64 * b) 64 (some q)
  obtain ⟨p, hget⟩ := u.memGet_block port b (some q)
  rw [State.readBlock_good (s := { u with pmu := p }) htop hserves hgood, if_pos rfl] at hget
  have haccess := State.KeepsBlocks.memAccess { u with pmu := p } (64 * b) 0 (some q)
  have hbyte (a : Nat) : ({ u with pmu := p }.memAccess (64 * b) 0 (some q)).byteAt a = u.byteAt a :=
    State.byteAt_of_bytes (State.Keeps.memAccess { u with pmu := p } _ _ _).1 haccess.bytes a
  have hpeek : ({ u with pmu := p }.memAccess (64 * b) 0 (some q)).peek (64 * b) 64 = u.peek (64 * b) 64 := by
    simp only [State.peek, hbyte]
  have hport : s.portRead port (64 * b) q
      = (u.memGet port (64 * b) 64 (some q)).2.emit (.memData port (64 * b) (some (u.peek (64 * b) 64))) := by
    rw [State.portRead, hu, hget, hpeek]
  rw [hport]
  refine ⟨?_, fun a => ?_, ?_, hcores.emem, hcores.pending⟩
  · rw [State.out_emit, hget, haccess.out]
  · rw [State.byteAt_emit, hget, hbyte]
  · rw [State.emit_eng, hget, haccess.eng]

/-! ### Closed memory (R399) -/

theorem State.serves_of_closed {s : State} (hclosed : s.on F.MEM_CTRL_OPEN = false) (d : Nat) : s.serves d = false := by
  simp [State.serves, hclosed]

/-- Before OPEN is 1, an access that is turned away is counted alone. -/
theorem State.turnAway_closed {s : State} (hclosed : s.on F.MEM_CTRL_OPEN = false) (d : Nat) :
    s.turnAway d = s.bump (F.MC_FENCED_ACC (s.channelOf d)) := by
  have hstill : (s.bump (F.MC_FENCED_ACC (s.channelOf d))).on F.MEM_CTRL_OPEN = false := by
    rw [← hclosed, State.on, State.on, State.bump,
      State.get_put_other _ _ _ _ (by simp [Fld.covers, F.MC_FENCED_ACC, F.MEM_CTRL_OPEN]; omega) (by simp [F.MEM_CTRL_OPEN])]
  unfold State.turnAway
  dsimp only
  rw [if_neg (by simp [hstill])]

theorem State.get_bump_fenced (s : State) (n : Nat) :
    (s.bump (F.MC_FENCED_ACC n)).get (F.MC_FENCED_ACC n) = (s.get (F.MC_FENCED_ACC n) + 1) % 2 ^ 32 := by
  rw [State.bump, State.get_put_same _ _ _ (by simp [F.MC_FENCED_ACC]) (by simp [F.MC_FENCED_ACC])]
  simp only [F.MC_FENCED_ACC]

/-- A write that the memory does not serve. -/
theorem State.writeEnabled_unserved {s : State} {d : Nat} (htop : s.belowTop d = true) (hserves : s.serves d = false) (port : Nat)
    (data : List (Option Byte)) (poison : Bool) (q : Option RowQueue) :
    s.writeEnabled port d data poison q = (false, s.turnAway d) := by
  unfold State.writeEnabled
  dsimp only
  rw [if_neg (by simp [htop]), if_pos (by simp [hserves])]

/-- A read that the memory does not serve. -/
theorem State.readBlock_unserved {s : State} {b : Nat} (htop : s.belowTop (64 * b) = true) (hserves : s.serves (64 * b) = false)
    (q : Option RowQueue) : s.readBlock b q = (false, s.turnAway (64 * b)) := by
  unfold State.readBlock
  dsimp only
  rw [if_neg (by simp [htop]), if_pos (by simp [hserves])]

/-- Settles O33: closed memory serves no address, and an access that it turns away is counted alone. -/
theorem closedMemoryTurnsAccessesAway : Obligations.ClosedMemoryTurnsAccessesAway := by
  intro dt port blk data poison q s₀ s u hs hheld hu htop hclosed
  refine ⟨⟨_, exec_memoryRead hs hheld port blk q, ?read⟩, _, exec_memoryWrite hs hheld port blk data poison q, ?write⟩
  all_goals
    generalize blk.toNat = b at *
    have hserves := State.serves_of_closed hclosed (64 * b)
    subst hu
    generalize hu : s.settle (64 * b) 64 = u at *
  case read =>
    obtain ⟨p, hget⟩ := u.memGet_block port b (some q)
    rw [State.readBlock_unserved (s := { u with pmu := p }) htop hserves, State.turnAway_closed (s := { u with pmu := p }) hclosed] at hget
    simp only [Bool.false_eq_true, if_false] at hget
    rw [State.portRead, hu, hget]
    refine ⟨?_, State.get_bump_fenced { u with pmu := p } _, ?_, ?_⟩
    · rw [State.out_emit, State.bump_out]
    · rw [State.emit_logs, State.bump_logs]
    · rw [State.emit_mem, State.bump_mem]
  case write =>
    rw [State.portWrite, hu, State.writeEnabled_unserved htop hserves, State.turnAway_closed hclosed]
    refine ⟨?_, u.get_bump_fenced _, ?_, ?_⟩
    · rw [State.out_emit, State.bump_out]
    · rw [State.emit_logs, State.bump_logs]
    · rw [State.emit_mem, State.bump_mem]

end Sys2Proof.Machine
end

section
/-! PROOFS. What the passing of Tempo does to a state that lists a decoder which the device does not have, and two statements that fail of
such states: one about timers (13 R358) and one about memory (15 R396, R397). -/

namespace Sys2Proof.Machine

/-! ### A decoder beyond the device's -/

/-- A line A on which a pulse of the TMP cycle 0 has just ended: the TMP edge at Tempo 8 rejects it. -/
def pulsedDecoder : Decoder := { a := { smp := true } }

/-- The decoder once its pulse is rejected. -/
def rejectedDecoder : Decoder := { a := { runCycle := 1, rejects := 1 } }

section Pulsed

variable {s : State} {n : Nat} (hdec : s.wtu.dec = [(n, pulsedDecoder)])
include hdec

theorem State.pulses_of_pulsed : s.pulses = [(8, n, .a)] := by
  have ha : (pulsedDecoder.line .a).rejectAt = some 8 := by decide
  have hb : (pulsedDecoder.line .b).rejectAt = none := by decide
  have hz : (pulsedDecoder.line .z).rejectAt = none := by decide
  simp [State.pulses, hdec, ha, hb, hz]

theorem State.rejectPulse_of_pulsed (hnow : s.now = 8) :
    s.rejectPulse n .a = (s.setDec n rejectedDecoder).bump (F.WTU_ENC_GLITCH_COUNT n) := by
  have hline : s.dec n = pulsedDecoder := by simp [State.dec, hdec, Sparse.get]
  have hseen : EncLine.seen pulsedDecoder.a 8 = { runCycle := 1 } := by decide
  unfold State.rejectPulse State.reject
  rw [hnow, hline]
  dsimp only [Decoder.line]
  rw [hseen]
  rfl

theorem State.pulses_of_rejected (f : Fld) : ((s.setDec n rejectedDecoder).bump f).pulses = [] := by
  have hlisted : rejectedDecoder ≠ {} := by decide
  have hset : ((s.setDec n rejectedDecoder).bump f).wtu.dec = [(n, rejectedDecoder)] := by
    rw [State.bump_wtu]
    simp [State.setDec, hdec, Sparse.set, Sparse.drop, Sparse.ins, hlisted]
  have ha : (rejectedDecoder.line .a).rejectAt = none := by decide
  have hb : (rejectedDecoder.line .b).rejectAt = none := by decide
  have hz : (rejectedDecoder.line .z).rejectAt = none := by decide
  rw [State.pulses, hset]
  simp [ha, hb, hz]

/-- The passing of Tempo rejects the pulse and counts it, in the register that the decoder's number gives. -/
theorem State.wait_of_pulsed (hnow : s.now ≤ 8) {dt : Nat} (hlong : 8 ≤ s.now + dt) :
    s.wait dt = (((s.pass (8 - s.now)).setDec n rejectedDecoder).bump (F.WTU_ENC_GLITCH_COUNT n)).pass (s.now + dt - 8) := by
  have hpassed : (s.pass (8 - s.now)).now = 8 := by rw [State.pass_now (by omega)]; omega
  have hdec' : (s.pass (8 - s.now)).wtu.dec = [(n, pulsedDecoder)] := hdec
  have hrejected := State.rejectPulse_of_pulsed hdec' hpassed
  have hpulses := State.pulses_of_pulsed hdec
  rw [State.wait, if_neg (by simp [hpulses]), State.passTo_one_pulse hpulses hlong (by rw [hrejected, State.pulses_of_rejected hdec']),
    hrejected]
  have hcounted : (((s.pass (8 - s.now)).setDec n rejectedDecoder).bump (F.WTU_ENC_GLITCH_COUNT n)).now = 8 :=
    (congrArg BitVec.toNat (State.bump_tempo _ _ _)).trans hpassed
  rw [hcounted]

/-- Before the pulse ends Tempo passes alone. -/
theorem State.wait_before_pulse {dt : Nat} (hshort : s.now + dt < 8) : s.wait dt = s.pass dt := by
  have hpulses := State.pulses_of_pulsed hdec
  rw [State.wait, if_neg (by simp [hpulses]), State.passTo, hpulses]
  simp [sortBy, insertBy, show ¬ 8 ≤ s.now + dt by omega]

end Pulsed

/-! ### A timer whose register the pulse's count reaches (R358) -/

/-- A device whose timer 2 is enabled with RETRIG and does not run, and whose decoder table lists a decoder that it does not have: that
one's glitch counter would lie at the timer's configuration. -/
def timerBesideDecoder : State :=
  { State.reset with
    regs := [(0x00C0B020, 3), (0x00C0B024, 0)], wtu := { dec := [(0x2C2B8, pulsedDecoder)] } }

theorem timerBesideDecoder_wait : timerBesideDecoder.wait 0 = timerBesideDecoder.pass 0 :=
  State.wait_before_pulse rfl (by decide)

/-- The timer once started. -/
def timerStarted : State := (timerBesideDecoder.pass 0).timerStart 2

theorem timerStarted_word : timerStarted.word 0x00C0B020 = 7 := by decide

/-- The count of the pulse carries into RUNNING. -/
theorem timerStarted_wait_running : (timerStarted.wait 8).on (F.EVF_TMR_CFG_RUNNING 2) = false := by
  rw [State.wait_of_pulsed (s := timerStarted) (n := 0x2C2B8) rfl (by decide) (by decide)]
  decide

theorem timerStarted_wait_cycle : (timerStarted.wait 8).cycle = 1 := by
  rw [State.wait_of_pulsed (s := timerStarted) (n := 0x2C2B8) rfl (by decide) (by decide)]
  decide

/-- Refutes O26: a state may list a decoder that the device does not have, and the pulse that Tempo rejects there counts up the timer's
own configuration, where its carry clears RUNNING. -/
theorem not_timerRunsItsDelay : ¬ Obligations.TimerRunsItsDelay := by
  intro h
  have hheld : (timerBesideDecoder.pass 0).held = false := by decide
  obtain ⟨hstart, -⟩ := h 0 2 timerBesideDecoder _ timerBesideDecoder_wait.symm hheld
  have hen : (timerBesideDecoder.pass 0).on (F.EVF_TMR_CFG_EN 2) = true := by decide
  have hidle : (timerBesideDecoder.pass 0).timerBusy 2 = false := by decide
  have hearly : (timerBesideDecoder.pass 0).timerDue 2 = false := by decide
  obtain ⟨-, -, hdue⟩ := hstart hen hidle hearly
  have hdelay : (timerBesideDecoder.pass 0).cycle + max 1 ((timerBesideDecoder.pass 0).get (F.EVF_TMR_DELAY 2))
      ≤ (timerStarted.wait 8).cycle := by
    rw [timerStarted_wait_cycle]
    decide
  have hexpires : (timerStarted.wait 8).timerDue 2 = true := (hdue 8).trans (decide_eq_true hdelay)
  rw [State.timerDue, timerStarted_wait_running] at hexpires
  cases hexpires

/-! ### A channel map that the pulse's count reaches (R392, R578) -/

/-- A device with memory in canonical form: a block of channel 0 has an undefined flaw, and channel 1 has been trained anew. Its
decoder table lists a decoder that it does not have: that one's glitch counter would lie at the list of the channel map. -/
def mapBesideDecoder : State :=
  { State.reset with
    regs := [(0x00E08018, 1), (0x00E08020, 0), (0x00E08024, 0)], wtu := { dec := [(0x341F8, pulsedDecoder)] }
    mem := { State.reset.mem with zeroed := true, chan := [(1, { gen := 1 })], flaws := [(0, .unknown)] } }

theorem mapBesideDecoder_wf : Memory.wf mapBesideDecoder = true := by decide

/-- Once the pulse is counted, the map takes the block to channel 1, whose blocks have undefined flaws unlisted. -/
theorem mapBesideDecoder_wait_not_wf : Memory.wf (mapBesideDecoder.wait 8) = false := by
  rw [State.wait_of_pulsed (s := mapBesideDecoder) (n := 0x341F8) rfl (by decide) (by decide)]
  decide

/-- Refutes O34: a state may list a decoder that the device does not have, and the pulse that Tempo rejects there while a command waits
counts up the channel map. -/
theorem not_memoryCommandsKeepCanonicalForm : ¬ Obligations.MemoryCommandsKeepCanonicalForm := by
  intro h
  have hgrant : ((mapBesideDecoder.wait 8).chan 0).grant = none := by
    rw [State.chan, State.wait_mem]
    rfl
  have hexec : exec (.grantFlagFall 8 0) mapBesideDecoder = .next (mapBesideDecoder.wait 8) :=
    evCmd_idles (guard := fun s => s.grantIdle 0) mapBesideDecoder 8 rfl (by simp [State.grantIdle, hgrant]) fun s => s.cutGrant 0
  have hkept := h _ _ _ rfl mapBesideDecoder_wf hexec
  rw [mapBesideDecoder_wait_not_wf] at hkept
  cases hkept

end Sys2Proof.Machine
end

section
/-! PROOFS. Doorbells (14 R378, R383, R385, R386): what a doorbell leaves alone, and what it does in each state of its channel. -/

namespace Sys2Proof.Machine

/-! ### What a doorbell leaves alone -/

/-- The words outside the tasks' counts of the EVF, the DMA and the PMU. -/
def beyondDma (o : Nat) : Prop :=
  o < 0x00C10000 ∨ (0x00C12000 ≤ o ∧ o < 0x00D00000) ∨ (0x00E00000 ≤ o ∧ o < 0x01500000) ∨ 0x01600000 ≤ o

theorem inPmu_of_beyondDma {o : Nat} (h : beyondDma o) : inPmu o = false := by
  unfold beyondDma at h
  simp [inPmu]
  omega

/-- `t` has the memory, the engines, the output and the words beyond the DMA of `s`. -/
structure State.KeepsBeyondDma (s t : State) : Prop where
  mem : t.mem = s.mem
  eng : t.eng = s.eng
  out : t.out = s.out
  word : ∀ o, beyondDma o → t.word o = s.word o

namespace State.KeepsBeyondDma

theorem refl (s : State) : s.KeepsBeyondDma s := ⟨rfl, rfl, rfl, fun _ _ => rfl⟩

theorem trans {a b c : State} (h : a.KeepsBeyondDma b) (k : b.KeepsBeyondDma c) : a.KeepsBeyondDma c :=
  ⟨k.mem.trans h.mem, k.eng.trans h.eng, k.out.trans h.out, fun o ho => (k.word o ho).trans (h.word o ho)⟩

theorem setDma (s : State) (c : Nat) (d : DmaChan) : s.KeepsBeyondDma (s.setDma c d) := ⟨rfl, rfl, rfl, fun _ _ => rfl⟩

theorem of_logged {s t : State} (h : s.Logged t) (hword : ∀ o, beyondDma o → t.word o = s.word o) : s.KeepsBeyondDma t := by
  obtain ⟨p, r, l, n, q, rfl⟩ := h
  exact ⟨rfl, rfl, rfl, hword⟩

/-- A register of the DMA. -/
theorem put (s : State) {f : Fld} (v : Nat) (hlow : 0x00D00000 ≤ f.off) (hhigh : f.off + 4 < 0x00E00000) :
    s.KeepsBeyondDma (s.put f v) := by
  refine of_logged (.put s f v) fun o ho => State.word_put_other _ _ _ _ ?_
  unfold beyondDma at ho
  simp [Fld.covers]
  omega

theorem raise (s : State) (src : Nat) : s.KeepsBeyondDma (s.raise src) :=
  of_logged (State.Raised.raise s src).logged fun _ ho => State.raise_word _ _ _ (inPmu_of_beyondDma ho)

theorem logDma (s : State) (cls cause : Nat) (d : List Nat) : s.KeepsBeyondDma (s.logErr siteDma cls cause d) := by
  refine of_logged (.logErr s _ _ _ _) fun o ho => State.logErr_word _ _ _ _ _ _ (inPmu_of_beyondDma ho) ?_ fun f hf => ?_
  · unfold beyondDma at ho
    simp only [siteDma]
    omega
  · cases hf
    unfold beyondDma at ho
    simp [Fld.covers, F.DMA_ERR]
    omega

end State.KeepsBeyondDma

/-! A trigger that is absorbed. -/

theorem State.Raised.absorb (s : State) (i : Nat) : s.Raised (s.absorb i) :=
  ((State.Raised.put s _ _).trans (.flag _ _)).trans (.raise _ _)

/-- A trigger absorbed changes the word of its task and the PMU's alone. -/
theorem State.absorb_word (s : State) (i : Nat) {j : Nat} (hj : j ≠ 0x00C10000 + 4 * i) (hpmu : inPmu j = false) :
    (s.absorb i).word j = s.word j := by
  unfold State.absorb State.coalesce
  rw [State.raise_word _ _ _ hpmu, State.word_flag_other _ _ _ (by simpa [Fld.covers, F.EVF_TASK_OVERRUN] using hj),
    State.word_put_other _ _ _ _ (by simpa [Fld.covers, F.EVF_TASK_COALESCE] using hj)]

theorem State.KeepsBeyondDma.absorb (s : State) {i : Nat} (hi : i < 2048) : s.KeepsBeyondDma (s.absorb i) := by
  refine of_logged (State.Raised.absorb s i).logged fun o ho => s.absorb_word i ?_ (inPmu_of_beyondDma ho)
  unfold beyondDma at ho
  omega

/-! An event that is withdrawn. -/

theorem State.Raised.withdrawEvent (s : State) (src : Nat) : s.Raised (s.withdrawEvent src) := by
  unfold State.withdrawEvent
  exact State.Raised.trans ⟨_, s.regs, s.past, rfl⟩ (.foldl _ (fun _ _ => .put _ _ _) _ _)

/-- The withdrawal of an event changes no register outside the PMU. -/
theorem State.withdrawEvent_word (s : State) (src : Nat) {j : Nat} (hj : inPmu j = false) : (s.withdrawEvent src).word j = s.word j := by
  unfold State.withdrawEvent
  rw [State.foldl_word _ _ _ _ fun t c hc => State.put_cnt_word _ _ _ _ (State.pmuFor_lt _ _ _ _ _ hc) hj]
  rfl

/-! ### The state of a channel (R385) -/

section Channel

variable (s : State) {c : Nat} (hc : c < 32)

/-- A change of state is a write of the channel's status and of DMA_ENDWAIT. -/
theorem State.setDmaState_eq (c st : Nat) : ∃ w, s.setDmaState c st = (s.put (F.DMA_CH_STAT_STATE c) st).put F.DMA_ENDWAIT w :=
  ⟨_, rfl⟩

theorem State.setDmaState_word_other (st : Nat) {j : Nat} (hstat : j ≠ 0x00D01004 + 0x80 * c) (hend : j ≠ 0x00D00008) :
    (s.setDmaState c st).word j = s.word j := by
  obtain ⟨w, hw⟩ := s.setDmaState_eq c st
  rw [hw, State.word_put_other _ _ _ _ (by simpa [Fld.covers, F.DMA_ENDWAIT] using hend),
    State.word_put_other _ _ _ _ (by simpa [Fld.covers, F.DMA_CH_STAT_STATE] using hstat)]

theorem State.dmaState_setDmaState (c : Nat) {st : Nat} (hst : st < 8) : (s.setDmaState c st).dmaState c = st := by
  obtain ⟨w, hw⟩ := s.setDmaState_eq c st
  rw [hw, State.dmaState,
    State.get_put_other _ _ _ _ (by simp [Fld.covers, F.DMA_ENDWAIT, F.DMA_CH_STAT_STATE]; omega) (by simp [F.DMA_CH_STAT_STATE]),
    State.get_put_same _ _ _ (by simp [F.DMA_CH_STAT_STATE]) (by simp [F.DMA_CH_STAT_STATE])]
  exact Nat.mod_eq_of_lt hst

/-- The other fields of the channel's status stay. -/
theorem State.setDmaState_get_above (st : Nat) {g : Fld} (hoff : g.off = 0x00D01004 + 0x80 * c) (hlo : 2 < g.lo) (hhi : g.hi < 32) :
    (s.setDmaState c st).get g = s.get g := by
  obtain ⟨w, hw⟩ := s.setDmaState_eq c st
  rw [hw, State.get_put_other _ _ _ _ (by simp [Fld.covers, F.DMA_ENDWAIT, hoff]; omega) (by omega)]
  exact State.get_put_above _ (F.DMA_CH_STAT_STATE c) _ _ hoff (by simp [F.DMA_CH_STAT_STATE]) hlo (by simp [F.DMA_CH_STAT_STATE]) hhi

include hc in
theorem State.KeepsBeyondDma.setDmaState (st : Nat) : s.KeepsBeyondDma (s.setDmaState c st) := by
  obtain ⟨w, hw⟩ := s.setDmaState_eq c st
  rw [hw]
  exact (put s st (by simp only [F.DMA_CH_STAT_STATE]; omega) (by simp only [F.DMA_CH_STAT_STATE]; omega)).trans
    (put _ w (by simp [F.DMA_ENDWAIT]) (by simp [F.DMA_ENDWAIT]))

/-! ### A doorbell in END_WAIT (R378, R379) -/

include hc in
/-- A doorbell in END_WAIT has the word at PC fetched again; an END of the same PIX cycle has presented no event and was no empty
doorbell. -/
theorem State.fetchAtEnd_eq : ∃ u again, s.fetchAtEnd c = u.refetch c again ∧ s.KeepsBeyondDma u
    ∧ ∀ j, j ≠ 0x00D0102C + 0x80 * c → inPmu j = false → u.word j = s.word j := by
  unfold State.fetchAtEnd
  split
  next t ev again _ =>
    split
    · have hevent : s.KeepsBeyondDma (if ev then s.withdrawEvent (832 + c) else s)
          ∧ ∀ j, inPmu j = false → (if ev then s.withdrawEvent (832 + c) else s).word j = s.word j := by
        cases ev
        · exact ⟨.refl s, fun _ _ => rfl⟩
        · exact ⟨.of_logged (State.Raised.withdrawEvent s _).logged fun o ho => s.withdrawEvent_word _ (inPmu_of_beyondDma ho),
            fun j hj => s.withdrawEvent_word _ hj⟩
      dsimp only
      generalize (if ev then s.withdrawEvent (832 + c) else s) = v at hevent
      obtain ⟨hkeeps, hword⟩ := hevent
      refine ⟨_, again, rfl, ?_⟩
      cases again
      · exact ⟨hkeeps, fun j _ hpmu => hword j hpmu⟩
      · have hcounted := State.KeepsBeyondDma.put v (f := F.DMA_CH_DB_EMPTY c) (v.get (F.DMA_CH_DB_EMPTY c) - 1)
          (by simp only [F.DMA_CH_DB_EMPTY]; omega) (by simp only [F.DMA_CH_DB_EMPTY]; omega)
        refine ⟨hkeeps.trans hcounted, fun j hj hpmu => ?_⟩
        rw [if_pos rfl, State.word_put_other _ _ _ _ (by simpa [Fld.covers, F.DMA_CH_DB_EMPTY] using hj), hword j hpmu]
    · exact ⟨s, true, rfl, .refl s, fun _ _ _ => rfl⟩
  next => exact ⟨s, true, rfl, .refl s, fun _ _ _ => rfl⟩

/-! ### What a doorbell does in each state -/

/-- The start of an IDLE channel at its PC. -/
def State.dmaStart (s : State) (c : Nat) : State :=
  let t := (((s.put (F.DMA_CH_LAST_DL c) s.dmaTempo).put (F.DMA_CH_LOOP_ACT c) 0).put (F.DMA_CH_STAT_DB_PEND c) 0).put
    (F.DMA_CH_STAT_EV_PEND c) 0
  (t.setDma c { rung := (t.dmaChan c).rung }).setDmaState c dmRunning

variable {s : State}

theorem State.dmaState_ring : (s.ring c).dmaState c = s.dmaState c := rfl

theorem State.dmaPc_ring : (s.ring c).dmaPc c = s.dmaPc c := rfl

theorem State.doorbell_idle (hstate : s.dmaState c = dmIdle) (hpc : s.dmaPc c % 8 = 0) : s.doorbell c = (s.ring c).dmaStart c := by
  unfold State.doorbell
  dsimp only
  rw [State.dmaState_ring, State.dmaPc_ring, if_pos hstate, if_neg (by simp [hpc])]
  rfl

theorem State.doorbell_idle_misaligned (hstate : s.dmaState c = dmIdle) (hpc : s.dmaPc c % 8 ≠ 0) :
    s.doorbell c = (s.ring c).logErr siteDma 0x01 0x001 [c, s.dmaPc c % 2 ^ 32] := by
  unfold State.doorbell
  dsimp only
  rw [State.dmaState_ring, State.dmaPc_ring, if_pos hstate, if_pos (bne_iff_ne.2 hpc)]

theorem State.doorbell_endWait (hstate : s.dmaState c = dmEndWait) :
    s.doorbell c = ((s.ring c).fetchAtEnd c).setDmaState c dmRunning := by
  unfold State.doorbell
  dsimp only
  rw [State.dmaState_ring, hstate, if_neg (by decide), if_pos rfl]

theorem State.doorbell_stopped (hstate : s.dmaState c = dmHalted ∨ s.dmaState c = dmStopping) :
    s.doorbell c = ((s.ring c).bump (F.DMA_CH_DB_LOST c)).dmaEvent 34 := by
  unfold State.doorbell
  dsimp only
  rw [State.dmaState_ring]
  obtain hstate | hstate := hstate <;> rw [hstate, if_neg (by decide), if_neg (by decide), if_pos (by decide)]

theorem State.doorbell_pending (hstate : s.dmaState c = dmRunning ∨ s.dmaState c = dmWaiting) :
    s.doorbell c = (s.ring c).put (F.DMA_CH_STAT_DB_PEND c) 1 := by
  unfold State.doorbell
  dsimp only
  rw [State.dmaState_ring]
  obtain hstate | hstate := hstate <;> rw [hstate, if_neg (by decide), if_neg (by decide), if_neg (by decide)]

include hc

theorem State.KeepsBeyondDma.channel (s : State) {f : Fld} (v : Nat) (hoff : f.off / 0x80 = 0x1A020 + c ∧ f.off % 0x80 < 0x7C) :
    s.KeepsBeyondDma (s.put f v) := by
  obtain ⟨hdiv, hmod⟩ := hoff
  exact .put s v (by omega) (by omega)

/-- A doorbell leaves alone what is beyond the DMA. -/
theorem State.KeepsBeyondDma.doorbell (s : State) : s.KeepsBeyondDma (s.doorbell c) := by
  have hring : s.KeepsBeyondDma (s.ring c) := .setDma _ _ _
  unfold State.doorbell
  dsimp only
  refine hring.trans ?_
  generalize s.ring c = s
  split
  · split
    · exact .logDma _ _ _ _
    · have hdeadline := State.KeepsBeyondDma.channel hc s (f := F.DMA_CH_LAST_DL c) s.dmaTempo (by simp only [F.DMA_CH_LAST_DL]; omega)
      have hloop (t : State) := State.KeepsBeyondDma.channel hc t (f := F.DMA_CH_LOOP_ACT c) 0 (by simp only [F.DMA_CH_LOOP_ACT]; omega)
      have hdoorbell (t : State) :=
        State.KeepsBeyondDma.channel hc t (f := F.DMA_CH_STAT_DB_PEND c) 0 (by simp only [F.DMA_CH_STAT_DB_PEND]; omega)
      have hevent (t : State) :=
        State.KeepsBeyondDma.channel hc t (f := F.DMA_CH_STAT_EV_PEND c) 0 (by simp only [F.DMA_CH_STAT_EV_PEND]; omega)
      exact (((hdeadline.trans (hloop _)).trans (hdoorbell _)).trans (hevent _)).trans ((setDma _ _ _).trans (setDmaState _ hc _))
  · split
    · obtain ⟨u, again, hfetch, hkeeps, -⟩ := s.fetchAtEnd_eq hc
      rw [hfetch]
      refine ((hkeeps.trans (.channel hc u (f := F.DMA_CH_STAT_DB_PEND c) 0 ?_)).trans (setDma _ _ _)).trans (setDmaState _ hc _)
      simp only [F.DMA_CH_STAT_DB_PEND]
      omega
    · split
      · refine (channel hc s (f := F.DMA_CH_DB_LOST c) _ ?_).trans (raise _ _)
        simp only [F.DMA_CH_DB_LOST]
        omega
      · refine channel hc s (f := F.DMA_CH_STAT_DB_PEND c) 1 ?_
        simp only [F.DMA_CH_STAT_DB_PEND]
        omega

omit hc

/-! The registers of the channel after a doorbell. -/

/-- A started channel runs at its PC, with nothing pending. -/
theorem State.dmaStart_starts (s : State) (c : Nat) : (s.dmaStart c).dmaState c = dmRunning ∧ (s.dmaStart c).dmaPc c = s.dmaPc c
    ∧ (s.dmaStart c).get (F.DMA_CH_LOOP_ACT c) = 0 ∧ (s.dmaStart c).on (F.DMA_CH_STAT_DB_PEND c) = false
    ∧ (s.dmaStart c).on (F.DMA_CH_STAT_EV_PEND c) = false := by
  unfold State.dmaStart
  dsimp only
  generalize hloops : (s.put (F.DMA_CH_LAST_DL c) s.dmaTempo).put (F.DMA_CH_LOOP_ACT c) 0 = u
  have hpending (j : Nat) (hj : j ≠ 0x00D01004 + 0x80 * c) :
      ((u.put (F.DMA_CH_STAT_DB_PEND c) 0).put (F.DMA_CH_STAT_EV_PEND c) 0).word j = u.word j := by
    rw [State.word_put_other _ _ _ _ (by simpa [Fld.covers, F.DMA_CH_STAT_EV_PEND] using hj),
      State.word_put_other _ _ _ _ (by simpa [Fld.covers, F.DMA_CH_STAT_DB_PEND] using hj)]
  have hevent : ((u.put (F.DMA_CH_STAT_DB_PEND c) 0).put (F.DMA_CH_STAT_EV_PEND c) 0).on (F.DMA_CH_STAT_EV_PEND c) = false :=
    State.on_put_zero _ _ (by simp [F.DMA_CH_STAT_EV_PEND]) (by simp [F.DMA_CH_STAT_EV_PEND])
  have hdoorbell : ((u.put (F.DMA_CH_STAT_DB_PEND c) 0).put (F.DMA_CH_STAT_EV_PEND c) 0).on (F.DMA_CH_STAT_DB_PEND c) = false := by
    rw [State.on, State.get_put_below _ (F.DMA_CH_STAT_EV_PEND c) (F.DMA_CH_STAT_DB_PEND c) _ rfl (by simp [F.DMA_CH_STAT_EV_PEND])
      (by simp [F.DMA_CH_STAT_EV_PEND, F.DMA_CH_STAT_DB_PEND]) (by simp [F.DMA_CH_STAT_EV_PEND]) (by simp [F.DMA_CH_STAT_DB_PEND])]
    exact State.on_put_zero _ _ (by simp [F.DMA_CH_STAT_DB_PEND]) (by simp [F.DMA_CH_STAT_DB_PEND])
  generalize (u.put (F.DMA_CH_STAT_DB_PEND c) 0).put (F.DMA_CH_STAT_EV_PEND c) 0 = v at hpending hevent hdoorbell
  have hword (j : Nat) (hstat : j ≠ 0x00D01004 + 0x80 * c) (hend : j ≠ 0x00D00008) :
      ((v.setDma c { rung := (v.dmaChan c).rung }).setDmaState c dmRunning).word j = u.word j := by
    rw [State.setDmaState_word_other _ _ hstat hend, State.word_setDma, hpending j hstat]
  have hstatus {g : Fld} (hoff : g.off = 0x00D01004 + 0x80 * c) (hlo : 2 < g.lo) (hhi : g.hi < 32) :
      ((v.setDma c { rung := (v.dmaChan c).rung }).setDmaState c dmRunning).on g = v.on g := by
    rw [State.on, State.setDmaState_get_above _ _ hoff hlo hhi]
    rfl
  refine ⟨State.dmaState_setDmaState _ c (by decide), ?pc, ?loops, ?doorbell, ?event⟩
  case pc =>
    have hpc (j : Nat) (hdeadline : j ≠ 0x00D01018 + 0x80 * c ∧ j ≠ 0x00D0101C + 0x80 * c) (hloop : j ≠ 0x00D01028 + 0x80 * c) :
        u.word j = s.word j := by
      rw [← hloops, State.word_put_other _ _ _ _ (by simpa [Fld.covers, F.DMA_CH_LOOP_ACT] using hloop),
        State.word_put_other _ _ _ _ (by simp [Fld.covers, F.DMA_CH_LAST_DL]; omega)]
    refine State.get_of_words ?_ ?_ <;> rw [hword, hpc] <;> simp only [F.DMA_CH_PC] <;> omega
  case loops =>
    rw [State.get_of_word (by simp [F.DMA_CH_LOOP_ACT]) (hword _ (by simp [F.DMA_CH_LOOP_ACT]) (by simp only [F.DMA_CH_LOOP_ACT]; omega)),
      ← hloops, State.get_put_same _ _ _ (by simp [F.DMA_CH_LOOP_ACT]) (by simp [F.DMA_CH_LOOP_ACT]), Nat.zero_mod]
  case doorbell => rw [hstatus rfl (by simp [F.DMA_CH_STAT_DB_PEND]) (by simp [F.DMA_CH_STAT_DB_PEND]), hdoorbell]
  case event => rw [hstatus rfl (by simp [F.DMA_CH_STAT_EV_PEND]) (by simp [F.DMA_CH_STAT_EV_PEND]), hevent]

include hc

/-- A channel in END_WAIT runs again at the same PC. -/
theorem State.fetchAtEnd_runs (s : State) : ((s.fetchAtEnd c).setDmaState c dmRunning).dmaState c = dmRunning
    ∧ ((s.fetchAtEnd c).setDmaState c dmRunning).dmaPc c = s.dmaPc c
    ∧ ((s.fetchAtEnd c).setDmaState c dmRunning).on (F.DMA_CH_STAT_DB_PEND c) = false := by
  obtain ⟨u, again, hfetch, -, hword⟩ := s.fetchAtEnd_eq hc
  rw [hfetch]
  refine ⟨State.dmaState_setDmaState _ c (by decide), ?pc, ?doorbell⟩
  case pc =>
    have hpc (j : Nat) (hj : j = 0x00D01010 + 0x80 * c ∨ j = 0x00D01014 + 0x80 * c) :
        ((u.refetch c again).setDmaState c dmRunning).word j = s.word j := by
      rw [State.setDmaState_word_other _ _ (by omega) (by omega), State.refetch, State.word_setDma,
        State.word_put_other _ _ _ _ (by simp [Fld.covers, F.DMA_CH_STAT_DB_PEND]; omega), hword j (by omega) (by simp [inPmu]; omega)]
    exact State.get_of_words (hpc _ (.inl rfl)) (hpc _ (.inr (by simp only [F.DMA_CH_PC]; omega)))
  case doorbell =>
    rw [State.on, State.setDmaState_get_above _ _ rfl (by simp [F.DMA_CH_STAT_DB_PEND]) (by simp [F.DMA_CH_STAT_DB_PEND])]
    exact State.on_put_zero u _ (by simp [F.DMA_CH_STAT_DB_PEND]) (by simp [F.DMA_CH_STAT_DB_PEND])

omit hc

end Channel

theorem inPmu_of_below {j : Nat} (h : j < 0x01500000) : inPmu j = false := by
  simp [inPmu]
  omega

/-- An error of the DMA leaves the channels' states alone. -/
theorem State.dmaState_logDma (s : State) {c : Nat} (hc : c < 32) (cls cause : Nat) (d : List Nat) :
    (s.logErr siteDma cls cause d).dmaState c = s.dmaState c := by
  refine State.get_of_word (by simp [F.DMA_CH_STAT_STATE]) (State.logErr_word _ _ _ _ _ _ ?_ ?_ fun f hf => ?_)
  · exact inPmu_of_below (by simp only [F.DMA_CH_STAT_STATE]; omega)
  · simp only [siteDma, F.DMA_CH_STAT_STATE]
    omega
  · cases hf
    simp [Fld.covers, F.DMA_ERR, F.DMA_CH_STAT_STATE]
    omega

/-- A doorbell lost is counted. -/
theorem State.get_lost (s : State) {c : Nat} (hc : c < 32) :
    ((s.bump (F.DMA_CH_DB_LOST c)).dmaEvent 34).get (F.DMA_CH_DB_LOST c) = (s.get (F.DMA_CH_DB_LOST c) + 1) % 2 ^ 32 := by
  rw [State.dmaEvent, State.raise_get _ _ _ (inPmu_of_below (by simp only [F.DMA_CH_DB_LOST]; omega))
      (inPmu_of_below (by simp only [F.DMA_CH_DB_LOST]; omega)),
    State.bump, State.get_put_same _ _ _ (by simp [F.DMA_CH_DB_LOST]) (by simp [F.DMA_CH_DB_LOST])]
  simp only [F.DMA_CH_DB_LOST]

/-- A doorbell lost leaves the channel's state alone. -/
theorem State.dmaState_lost (s : State) {c : Nat} (hc : c < 32) :
    ((s.bump (F.DMA_CH_DB_LOST c)).dmaEvent 34).dmaState c = s.dmaState c := by
  refine State.get_of_word (by simp [F.DMA_CH_STAT_STATE]) ?_
  rw [State.dmaEvent, State.raise_word _ _ _ (inPmu_of_below (by simp only [F.DMA_CH_STAT_STATE]; omega))]
  exact State.word_put_other _ _ _ _ (by simp [Fld.covers, F.DMA_CH_DB_LOST, F.DMA_CH_STAT_STATE])

theorem State.dmaState_pending (s : State) (c : Nat) : (s.put (F.DMA_CH_STAT_DB_PEND c) 1).dmaState c = s.dmaState c :=
  State.get_put_below s (F.DMA_CH_STAT_DB_PEND c) (F.DMA_CH_STAT_STATE c) 1 rfl (by simp [F.DMA_CH_STAT_DB_PEND])
    (by simp [F.DMA_CH_STAT_DB_PEND, F.DMA_CH_STAT_STATE]) (by simp [F.DMA_CH_STAT_DB_PEND]) (by simp [F.DMA_CH_STAT_STATE])

/-! ### A trigger of the doorbell task -/

/-- `t` has the DMA's registers, its channels and the events of `u`. -/
structure State.KeepsDmaRegs (u t : State) : Prop where
  word : ∀ j, 0x00D00000 ≤ j → j < 0x00E00000 → t.word j = u.word j
  dma : t.dma = u.dma
  events : u.KeepsEvents t

theorem State.KeepsDmaRegs.refl (u : State) : u.KeepsDmaRegs u := ⟨fun _ _ _ => rfl, rfl, .of_eq rfl rfl⟩

theorem State.KeepsDmaRegs.absorb (u : State) {i : Nat} (hi : i < 2048) : u.KeepsDmaRegs (u.absorb i) := by
  refine ⟨fun j hlow hhigh => u.absorb_word i (by omega) (by simp [inPmu]; omega), ?_, ?_⟩
  · obtain ⟨p, r, q, habsorb⟩ := State.Raised.absorb u i
    rw [habsorb]
  · have hcounted : u.KeepsEvents ((u.coalesce i).flag (F.EVF_TASK_OVERRUN i)) :=
      .of_eq (by simp [State.coalesce]) (by simp [State.coalesce])
    exact hcounted.trans (.raiseAux _ _ _)

theorem State.KeepsDmaRegs.get {u t : State} (h : u.KeepsDmaRegs t) {f : Fld} (hlow : 0x00D00000 ≤ f.off)
    (hhigh : f.off + 4 < 0x00E00000) : t.get f = u.get f :=
  State.get_of_words (h.word _ hlow (by omega)) (h.word _ (by omega) hhigh)

/-- A trigger acts as the doorbell, and is absorbed where it finds the input busy. -/
theorem State.doorbellTrigger_eq {s : State} {c : Nat} (hc : c < 32) (hfirst : s.rungNow c = false) :
    (s.doorbell c).KeepsDmaRegs (s.doorbellTrigger c) ∧ s.KeepsBeyondDma (s.doorbellTrigger c) := by
  have hkeeps := State.KeepsBeyondDma.doorbell hc s
  unfold State.doorbellTrigger
  rw [if_neg (by simp [hfirst])]
  split
  · exact ⟨.absorb _ (by omega), hkeeps.trans (.absorb _ (by omega))⟩
  · exact ⟨.refl _, hkeeps⟩

/-- Settles O29: a trigger that is not merged acts as the doorbell does in the channel's state. -/
theorem doorbellActsByState : Obligations.DoorbellActsByState := by
  intro dt c s₀ s hs hheld
  have htask : exec (.dmaDoorbell dt .task c) s₀ = .next (s.doorbellTrigger c) :=
    trigCmd_task s₀ dt hs hheld (O.DMA_CH_DOORBELL c) fun s => s.doorbellTrigger c
  refine ⟨fun who hwho => ?byWrite, fun hagain => ?again, fun hfirst => ⟨_, htask, ?_⟩⟩
  case byWrite => exact (regCmd_takes hwho s₀ dt hs fun s => s.doorbellTrigger c).trans htask.symm
  case again => rw [htask, State.doorbellTrigger, if_pos hagain]
  obtain ⟨hregs, hmem, heng, hout, hword⟩ := State.doorbellTrigger_eq c.isLt hfirst
  have hstate : (s.doorbellTrigger c).dmaState c = (s.doorbell c).dmaState c :=
    hregs.get (by simp only [F.DMA_CH_STAT_STATE]; omega) (by simp only [F.DMA_CH_STAT_STATE]; omega)
  have hpc : (s.doorbellTrigger c).dmaPc c = (s.doorbell c).dmaPc c :=
    hregs.get (by simp only [F.DMA_CH_PC]; omega) (by simp only [F.DMA_CH_PC]; omega)
  have hloops : (s.doorbellTrigger c).get (F.DMA_CH_LOOP_ACT c) = (s.doorbell c).get (F.DMA_CH_LOOP_ACT c) :=
    hregs.get (by simp only [F.DMA_CH_LOOP_ACT]; omega) (by simp only [F.DMA_CH_LOOP_ACT]; omega)
  have hpending : (s.doorbellTrigger c).on (F.DMA_CH_STAT_DB_PEND c) = (s.doorbell c).on (F.DMA_CH_STAT_DB_PEND c) := by
    rw [State.on, hregs.get (by simp only [F.DMA_CH_STAT_DB_PEND]; omega) (by simp only [F.DMA_CH_STAT_DB_PEND]; omega)]
    rfl
  have hevent : (s.doorbellTrigger c).on (F.DMA_CH_STAT_EV_PEND c) = (s.doorbell c).on (F.DMA_CH_STAT_EV_PEND c) := by
    rw [State.on, hregs.get (by simp only [F.DMA_CH_STAT_EV_PEND]; omega) (by simp only [F.DMA_CH_STAT_EV_PEND]; omega)]
    rfl
  have hlost : (s.doorbellTrigger c).get (F.DMA_CH_DB_LOST c) = (s.doorbell c).get (F.DMA_CH_DB_LOST c) :=
    hregs.get (by simp only [F.DMA_CH_DB_LOST]; omega) (by simp only [F.DMA_CH_DB_LOST]; omega)
  refine ⟨hmem, heng, hout, hword, ?idle, ?misaligned, ?endWait, ?stopped, ?pending⟩
  case idle =>
    intro hidle haligned
    rw [hstate, hpc, hloops, hpending, hevent, State.doorbell_idle hidle haligned]
    exact (s.ring c).dmaStart_starts c
  case misaligned =>
    intro hidle hmisaligned
    rw [hstate, State.doorbell_idle_misaligned hidle hmisaligned, State.dmaState_logDma _ c.isLt]
    exact hidle
  case endWait =>
    intro hend
    rw [hstate, hpc, hpending, State.doorbell_endWait hend]
    exact (s.ring c).fetchAtEnd_runs c.isLt
  case stopped =>
    intro hstopped
    have hraised : (s.doorbell c).hasRaised (832 + 34) = true := by
      rw [State.doorbell_stopped hstopped]
      exact State.hasRaised_raise _ _
    refine ⟨?_, ?_, hregs.events.hasRaised hraised⟩
    · rw [hstate, State.doorbell_stopped hstopped, State.dmaState_lost _ c.isLt]
      rfl
    · rw [hlost, State.doorbell_stopped hstopped, State.get_lost _ c.isLt]
      rfl
  case pending =>
    intro hrunning
    rw [hstate, hpending, hregs.dma, State.doorbell_pending hrunning, State.dmaState_pending, State.put_dma]
    exact ⟨rfl, State.on_put_one _ _ (by simp [F.DMA_CH_STAT_DB_PEND]) (by simp [F.DMA_CH_STAT_DB_PEND]), rfl⟩

end Sys2Proof.Machine
end

section
/-! PROOFS. DATA frames of a Fuvor port (16 R436, R437): what the sending of an ACK or a NAK and the taking of a transaction leave alone,
and which frames move the expected SEQ on. -/

namespace Sys2Proof.Machine

/-! ### What sending leaves alone -/

/-- The words of a port's counts of bad CRCs and of frames taken. -/
def isFrameCount (p j : Nat) : Prop := j = 0x00F01030 + 0x80 * p ∨ j = 0x00F01034 + 0x80 * p ∨ j = 0x00F01038 + 0x80 * p

/-- `t` has the memory, the engines, and of port `p` the expected SEQ and the counts of frames of `s`. -/
structure State.KeepsRx (p : Nat) (s t : State) : Prop where
  mem : t.mem = s.mem
  eng : t.eng = s.eng
  rxSeq : (t.fvPort p).rxSeq = (s.fvPort p).rxSeq
  word : ∀ j, isFrameCount p j → t.word j = s.word j

/-- As `KeepsRx`, with the credits of the port as well. -/
structure State.KeepsLink (p : Nat) (s t : State) : Prop extends s.KeepsRx p t where
  credit : (t.fvPort p).credit = (s.fvPort p).credit

section Port

variable {p : Nat}

theorem State.KeepsRx.trans {a b c : State} (h : a.KeepsRx p b) (k : b.KeepsRx p c) : a.KeepsRx p c :=
  ⟨k.mem.trans h.mem, k.eng.trans h.eng, k.rxSeq.trans h.rxSeq, fun j hj => (k.word j hj).trans (h.word j hj)⟩

theorem State.fvPort_setFvPort (s : State) (p : Nat) (v : FvlPort) : (s.setFvPort p v).fvPort p = v := Sparse.get_set_same _ _ _ _

namespace State.KeepsLink

theorem trans {a b c : State} (h : a.KeepsLink p b) (k : b.KeepsLink p c) : a.KeepsLink p c :=
  ⟨h.toKeepsRx.trans k.toKeepsRx, k.credit.trans h.credit⟩

theorem refl (s : State) : s.KeepsLink p s := ⟨⟨rfl, rfl, rfl, fun _ _ => rfl⟩, rfl⟩

theorem emit (s : State) (o : Out) : s.KeepsLink p (s.emit o) := ⟨⟨rfl, rfl, rfl, fun _ _ => rfl⟩, rfl⟩

theorem countBytes (s : State) (slot n : Nat) : s.KeepsLink p (s.countBytes slot n) := by
  obtain ⟨m, hm⟩ := s.countBytes_eq slot n
  rw [hm]
  exact ⟨⟨rfl, rfl, rfl, fun _ _ => rfl⟩, rfl⟩

/-- A change of the port that is neither of its expected SEQ nor of its credits. -/
theorem setFvPort (s : State) {v : FvlPort} (hseq : v.rxSeq = (s.fvPort p).rxSeq) (hcredit : v.credit = (s.fvPort p).credit) :
    s.KeepsLink p (s.setFvPort p v) :=
  ⟨⟨rfl, rfl, by rw [State.fvPort_setFvPort, hseq], fun _ _ => rfl⟩, by rw [State.fvPort_setFvPort, hcredit]⟩

theorem of_logged {s t : State} (h : s.Logged t) (hword : ∀ j, isFrameCount p j → t.word j = s.word j) : s.KeepsLink p t := by
  obtain ⟨_, _, _, _, _, rfl⟩ := h
  exact ⟨⟨rfl, rfl, rfl, hword⟩, rfl⟩

theorem put (s : State) {f : Fld} (v : Nat) (hf : ∀ j, isFrameCount p j → f.covers j = false) : s.KeepsLink p (s.put f v) :=
  of_logged (.put s f v) fun j hj => State.word_put_other _ _ _ _ (hf j hj)

theorem putFrame (s : State) (ftype mid top : Nat) (words : List DWord) (atRow : Bool) :
    s.KeepsLink p (s.putFrame p ftype mid top words atRow) := (setFvPort s (by rfl) (by rfl)).trans (emit _ _)

theorem putAck (s : State) (nak : Bool) (seq : Nat) : s.KeepsLink p (s.putAck p nak seq) := (putFrame s _ _ _ _ _).trans (emit _ _)

theorem sendInUse (s : State) (os : Nat → List Byte) (times : Option Nat) : s.KeepsLink p (s.sendInUse p os times) :=
  ⟨⟨rfl, rfl, rfl, fun _ _ => rfl⟩, rfl⟩

/-- A transmitter that wakes takes up its stream. -/
theorem wakeTx (s : State) : s.KeepsLink p (s.wakeTx p) := by
  unfold State.wakeTx
  dsimp only
  split
  · refine trans ?_ (setFvPort _ (by rfl) (by rfl))
    refine trans ?_ (put _ 0 fun j hj => ?_)
    · exact (((sendInUse _ _ _).trans (sendInUse _ _ _)).trans (sendInUse _ _ _)).trans (sendInUse _ _ _)
    · unfold isFrameCount at hj
      simp [Fld.covers, F.FVL_PORT_STAT_TX_SLEEP]
      omega
  · exact refl s

theorem sendAck (s : State) : s.KeepsLink p (s.sendAck p) :=
  ((wakeTx s).trans (setFvPort _ (by rfl) (by rfl))).trans ((countBytes _ _ _).trans (putAck _ _ _))

theorem sendNak (s : State) : s.KeepsLink p (s.sendNak p) := by
  have hwoken : s.KeepsLink p (if (s.fvPort p).nakked then s else s.wakeTx p) := by
    split
    · exact refl s
    · exact wakeTx s
  unfold State.sendNak
  dsimp only
  generalize (if (s.fvPort p).nakked then s else s.wakeTx p) = u at hwoken
  refine hwoken.trans ?_
  split
  · exact refl _
  · exact (setFvPort _ (by rfl) (by rfl)).trans ((countBytes _ _ _).trans (putAck _ _ _))

end State.KeepsLink

/-! ### What the taking of a transaction leaves alone -/

theorem State.KeepsRx.setFvPort (s : State) {v : FvlPort} (hseq : v.rxSeq = (s.fvPort p).rxSeq) : s.KeepsRx p (s.setFvPort p v) :=
  ⟨rfl, rfl, by rw [State.fvPort_setFvPort, hseq], fun _ _ => rfl⟩

theorem State.KeepsLink.bumpDropped (s : State) : s.KeepsLink p (s.bump (F.FVL_PORT_DROPPED p)) := by
  refine put _ _ fun j hj => ?_
  unfold isFrameCount at hj
  simp [Fld.covers, F.FVL_PORT_DROPPED]
  omega

/-- The reading of a buffer counts its corrected errors. -/
theorem State.KeepsLink.bufferUpset (s : State) : s.KeepsLink p (s.bufferUpset p).2 := by
  have hdraw : s.KeepsLink p s.draw.2 := ⟨⟨rfl, rfl, rfl, fun _ _ => rfl⟩, rfl⟩
  have hcorrected : s.draw.2.KeepsLink p (s.draw.2.bump (F.FVL_PORT_BUF_ECC_CORR p)) := by
    refine put _ _ fun j hj => ?_
    unfold isFrameCount at hj
    simp [Fld.covers, F.FVL_PORT_BUF_ECC_CORR]
    omega
  unfold State.bufferUpset
  dsimp only
  split
  · exact hdraw
  · exact hdraw.trans hcorrected
  · exact hdraw

variable (hp : p < 53)
include hp

theorem inPmu_of_isFrameCount {j : Nat} (hj : isFrameCount p j) : inPmu j = false := by
  unfold isFrameCount at hj
  exact inPmu_of_below (by omega)

theorem State.KeepsLink.tally (s : State) (u i e n : Nat) : s.KeepsLink p (s.tally u i e n) :=
  of_logged (State.Raised.tally s u i e n).logged fun _ hj => State.tally_word _ _ _ _ _ _ (inPmu_of_isFrameCount hp hj)

/-- An error of the FVL or the TWN. -/
theorem State.KeepsLink.logErr (s : State) {e : Site} (he : e = siteFvl ∨ e = siteTwn) (cls cause : Nat) (d : List Nat) :
    s.KeepsLink p (s.logErr e cls cause d) := by
  refine of_logged (.logErr s _ _ _ _) fun j hj => State.logErr_word _ _ _ _ _ _ (inPmu_of_isFrameCount hp hj) ?_ fun f hf => ?_
  all_goals unfold isFrameCount at hj
  · obtain rfl | rfl := he
    · simp only [siteFvl]
      omega
    · simp only [siteTwn]
      omega
  · obtain rfl | rfl := he
    · cases hf
      simp [Fld.covers, F.FVL_ERR]
      omega
    · cases hf
      simp [Fld.covers, F.TWN_ERR]
      omega

theorem State.KeepsLink.fvlErr (s : State) (cls cause x : Nat) : s.KeepsLink p (Machine.fvlErr s cls cause p x) :=
  logErr hp s (.inl rfl) _ _ _

/-- The taking of a transaction is about its class's credits and its errors. -/
theorem State.KeepsRx.fvTake (s : State) (seq : Nat) (words : List DWord) : s.KeepsRx p (s.fvTake p seq words) := by
  have herror (t : State) (cls cause : Nat) : t.KeepsRx p (Machine.fvlErr t cls cause p seq) :=
    (State.KeepsLink.fvlErr hp t cls cause seq).toKeepsRx
  have hdropped (t : State) : t.KeepsRx p (t.bump (F.FVL_PORT_DROPPED p)) := (State.KeepsLink.bumpDropped t).toKeepsRx
  unfold State.fvTake
  dsimp only
  split
  · exact herror _ _ _
  · split
    · exact (State.KeepsLink.refl s).toKeepsRx
    · split
      · exact (hdropped s).trans (herror _ _ _)
      · have hcredited (c : Nat) (k : CreditClass) : s.KeepsRx p (s.setFvPort p ((s.fvPort p).setCls c k)) := setFvPort s rfl
        generalize hu : State.setFvPort s p (FvlPort.setCls _ _ _) = u
        have htaken : s.KeepsRx p (u.bufferUpset p).2 := (hu ▸ hcredited _ _).trans (State.KeepsLink.bufferUpset u).toKeepsRx
        refine htaken.trans ?_
        split
        · exact herror _ _ _
        · split
          · exact (State.KeepsLink.logErr hp _ (.inr rfl) _ _ _).toKeepsRx
          · split
            · exact hdropped _
            · exact (State.KeepsLink.refl _).toKeepsRx

/-! ### DATA frames (R436, R437) -/

omit hp in
theorem State.KeepsRx.get_framesRx {s t : State} (h : s.KeepsRx p t) : t.get (F.FVL_PORT_FRAMES_RX p) = s.get (F.FVL_PORT_FRAMES_RX p) :=
  State.get_of_words (h.word _ (.inl rfl)) (h.word _ (.inr (.inl (by simp only [F.FVL_PORT_FRAMES_RX]; omega))))

omit hp in
theorem State.KeepsRx.get_crcErrs {s t : State} (h : s.KeepsRx p t) : t.get (F.FVL_PORT_CRC_ERRS p) = s.get (F.FVL_PORT_CRC_ERRS p) :=
  State.get_of_word (by simp [F.FVL_PORT_CRC_ERRS]) (h.word _ (.inr (.inr rfl)))

/-- A frame with a bad CRC is counted, and answered by a NAK. -/
theorem State.dataFrame_badCrc (s : State) {f : RxFrame} (hcrc : f.crcOk = false) :
    ∃ u : State, s.KeepsLink p u ∧ (u.bump (F.FVL_PORT_CRC_ERRS p)).KeepsLink p (s.dataFrame p f) := by
  refine ⟨_, .countBytes s (65 + 2 * p) (frameBytes f.words.length), ?_⟩
  unfold State.dataFrame
  dsimp only
  rw [if_pos (by simp [hcrc])]
  exact (State.KeepsLink.tally hp _ _ _ _ _).trans (.sendNak _)

omit hp in
theorem seqDiff_eq_zero {a b : Nat} (ha : a < 65536) (hb : b < 65536) : seqDiff a b = 0 ↔ a = b := by
  unfold seqDiff signed
  rw [Nat.mod_eq_of_lt hb]
  split <;> omega

omit hp in
/-- A frame with another SEQ is answered, and no more. -/
theorem State.dataFrame_outOfOrder (s : State) {f : RxFrame} (hcrc : f.crcOk = true) (hrx : (s.fvPort p).rxSeq < 65536)
    (hseq : f.seq.toNat ≠ (s.fvPort p).rxSeq) : s.KeepsLink p (s.dataFrame p f) := by
  have hdiff : seqDiff f.seq.toNat (s.fvPort p).rxSeq ≠ 0 := fun h => hseq ((seqDiff_eq_zero f.seq.isLt hrx).1 h)
  have hcounted := State.KeepsLink.countBytes (p := p) s (65 + 2 * p) (frameBytes f.words.length)
  unfold State.dataFrame
  dsimp only
  rw [if_neg (by simp [hcrc]), hcounted.rxSeq]
  split
  · exact hcounted.trans (.sendNak _)
  · rw [if_pos (by omega)]
    exact hcounted.trans (.sendAck _)

/-- The frame that is expected moves the expected SEQ on and is counted. -/
theorem State.dataFrame_inOrder (s : State) {f : RxFrame} (hcrc : f.crcOk = true) (hrx : (s.fvPort p).rxSeq < 65536)
    (hseq : f.seq.toNat = (s.fvPort p).rxSeq) :
    ∃ w : State, w.mem = s.mem ∧ w.eng = s.eng ∧ w.get (F.FVL_PORT_FRAMES_RX p) = s.get (F.FVL_PORT_FRAMES_RX p)
      ∧ (w.fvPort p).rxSeq = ((s.fvPort p).rxSeq + 1) % 65536
      ∧ (w.bump (F.FVL_PORT_FRAMES_RX p)).KeepsRx p (s.dataFrame p f) := by
  have hdiff : seqDiff f.seq.toNat (s.fvPort p).rxSeq = 0 := (seqDiff_eq_zero f.seq.isLt hrx).2 hseq
  have hcounted := State.KeepsLink.countBytes (p := p) s (65 + 2 * p) (frameBytes f.words.length)
  unfold State.dataFrame
  dsimp only
  rw [if_neg (by simp [hcrc]), hcounted.rxSeq, hdiff, if_neg (by decide), if_neg (by decide)]
  generalize hw : State.setFvPort _ p _ = w
  refine ⟨w, ?mem, ?eng, ?frames, ?next, ?rest⟩
  case mem => rw [← hw, State.setFvPort_mem, hcounted.mem]
  case eng => rw [← hw, State.setFvPort_eng, hcounted.eng]
  case frames => exact hw ▸ hcounted.get_framesRx
  case next => rw [← hw, State.fvPort_setFvPort]
  case rest =>
    split
    · exact (State.KeepsLink.tally hp _ _ _ _ _).toKeepsRx.trans (.fvTake hp _ _ _)
    · exact (State.KeepsLink.tally hp _ _ _ _ _).toKeepsRx.trans (State.KeepsLink.fvlErr hp _ _ _ _).toKeepsRx

end Port

/-- Settles O35: a frame is answered or taken by its CRC and its SEQ, and what follows leaves the port's SEQ and counts alone. -/
theorem framesAreTakenInOrder : Obligations.FramesAreTakenInOrder := by
  intro dt p frame s₀ s hs hheld hactive hrx
  have hexec : exec (.dataFrameReceive dt p frame) s₀ = .next (s.dataFrame p frame) :=
    evCmd_happens (guard := fun s => s.fvState p == fvActive) s₀ dt hs hheld (by simp [hactive]) fun s => s.dataFrame p frame
  refine ⟨_, hexec, ?_⟩
  have hport (u : State) (f : Fld) : (u.bump f).fvPort p = u.fvPort p := by rw [State.fvPort, State.bump_fvl, State.fvPort]
  cases hcrc : frame.crcOk with
  | false =>
    obtain ⟨u, hbefore, hafter⟩ := s.dataFrame_badCrc p.isLt hcrc
    have hcredit : ((s.dataFrame p frame).fvPort p).credit = (s.fvPort p).credit := by
      rw [hafter.credit, hport, hbefore.credit]
    refine ⟨?_, ?_, nofun, nofun, fun _ => ⟨?_, fun c => ?_, ?_⟩⟩
    · rw [hafter.mem, State.bump_mem, hbefore.mem]
    · rw [hafter.eng, State.bump_eng, hbefore.eng]
    · rw [hafter.rxSeq, hport, hbefore.rxSeq]
    · rw [FvlPort.cls, hcredit, FvlPort.cls]
    · rw [hafter.get_crcErrs, State.bump, State.get_put_same _ _ _ (by simp [F.FVL_PORT_CRC_ERRS]) (by simp [F.FVL_PORT_CRC_ERRS]),
        hbefore.get_crcErrs]
      simp only [F.FVL_PORT_CRC_ERRS]
  | true =>
    by_cases hseq : frame.seq.toNat = (s.fvPort p).rxSeq
    · obtain ⟨w, hmem, heng, hframes, hnext, hafter⟩ := s.dataFrame_inOrder p.isLt hcrc hrx hseq
      refine ⟨?_, ?_, fun _ _ => ⟨?_, ?_⟩, fun _ hother => absurd hseq hother, nofun⟩
      · rw [hafter.mem, State.bump_mem, hmem]
      · rw [hafter.eng, State.bump_eng, heng]
      · rw [hafter.rxSeq, hport, hnext]
      · rw [hafter.get_framesRx, State.bump, State.get_put_same_wide _ _ _ (by simp [F.FVL_PORT_FRAMES_RX])
          (by simp [F.FVL_PORT_FRAMES_RX]) (by simp [F.FVL_PORT_FRAMES_RX]), hframes]
        simp only [F.FVL_PORT_FRAMES_RX]
    · have hkeeps := s.dataFrame_outOfOrder hcrc hrx hseq
      refine ⟨hkeeps.mem, hkeeps.eng, fun _ h => absurd h hseq, fun _ _ => ⟨hkeeps.rxSeq, fun c => ?_⟩, nofun⟩
      rw [FvlPort.cls, hkeeps.credit, FvlPort.cls]

end Sys2Proof.Machine
end
